-- ==== Sys2Proof/Word.lean ====
section
/-!
DEFINITION. The byte, the unit of every memory of the device (R8: multi-byte values are little-endian lists of bytes).
-/
namespace Sys2Proof

/-- One byte of a memory, a frame or an image. -/
abbrev Byte := BitVec 8

end Sys2Proof
end

