-- ==== Sys2Proof/Syntax.lean ====
section
/-!
DEFINITION. The commands the device takes: one constructor per row of spec/opcode_table.json, with the row's operands. A command is an
access or a request that arrives from outside, or a physical event.
-/
namespace Sys2Proof

/-- A source of BAR0 accesses (R11): host function f, session n of the management path, device firmware. -/
inductive Src where
  | host (f : Nat)
  | sess (n : Nat)
  | fw
  deriving DecidableEq, Repr

/-- What the power controller measures in one microsecond (R383, R398, R451). -/
structure Samp where
  /-- Module input: voltage in 10 mV, current in 10 mA, energy in nJ. -/
  volt : Nat
  amp : Nat
  energy : Nat
  /-- The 24 sense points: mV, 10 mA, nJ. -/
  sense : List (Nat × Nat × Nat)
  /-- Tiles whose matrix array has chunks to issue, with the cycles in 64 it could use. -/
  issue : List (Nat × Nat)
  /-- Lines read and written: stack, owner, lines. -/
  lines : List (Nat × Nat × Nat)
  /-- Bytes sent and received: port, sub-port, bytes. -/
  bytes : List (Nat × Nat × Nat)
  deriving DecidableEq, Repr

/-- A Zheris packet as it arrives (R311 to R313): the sub-port, whether it came with ECN CE, the common header, and what follows it: for HELLO and
HELLO_ACK the body, for the other types the encrypted body and its GCM tag. -/
structure ZPkt where
  port : Nat
  sub : Nat
  ce : Bool
  header : List Byte
  body : List Byte
  deriving DecidableEq, Repr

/-- What the host has stored in its own memory since a command last carried it: host addresses and bytes. -/
abbrev HostStores := List (Nat × List Byte)

/-- A Jexrex request (R420): its session and TAG, whether its frame or body is malformed, and whether the logbook can be written (R428). -/
structure Jex where
  sess : Nat
  tag : Nat
  bad : Bool
  logOk : Bool
  deriving DecidableEq, Repr

/-- The commands. Operand names: `p` partition, `t` tile, `j` port, `k` sub-port, `c` channel, `a` the arrival number of a task or an address,
`g` page or gate, `src` the source of a BAR0 access, `v` the word written (the bit that names the row is 1 in it), `x` the Jexrex request,
`h` what the host has stored in its memory, `dirty` the modified lines that the host returns, `ok` whether a write to flash succeeds. -/
inductive Instr where
  /-- REGISTER_WRITE (R30): A BAR0 write to a register that has no row of its own sets its fields in arrival order, or is ignored, or gets a bus
  error. `off`: BAR0 offset; `width`: bytes. -/
  | registerWrite (src : Src) (off width data : Nat)
  /-- LOW_WORD_READ (R11): A 32-bit read of a 64-bit register's low word returns it and latches the high word for that source. `off`: the
  register's offset. -/
  | lowWordRead (src : Src) (off : Nat)
  /-- HIGH_WORD_READ (R11): A 32-bit read of a high word returns the latched value if it directly follows the low-word read, and releases the
  latch. `off`: the register's offset; the high word lies 4 above. -/
  | highWordRead (src : Src) (off : Nat)
  /-- LOW_WORD_WRITE (R11): A 32-bit write to a 64-bit register's low word is held for that source until the high word is written. `off`: the
  register's offset. -/
  | lowWordWrite (src : Src) (off v : Nat)
  /-- HIGH_WORD_WRITE (R11): A write to the high word applies the whole 64-bit value with the held low word, or combines it with the current low
  word. `off`: the register's offset; the high word lies 4 above. -/
  | highWordWrite (src : Src) (off v : Nat)
  /-- BUSERR_CLEAR (R29): Writing 1 to GEN_BUSERR_STATUS.VALID clears VALID, OVERFLOW and COUNT. -/
  | buserrClear (src : Src)
  /-- CLOCK_ENABLE_WRITE (R377): A write to CLK_ENn gates or ungates blocks, waiting for an image application and ignoring zeros for committed or
  locked gates. `n`: CLK_EN0 or CLK_EN1. -/
  | clockEnableWrite (src : Src) (n v : Nat)
  /-- CLOCK_DISABLE_EFFECT (R31): Once the accesses received before a clock-disable write finish, the block stops and later accesses get bus
  errors. `g`: gate index (R373). -/
  | clockDisableEffect (g : Nat)
  /-- D2D_BLOCK_RETRY (R20): A die-to-die block that fails its CRC is retried without changing order. -/
  | d2dBlockRetry
  /-- D2D_RETRY_EXHAUSTED (R20): A die-to-die block that still fails after the retry limit raises a device-fatal event. -/
  | d2dRetryExhausted
  /-- IMAGE_LOAD (R43): The Jexrex image-load operation checks a fabric image and starts a full or partial load. `full`: the mode byte; `b`: the
  image up to its signature; `sig`: the signature. -/
  | imageLoad (x : Jex) (full : Bool) (b sig : List Byte)
  /-- PARTITION_DRAIN_END (R47): When a DRAINING partition's last task finishes, the partition enters SCRUBBING. -/
  | partitionDrainEnd (p : Nat)
  /-- RELOAD_TIMEOUT (R47): Expiry of FAB_RELOAD_TIMEOUT aborts still-running tasks and moves the partition to SCRUBBING. -/
  | reloadTimeout (p : Nat)
  /-- SCRUB_COMPLETE (R47): When the released resources are cleared, the new section takes effect and the partition becomes ACTIVE or ABSENT. -/
  | scrubComplete (p : Nat)
  /-- IMAGE_STORE_COMPLETE (R53): When the accepted image is written to flash, FAB_VERSION_FLOOR is raised and STORED set, or a failure event is
  raised. -/
  | imageStoreComplete (ok : Bool)
  /-- TILE_FAILURE (R471): A tile fault found in operation marks the tile FAILED, records it and raises a tile-failed event. -/
  | tileFailure (t : Nat)
  /-- MX_NOP (R67): A matrix NOP descriptor completes with no effect. -/
  | mxNop (t : Nat)
  /-- MX_MMA (R75): A matrix MMA descriptor is checked and accumulates A × B chunk by chunk into a bank, with an optional drain. -/
  | mxMma (t : Nat)
  /-- MX_DRAIN (R76): A matrix DRAIN converts the latest bank and writes it to the inkwell or the blotter. -/
  | mxDrain (t : Nat)
  /-- MX_LOAD (R67): A matrix LOAD starts a new accumulation in the other bank, filled from an inkwell panel. -/
  | mxLoad (t : Nat)
  /-- TILE_RING_ENABLE (R465): Writing ENABLE of a tile ring starts or stops its descriptor fetching. `u`: 0 matrix, 1 nib, 2 and 3 movers; `on`:
  the value of ENABLE. -/
  | tileRingEnable (src : Src) (t u : Nat) (on : Bool)
  /-- TILE_RING_ABORT (R465): ABORT stops a tile ring at a boundary, discards queued descriptors, sets HEAD to TAIL and clears HALTED. `u` as in
  TILE_RING_ENABLE. -/
  | tileRingAbort (src : Src) (t u v : Nat)
  /-- TILE_RING_RESUME (R465): RESUME restarts a halted tile ring at HEAD. `u` as in TILE_RING_ENABLE. -/
  | tileRingResume (src : Src) (t u v : Nat)
  /-- TILE_RING_TAIL_WRITE (R74): Advancing a tile ring's TAIL queues descriptors, or faults the ring with code 0x0B if it runs too far ahead. `u`
  as in TILE_RING_ENABLE. -/
  | tileRingTailWrite (src : Src) (t u v : Nat)
  /-- SHADOW_RECOMPUTE_DONE (R98): The nib recomputation of a sampled descriptor ends, its errors are binned and the descriptor completes. -/
  | shadowRecomputeDone (t : Nat)
  /-- WATCH_SUMMARY (R91): A tile's summary of a watched descriptor reaches the collector and is added into its entry. -/
  | watchSummary (p : Nat)
  /-- WATCH_ENABLE (R104): Writing SCH_NW_PCTRL.ENABLE to 1 starts the watch and marks the step PARTIAL. -/
  | watchEnable (src : Src) (p v : Nat)
  /-- WATCH_DISABLE (R104): Writing ENABLE to 0 stops counting, discards summaries in flight and starts the write-back of cached entries. -/
  | watchDisable (src : Src) (p v : Nat)
  /-- WATCH_IDLE (R104): When the collector's write-back ends it sets IDLE. -/
  | watchIdle (p : Nat)
  /-- NIB_NOP (R114): A nib NOP descriptor completes with no effect. -/
  | nibNop (t : Nat)
  /-- NIB_MAP (R118): A MAP descriptor runs its program once per element and converts the results to its outputs. -/
  | nibMap (t : Nat)
  /-- NIB_REDUCE (R122): A REDUCE descriptor sums, squares or takes extrema along one axis by the segment rule. -/
  | nibReduce (t : Nat)
  /-- NIB_SOFTMAX (R123): A SOFTMAX descriptor computes the masked row-softmax and writes status bytes. -/
  | nibSoftmax (t : Nat)
  /-- NIB_COMPRESS (R125): A COMPRESS descriptor packs the elements whose predicate is true. -/
  | nibCompress (t : Nat)
  /-- NIB_EXPAND (R126): An EXPAND descriptor scatters packed elements to the predicate's true positions. -/
  | nibExpand (t : Nat)
  /-- NIB_MXPACK (R127): An MXPACK descriptor forms MX elements and E8M0 block scales. -/
  | nibMxpack (t : Nat)
  /-- NIB_MXUNPACK (R128): An MXUNPACK descriptor decodes MX elements with their block scales. -/
  | nibMxunpack (t : Nat)
  /-- NIB_ET5 (R130): An ET5 descriptor runs an ET-5 tile program over the locked window. -/
  | nibEt5 (t : Nat)
  /-- NIB_WAIT (R106): A WAIT descriptor stalls the nib ring until the named unit's DONE count reaches COUNT. -/
  | nibWait (t : Nat)
  /-- NIB_WAIT_MET (R106): When the awaited DONE count is reached, the stalled nib ring continues. -/
  | nibWaitMet (t : Nat)
  /-- NIB_POST (R106): A POST descriptor writes COUNT into another ring's TAIL once earlier nib work is visible. -/
  | nibPost (t : Nat)
  /-- MOVER_NOP (R112): A mover NOP descriptor completes with no effect. `n`: mover 0 or 1. -/
  | moverNop (t n : Nat)
  /-- MOVER_COPY (R112): A mover COPY copies a stream bit for bit between partition memory and the inkwell. `n`: mover; `errs`: lines that DRAM
  reads with an uncorrectable error, with the kind. -/
  | moverCopy (t n : Nat) (errs : List (Nat × Nat))
  /-- MOVER_WAIT (R112): A mover WAIT stalls the mover ring until another ring's DONE count is reached. `n`: mover. -/
  | moverWait (t n : Nat)
  /-- MOVER_WAIT_MET (R106): When the awaited count is reached, the stalled mover ring continues. `n`: mover. -/
  | moverWaitMet (t n : Nat)
  /-- BLOTTER_OPEN (R144): The blotter engine maps free blocks to a region's view and zeroes them. `r`: region. -/
  | blotterOpen (t r : Nat)
  /-- BLOTTER_SPILL (R144): The blotter engine writes a region to its BACKING and frees its blocks. `r`: region. -/
  | blotterSpill (t r : Nat)
  /-- BLOTTER_FILL (R144): The blotter engine maps blocks and reads a region back from BACKING. `r`: region. -/
  | blotterFill (t r : Nat)
  /-- BLOTTER_FOLD (R149): The blotter engine adds each fold source into the owning region in FOLD order and closes the sources. `r`: region. -/
  | blotterFold (t r : Nat)
  /-- BLOTTER_DRAIN (R155): The blotter engine converts a region to GFMT, writes it to DRAIN_DST and closes it. `r`: region. -/
  | blotterDrain (t r : Nat)
  /-- BLOTTER_CLOSE (R144): The blotter engine frees a region's blocks and unmaps its view. `r`: region. -/
  | blotterClose (t r : Nat)
  /-- BLOTTER_OP_COMPLETE (R144): A blotter engine operation finishes, and the engine takes the next one. -/
  | blotterOpComplete (t : Nat)
  /-- LIGATURE_UPDATE_START (R170): On notification that a tensor's reduction has landed, the ligature units update its shard line by line. `t`:
  tensor. -/
  | ligatureUpdateStart (p t : Nat)
  /-- NORM_EXCHANGE_ARRIVAL (R228): A peer's shard sum arrives; when all are in, SUMSQ and NORM are formed and clipped tensors start their
  updates. `m`: member; `t`: tensor; `v`: its shard sum, FP32 bits. -/
  | normExchangeArrival (p m t v : Nat)
  /-- STEP_COMMIT (R175): With the flag clear and every fast-tier tensor updated, the entries are committed, the journal emptied and LIG_STEP set. -/
  | stepCommit (p : Nat)
  /-- ROLLBACK_COMPLETE (R177): When every journal slot is restored, LIG_STEP becomes n, LIG_SKIPS counts and a step-skipped event is raised. -/
  | rollbackComplete (p : Nat)
  /-- SLOW_UPDATE_START (R179): After step j commits, the slow-tier update of step j starts from its record list. -/
  | slowUpdateStart (p : Nat)
  /-- SLOW_UPDATE_COMPLETE (R180): A slow-tier update completes or is discarded, and LIG_SLOW_DONE advances. -/
  | slowUpdateComplete (p : Nat)
  /-- TASK_FETCH (R186): The scheduler fetches a task descriptor from a command ring or the sequencer and checks it. -/
  | taskFetch (p : Nat)
  /-- MODEL_LOAD_COMPLETE (R201): A model's copy from host memory finishes and the model becomes resident. `m`: model. -/
  | modelLoadComplete (p m : Nat) (h : HostStores)
  /-- TASK_READY (R194): A task becomes ready once its last readiness condition is met. -/
  | taskReady (p a : Nat)
  /-- SCHEDULING_ROUND (R195): The scheduler processes completions, takes the highest ready task and places it or pre-empts. -/
  | schedulingRound (p : Nat)
  /-- PAGE_LOADS_COMPLETE (R191): When a tile's loads finish, the task word and ring registers are written and the rings enabled. -/
  | pageLoadsComplete (t : Nat)
  /-- EARLY_WAITS_MET (R197): A WAITING_REMOTE task's signal waits are met and its rings are written and enabled. -/
  | earlyWaitsMet (p a : Nat)
  /-- TASK_COMPLETE (R193): A task's rings all reach TAIL, it completes with a status, signals its counter and writes its record. -/
  | taskComplete (p a : Nat)
  /-- TILE_SPILL_COMPLETE (R206): A victim tile's state is in its spill slot, and the tile passes to the pre-empting task. -/
  | tileSpillComplete (t : Nat)
  /-- TILE_RESTORE (R207): Tiles returned to a spilled task begin restoring its state. -/
  | tileRestore (p a : Nat)
  /-- RESTORE_COMPLETE (R207): A restore finishes, and the task continues as if uninterrupted. -/
  | restoreComplete (t : Nat)
  /-- PAGE_IN_COMPLETE (R204): A paged-window page has been copied into a frame and is resident. `g`: page of the paged window. -/
  | pageInComplete (p g : Nat) (h : HostStores)
  /-- DEMAND_PAGE_FAULT (R204): An access to a non-resident page outside the touch list stalls its unit and pages in on demand. `g`: page of the
  paged window. -/
  | demandPageFault (p t g : Nat)
  /-- TASK_RETRY (R202): An IDEMPOTENT task that ended POISONED is retried once its line is rebuilt. -/
  | taskRetry (p a : Nat)
  /-- SIGNAL_COUNTER_WRITE (R188): A software write to SCH_SIGn sets the counter, before any increment of the same cycle. `n`: counter; `inc`: the
  increments of the same cycle. -/
  | signalCounterWrite (src : Src) (p n v inc : Nat)
  /-- SQ_JOIN (R212): Writing SCH_SQ_CTRL.JOIN sends the member's join record to every other member. -/
  | sqJoin (src : Src) (p v : Nat)
  /-- JOIN_RECORD_ARRIVAL (R212): A join record lands and is checked; when all have landed FORMED is set. `i`: the member whose record arrived. -/
  | joinRecordArrival (p i : Nat)
  /-- SQ_PLAN (R213): Writing PLAN computes the layer, head and expert division and writes the result. -/
  | sqPlan (src : Src) (p v : Nat)
  /-- SQ_ENABLE (R224): Writing ENABLE starts the sequencer after checking the header and zeroing both banks. -/
  | sqEnable (src : Src) (p v : Nat)
  /-- SQ_RESUME (R224): RESUME restarts the halted sequencer at the faulting entry. -/
  | sqResume (src : Src) (p v : Nat)
  /-- SQ_CANCEL (R234): CANCEL clears the pending epoch request. -/
  | sqCancel (src : Src) (p v : Nat)
  /-- EPOCH_REQUEST (R234): A write to SCH_SQ_NEXT requests or replaces a layout epoch switch. -/
  | epochRequest (src : Src) (p v : Nat)
  /-- SQ_TASK (R223): A TASK entry is released as a task built from its template. -/
  | sqTask (p : Nat)
  /-- SQ_XFER (R219): An XFER entry sends one Zheris message as its transfer descriptor gives. -/
  | sqXfer (p : Nat)
  /-- SQ_DRAIN (R218): A DRAIN entry issues a blotter DRAIN for each region of its template. -/
  | sqDrain (p : Nat)
  /-- SQ_FOLD (R218): A FOLD entry issues a blotter FOLD for each region of its template. -/
  | sqFold (p : Nat)
  /-- SQ_REDUCE (R226): A REDUCE entry sends the member's segments to their owners. -/
  | sqReduce (p : Nat)
  /-- SQ_CLOSE (R230): A CLOSE entry sends the frequency report and the close record to member 0. -/
  | sqClose (p : Nat)
  /-- SQ_MARK (R218): A MARK entry completes at once. -/
  | sqMark (p : Nat)
  /-- REDUCE_SEGMENT_ARRIVAL (R226): A contribution lands; when all have landed the owner sums its segment in position order and sends it to all.
  `n`: step; `i`: table entry; `j`: member. -/
  | reduceSegmentArrival (p n i j : Nat)
  /-- REDUCE_RESULT_ARRIVAL (R227): A reduced segment lands at GRAD_BASE; when all are present the REDUCE completes and the ligature units are
  notified. `n`: step; `i`: table entry; `j`: member. -/
  | reduceResultArrival (p n i j : Nat)
  /-- SLOW_RECORD_ARRIVAL (R229): A slow-tier gradient record list lands and is summed or combined by LINE. `n`: step; `i`: table entry; `j`:
  member; `sum`: a sum list, not a contribution; `recs`: the records. -/
  | slowRecordArrival (p n i j : Nat) (sum : Bool) (recs : List (List Byte))
  /-- FREQUENCY_REPORT_ARRIVAL (R395): A member's frequency report lands at member 0. `n`: step; `i`: member. -/
  | frequencyReportArrival (p n i : Nat)
  /-- CLOSE_RECORD_ARRIVAL (R230): A close record lands at member 0; after the last one, member 0 combines them and writes the decision and
  combined record. `n`: step; `i`: member. -/
  | closeRecordArrival (p n i : Nat)
  /-- COMBINED_RECORD_ARRIVAL (R230): The combined record of step n lands, carrying the global non-finite flag and watch items. -/
  | combinedRecordArrival (p : Nat)
  /-- STEP_END (R231): When every condition of step n holds, the sequencer enters step n + 1. -/
  | stepEnd (p : Nat)
  /-- MIGRATION_COMPLETE (R235): When every line of the new shards is present, the new table and epoch come into force. -/
  | migrationComplete (p : Nat)
  /-- SEQ_STALL (R233): With nothing releasable or running for 1 ms, STALLED is set. -/
  | seqStall (p : Nat)
  /-- PAL_ENABLE (R241): Setting PAL_CTRL.ENABLE seals the partition's shards and starts a reseed. -/
  | palEnable (src : Src) (p v : Nat)
  /-- SEAL_COMPLETE (R241): The sealing read of every shard ends, and DIGEST is copied into the V fields. -/
  | sealComplete (p : Nat)
  /-- PAL_RESEED (R258): A reseed sets every dirty bit, sends DESCRIBE records and restarts SEQ. -/
  | palReseed (src : Src) (p v : Nat)
  /-- DIGEST_MESSAGE_ARRIVAL (R244): A digest message lands; when all D are present every tensor is decided. `r`: replica; `step`: of its digests;
  `slow`: the slow tier. -/
  | digestMessageArrival (p r step : Nat) (slow : Bool)
  /-- REPAIR_REQUEST (R247): A request for a shard reaches the majority member or mirror, which sends REPAIR and ENTRY records. `slot`: mirror
  slot, or none at a replica; `conn`: connection; `t`: tensor; `whole`: the whole shard. -/
  | repairRequest (p : Nat) (slot : Option Nat) (conn t : Nat) (whole : Bool)
  /-- REPAIR_RECORD (R247): A REPAIR record is written in place through the ligature units. `r`: the 512-byte line record. -/
  | repairRecord (p : Nat) (r : List Byte)
  /-- STEP_VERIFIED (R245): When all tensors agree, scrubs agree and the mirror has the step, PAL_VERIFIED advances. `slow`: the slow tier. -/
  | stepVerified (p : Nat) (slow : Bool)
  /-- DIRTY_SCAN_SEND (R251): The streamer clears a set dirty bit, reads the line and sends it as a LINE record. `applied`: what the mirror has
  applied; `slots`: free slots of its log. -/
  | dirtyScanSend (p applied slots : Nat)
  /-- MIRROR_LINE (R256): A LINE record is checked and logged in a mirror slot. `n`: mirror slot; `r`: the record. -/
  | mirrorLine (p n : Nat) (r : List Byte)
  /-- MIRROR_DESCRIBE (R255): A DESCRIBE record fills the mirror's descriptor table. `n`: mirror slot; `r`: the record. -/
  | mirrorDescribe (p n : Nat) (r : List Byte)
  /-- MIRROR_ENTRY (R256): An ENTRY record's payload is logged for the descriptor table. `n`: mirror slot; `r`: the record. -/
  | mirrorEntry (p n : Nat) (r : List Byte)
  /-- MIRROR_COMMIT (R254): A COMMIT record marks the step at the mirror. `n`: mirror slot; `r`: the record. -/
  | mirrorCommit (p n : Nat) (r : List Byte)
  /-- MIRROR_VERIFY (R256): A VERIFY record is acknowledged and logged records begin to move into the base. `n`: mirror slot; `r`: the record. -/
  | mirrorVerify (p n : Nat) (r : List Byte)
  /-- LOG_MOVE_COMPLETE (R256): The move into the base ends, PAL_MSn_APPLIED advances and waiting repair requests are served. `n`: mirror slot. -/
  | logMoveComplete (p n : Nat)
  /-- MIGRATE_RECORD (R259): A MIGRATE record is placed by the receiver's new tensor table. `r`: the record. -/
  | migrateRecord (p : Nat) (r : List Byte)
  /-- LINE_REBUILD (R260): A lost ligature line is rebuilt from the mirror, a replica or the host copy. `a`: PMS address of the line; `mirror`,
  `replica`: the copies that arrive. -/
  | lineRebuild (p a : Nat) (mirror replica : Option (List Byte)) (h : HostStores)
  /-- TAKEOVER_NOTICE (R264): A TAKEOVER notice makes members assign the lost index to a spare, and the spare take that index. `note`: its 32
  bytes. -/
  | takeoverNotice (p : Nat) (note : List Byte)
  /-- SPARE_STATE_REQUEST (R265): A spare holding index i's tables fetches state from i's mirror, then seals and forces a skip. `conn`: the
  connection to the mirror. -/
  | spareStateRequest (p : Nat) (conn : Option Nat)
  /-- PATROL_SCRUB (R275): The patrol scrubber reads and corrects the next line of a channel. `err`: kind of error of the line read. -/
  | patrolScrub (c : Nat) (err : Option Nat)
  /-- UE_LIMIT_REACHED (R278): UE_LIMIT distinct uncorrectable lines within 1 s trigger a channel map-out. -/
  | ueLimitReached (c : Nat)
  /-- CHANNEL_TRAINING_LOSS (R278): A channel's PHY loses training and enters RETRAINING. -/
  | channelTrainingLoss (c : Nat)
  /-- RETRAIN_RESULT (R278): Retraining succeeds and the channel returns, or 100 µs expire and map-out is triggered. `ok`: the channel trained. -/
  | retrainResult (c : Nat) (ok : Bool)
  /-- HBM_MAPOUT (R278): A management write of HBM_MAPOUT.GO triggers map-out of a channel. -/
  | hbmMapout (src : Src) (v : Nat)
  /-- CHANNEL_MAP_OUT (R279): Map-out assigns homes, writes them as poisoned and flushes the channel's dirty LLC lines. -/
  | channelMapOut (c : Nat)
  /-- MAP_OUT_SWITCH (R279): When homes and LLC are done, SIZE falls, spilled tasks abort and the map-out event is raised. -/
  | mapOutSwitch
  /-- REKEY_PAGE (R286): The re-encrypter finishes a page under the owner's current key and changes its tag. `q`: page of the channel; `errs`:
  lines with an uncorrectable error. -/
  | rekeyPage (c q : Nat) (errs : List Nat)
  /-- RX_FRAME (R291): A received frame is checked, steered by the filters and delivered to a queue or dropped. `b`: the frame without its FCS;
  `fec`: its codewords, each with the number of symbols corrected, none where it could not be corrected; `fcs`, `merge`: a wrong FCS, a fragment error. -/
  | rxFrame (j k : Nat) (b : List Byte) (fec : List (Option Nat)) (fcs merge : Bool)
  /-- PAUSE_REFRESH (R296): While a count stays above XON, the pause is resent every half of its time. `q`: priority. -/
  | pauseRefresh (j k q : Nat)
  /-- PAUSE_FRAME_RECEIVED (R297): A received pause or PFC frame stops new frames of the named priorities for its time. `pfc`: a PFC frame;
  `times`: priority and time. -/
  | pauseFrameReceived (j k : Nat) (pfc : Bool) (times : List (Nat × Nat))
  /-- PAUSE_EXPIRY (R297): A received pause time runs out and the priority may send again. `q`: priority. -/
  | pauseExpiry (j k q : Nat)
  /-- LLDPDU_RECEIVED (R306): The LLDP agent stores the partner's LLDPDU and decodes its EEE and preemption fields. `pdu`: the LLDPDU; `eee`: the
  receive wake time of its EEE TLV; `pre`: the addFragSize of its preemption TLV, where one is there; `ttl`: its TTL. -/
  | lldpduReceived (j k : Nat) (pdu : List Byte) (eee pre : Option Nat) (ttl : Nat)
  /-- LLDP_TRANSMIT (R306): The LLDP agent sends an LLDPDU after link-up or a change, and then every 30 s. -/
  | lldpTransmit (j k : Nat)
  /-- LLDP_TTL_EXPIRY (R306): The partner's LLDP information expires, ending preemption and LPI entry. -/
  | lldpTtlExpiry (j k : Nat)
  /-- VERIFY_FRAME_RECEIVED (R299): A preemption verify or respond frame reaches the merge sublayer. `respond`: a respond frame. -/
  | verifyFrameReceived (j k : Nat) (respond : Bool)
  /-- PREEMPT_VERIFY_TIMEOUT (R299): The 10 ms verify time expires and verification retries or fails. -/
  | preemptVerifyTimeout (j k : Nat)
  /-- LINK_UP (R298): A sub-port's link comes up and sends XOFF for each priority at or above XOFF. `an`: auto-negotiation ran; `cable`: medium
  and reach of a passive cable. -/
  | linkUp (j k : Nat) (an : Bool) (cable : Option (Nat × Nat))
  /-- LINK_DOWN (R298): A sub-port's link goes down, clearing pause state and setting LINK_DOWN. -/
  | linkDown (j k : Nat)
  /-- LPI_ENTRY (R302): After IDLE_US with nothing to send, the transmit path enters LPI. -/
  | lpiEntry (j k : Nat)
  /-- LPI_EXIT (R302): A frame to send during LPI is sent after the transmit wake time. -/
  | lpiExit (j k : Nat)
  /-- MODULE_INSERTION (R304): A module is inserted and ETH_CABLE is filled, holding it in low power if over its limit. `medium`, `reach`,
  `power`: what its memory map states. -/
  | moduleInsertion (j medium reach power : Nat)
  /-- TX_RING_DOORBELL (R309): Advancing a raw transmit ring's TAIL queues frames for sending. -/
  | txRingDoorbell (src : Src) (j k v : Nat)
  /-- TX_FRAME_SENT (R309): A raw frame has been sent and HEAD advances. -/
  | txFrameSent (j k : Nat)
  /-- FILTER_WORD0_WRITE (R293): A write of filter word 0 applies the held words of the entry together. `e`: entry. -/
  | filterWord0Write (src : Src) (j e v : Nat)
  /-- RX_QUEUE_ENABLE (R294): Setting a queue's ENABLE starts acceptance and zeroes its SEQ. `q`: queue. -/
  | rxQueueEnable (src : Src) (j q v : Nat)
  /-- ZTX_SEND_REQUEST (R320): The engine takes a send descriptor from the partition's send ring or an internal client. `internal`: the device's
  own oldest message, not the partition's send ring. -/
  | ztxSendRequest (p : Nat) (internal : Bool)
  /-- DATA_PACKET (R324): An authenticated DATA segment is placed and its bit set, or discarded or dropped. `k`: the packet. -/
  | dataPacket (k : ZPkt)
  /-- ACK_PACKET (R327): An ACK updates RTT, loss detection and rate counters at the sender. `rtt`: the measured time in 10 ns. -/
  | ackPacket (k : ZPkt) (rtt : Nat)
  /-- PROBE_PACKET (R328): A PROBE makes the receiver send an ACK at once. `k`: the packet. -/
  | probePacket (k : ZPkt)
  /-- CLOSE_PACKET (R331): A received CLOSE closes the connection and completes its requests with PEER_CLOSED. `k`: the packet. -/
  | closePacket (k : ZPkt)
  /-- HELLO_PACKET (R316): A valid HELLO makes the responder derive keys, send HELLO_ACK and enter OPEN. `k`: the packet. -/
  | helloPacket (k : ZPkt)
  /-- HELLO_ACK_PACKET (R317): A valid HELLO_ACK makes the initiator derive keys and enter OPEN. `k`: the packet. -/
  | helloAckPacket (k : ZPkt)
  /-- HELLO_REPEAT (R317): In HELLO_SENT, HELLO is sent again every 1 ms. `n`: connection number. -/
  | helloRepeat (n : Nat)
  /-- SETUP_TIMEOUT (R317): SETUP time without HELLO_ACK closes the connection. `n`: connection number. -/
  | setupTimeout (n : Nat)
  /-- ZTX_OPEN (R318): OPEN checks the open descriptor, assigns a connection and starts setup. -/
  | ztxOpen (src : Src) (p : Nat)
  /-- ZTX_CLOSE (R331): CLOSE sends a CLOSE packet and enters CLOSED at once. -/
  | ztxClose (src : Src) (p : Nat)
  /-- CLOSE_REPEAT (R331): A CLOSE packet is repeated at RTO intervals up to three times. `n`: connection number. -/
  | closeRepeat (n : Nat)
  /-- ZTX_RELEASE (R331): RELEASE frees a CLOSED context and advances its generation. -/
  | ztxRelease (src : Src) (p : Nat)
  /-- ZTX_REBIND (R332): REBIND moves incomplete requests of an old connection to a new one and closes the old. -/
  | ztxRebind (src : Src) (p : Nat)
  /-- ZTX_QUERY (R319): QUERY returns a connection's state, residency, rate and pending requests. -/
  | ztxQuery (src : Src) (p : Nat)
  /-- RTO_EXPIRY (R327): A transmission's RTO expires; it is resent, RTO doubles and R halves. `n`: connection number; `pn`: the packet; `all`:
  every unacknowledged packet. -/
  | rtoExpiry (n pn : Nat) (all : Bool)
  /-- ACK_DELAY_EXPIRY (R328): ACK_DELAY after the first unacknowledged packet, the receiver sends an ACK. `n`: connection number. -/
  | ackDelayExpiry (n : Nat)
  /-- RATE_PERIOD (R329): Every CUT_US the sender updates its rate from the ECN fraction. `n`: connection number. -/
  | ratePeriod (n : Nat)
  /-- RATE_IDLE_RESET (R329): After 1 ms without data, R returns to RATE_MAX. `n`: connection number. -/
  | rateIdleReset (n : Nat)
  /-- KEEPALIVE_EXPIRY (R330): After KEEPALIVE without sending to a peer, a PROBE is sent. `id`: the peer's DEVICE_ID. -/
  | keepaliveExpiry (p id : Nat)
  /-- PEER_UNREACHABLE (R330): After UNREACH_MS with nothing from a peer, its connections enter UNREACHABLE and an event is raised. `id`: the
  peer's DEVICE_ID. -/
  | peerUnreachable (p id : Nat)
  /-- CONTEXT_FETCH_COMPLETE (R334): A context fetch from host memory completes and its queued packets are handled. `i`: context; `ok`: its seal
  verifies; `rtts`: round trips of the fetched packets. -/
  | contextFetchComplete (i : Nat) (ok : Bool) (rtts : List Nat)
  /-- CR_DOORBELL (R348): A write of TAIL to a command ring's doorbell starts fetching its slots. `r`: ring. -/
  | crDoorbell (src : Src) (p r v : Nat)
  /-- CMD_NOP (R350): A NOP command has no effect. `r`: ring. -/
  | cmdNop (p r : Nat) (h : HostStores)
  /-- CMD_TASK (R350): A TASK command hands one inline descriptor to the scheduler. `r`: ring. -/
  | cmdTask (p r : Nat) (h : HostStores)
  /-- CMD_TASK_REF (R350): A TASK_REF command hands COUNT descriptors read from partition memory, one per fetch turn. `r`: ring. -/
  | cmdTaskRef (p r : Nat) (h : HostStores)
  /-- CMD_WRITE (R350): A WRITE command writes its inline data at DEST under the window rules. `r`: ring. -/
  | cmdWrite (p r : Nat) (h : HostStores)
  /-- CMD_SIGNAL (R350): A SIGNAL command adds INC to a signal counter. `r`: ring. -/
  | cmdSignal (p r : Nat) (h : HostStores)
  /-- CMD_BIAS (R346): A BIAS command changes the bias of its pages one at a time. `r`: ring. -/
  | cmdBias (p r : Nat) (dirty h : HostStores)
  /-- SLOT_REREAD (R351): A mismatching slot is read again every 1 µs; after 64 µs the ring halts with a visibility fault. `r`: ring. -/
  | slotReread (p r : Nat) (h : HostStores)
  /-- CR_RESUME (R351): RESUME re-reads a halted command ring from HEAD. `r`: ring. -/
  | crResume (src : Src) (p r v : Nat)
  /-- BAR2_IO_READ (R342): A CXL.io read through BAR2 returns data, or poison for refused or poisoned lines. `fn`: function; `off`: window offset;
  `n`: bytes. -/
  | bar2IoRead (fn off n : Nat)
  /-- BAR2_IO_WRITE (R341): A CXL.io write through BAR2 is performed or discarded as a violation. `fn`: function; `off`: window offset; `bs`:
  data. -/
  | bar2IoWrite (fn off : Nat) (bs : List Byte)
  /-- CXL_MEM_READ (R345): A CXL.mem read returns MemData, or poison when bias or isolation refuses it. `off`: offset in function 0 memory; `n`:
  bytes. -/
  | cxlMemRead (off n : Nat)
  /-- CXL_MEM_WRITE (R345): A CXL.mem write is performed, or discarded when bias or isolation refuses it. `off`: offset in function 0 memory;
  `bs`: data. -/
  | cxlMemWrite (off : Nat) (bs : List Byte)
  /-- BIND_WRITE (R347): A write of HIF_BIND flips the old partition's SHARED pages to DEVICE and then rebinds. -/
  | bindWrite (src : Src) (v : Nat) (dirty : HostStores)
  /-- HOST_LOSS (R357): A link drop, PERST#, hot reset, FLR, Bus Master clear, CXL reset or unbinding makes partitions host-lost. `cause`: as
  R357; `fn`: the function, for causes 4 and 5. -/
  | hostLoss (cause fn : Nat)
  /-- FIRST_ATTACH (R357): After device reset a partition attaches by itself once its function, link and Bus Master Enable are up. `width`,
  `rate`: of the trained link. -/
  | firstAttach (p width rate : Nat)
  /-- ATTACH (R360): ATTACH re-attaches a host-lost partition, rewriting held records and resuming host traffic. `width`, `rate`: of the trained
  link; a width of 0 leaves the link as it is. -/
  | attach (src : Src) (p v width rate : Nat)
  /-- CPL_RECORD_WRITE (R354): A record waiting in the host-lost queue is written to the completion ring once an entry is free. -/
  | cplRecordWrite (p : Nat)
  /-- CPL_INTERRUPT (R355): The completion ring's MSI-X vector is sent, at most once per MOD_US. -/
  | cplInterrupt (p : Nat)
  /-- MONITOR_WINDOW_END (R364): At the end of each 100 µs window the monitor checks clock counts and decides failures or passes. `ref`, `rec_`:
  edges of REFCLK and of the recovered clock in the window. -/
  | monitorWindowEnd (ref rec_ : Nat)
  /-- MISSING_EDGE (R364): A clock with no edge for 640 ns fails at once. `c`: 0 REFCLK, 1 the recovered clock. -/
  | missingEdge (c : Nat)
  /-- PLL_RELOCK_COMPLETE (R366): The PLL locks to the new source, updates ACTIVE and clears HOLDOVER. -/
  | pllRelockComplete
  /-- CLK_DIV_WRITE (R369): An accepted write of CLK_DIV relocks the dividers, stopping derived clocks. -/
  | clkDivWrite (src : Src) (v : Nat)
  /-- DIVIDER_RELOCK_COMPLETE (R369): The dividers relock and waiting BAR0 accesses complete. -/
  | dividerRelockComplete
  /-- ARITH_K_STEP (R371): Every 0.5 µs the arithmetic k moves one step toward its target. -/
  | arithKStep
  /-- ARITH_LIMIT_WRITE (R372): A write of CLK_ARITH_LIMIT sets K_MIN and K_MAX and clamps the target. -/
  | arithLimitWrite (src : Src) (v : Nat)
  /-- CONTROLLER_TICK (R384): Every 1 µs the controller samples, forms the budget and sets each tile's m. `x`: what was measured. -/
  | controllerTick (x : Samp)
  /-- MODEL_CORRECTION (R388): Every 100 µs each phase entry is corrected against measured group power. -/
  | modelCorrection
  /-- THERMAL_READ (R391): Every 10 ms the hottest sensor moves the thermal cap by 25 W. `raw`: dies A and B, then stacks 0 to 7, untrimmed. -/
  | thermalRead (raw : List Nat)
  /-- TILE_FMAX_MEASURE (R392): A tile's maximum frequency is measured, lowering AGED and possibly marking it SLOW or FAILED. `mhz`: the measured
  maximum; none where the tile fails. -/
  | tileFmaxMeasure (t : Nat) (mhz : Option Nat)
  /-- K_PROP_PERIOD (R396): Every 10 ms partitions without a sequencer form K_PROP and the target is recomputed. -/
  | kPropPeriod
  /-- TILE_EXCHANGE_FOR_K (R396): Tiles below a raised target are exchanged for spares before the target applies. -/
  | tileExchangeForK (t : Nat)
  /-- PWR_CAP_WRITE (R381): A write of PWR_CAP.SUSTAINED_W changes the effective cap at the next tick. -/
  | pwrCapWrite (src : Src) (v : Nat)
  /-- FURL (R400): A write of PWR_FURL.FURL requests the furled state, or is refused with a code. -/
  | furl (src : Src) (v : Nat)
  /-- FURL_COMPLETE (R401): The LLC is flushed, clocks stop and stacks enter self-refresh; the device is furled. -/
  | furlComplete
  /-- PWR_WAKE (R402): A write of PWR_FURL.WAKE starts a wake from the furled state. -/
  | pwrWake (src : Src) (v : Nat)
  /-- WAKE_COMPLETE (R402): 1.5 ms after the first trigger the device is awake and pending accesses complete. -/
  | wakeComplete
  /-- READ_REG (R422): Jexrex READ_REG performs a BAR0 read. `off`: BAR0 offset; `w`: bytes. -/
  | readReg (x : Jex) (off w : Nat)
  /-- WRITE_REG (R423): Jexrex WRITE_REG performs a BAR0 write if the session's role suffices. `off`: BAR0 offset; `w`: bytes. -/
  | writeReg (x : Jex) (off w v : Nat)
  /-- SUBSCRIBE (R422): Jexrex SUBSCRIBE makes the session receive event frames. -/
  | subscribe (x : Jex)
  /-- GET_CERT (R416): Jexrex GET_CERT returns the stored device certificate. -/
  | getCert (x : Jex)
  /-- ATTEST (R417): Jexrex ATTEST returns a signed quote over the given nonce. `nonce`: 32 bytes. -/
  | attest (x : Jex) (nonce : List Byte)
  /-- LOG_READ (R422): Jexrex LOG_READ returns logbook records from a given SEQ. `from_`: SEQ. -/
  | logRead (x : Jex) (from_ : Nat)
  /-- LEDGER_READ (R446): Jexrex LEDGER_READ returns the newest snapshot or fault records. `from_`: SEQ of a fault record; none for the newest
  snapshot. -/
  | ledgerRead (x : Jex) (from_ : Option Nat)
  /-- LLDP_READ (R422): Jexrex LLDP_READ returns a sub-port's stored partner LLDPDU. -/
  | lldpRead (x : Jex) (j k : Nat)
  /-- WAKE (R402): Jexrex WAKE wakes the furled device. -/
  | wake (x : Jex)
  /-- FW_BEGIN (R413): FW_BEGIN opens a firmware staging buffer. `n`: LENGTH. -/
  | fwBegin (x : Jex) (n : Nat)
  /-- FW_CHUNK (R413): FW_CHUNK delivers staged firmware bytes at an offset. `o`: offset; `d`: bytes. -/
  | fwChunk (x : Jex) (o : Nat) (d : List Byte)
  /-- FW_END (R413): FW_END checks the staged image and writes it to the firmware area. `wrote`: the flash took
  the erase and the write; `flashOk`: the area reads back equal. -/
  | fwEnd (x : Jex) (wrote flashOk : Bool)
  /-- FW_BEGIN_TIMEOUT (R426): 60 s without a FW_CHUNK releases the firmware path. -/
  | fwBeginTimeout
  /-- FW_COMMIT (R411): FW_COMMIT blows floor fuses up to the running firmware's SVN. -/
  | fwCommit (x : Jex)
  /-- KEYSLOT_ENROLL (R414): KEYSLOT_ENROLL writes a public key into an EMPTY slot. `i`: slot; `key`: 57 bytes. -/
  | keyslotEnroll (x : Jex) (i : Nat) (key : List Byte)
  /-- KEYSLOT_REVOKE (R414): KEYSLOT_REVOKE moves an ENROLLED slot to REVOKED. `i`: slot; `force`: the FORCE flag. -/
  | keyslotRevoke (x : Jex) (i : Nat) (force : Bool)
  /-- CRED_ADD (R422): CRED_ADD adds a client credential with a role. `role`: 1 operator, 2 installer. -/
  | credAdd (x : Jex) (key : List Byte) (role : Nat) (name : List Byte)
  /-- CRED_REMOVE (R426): CRED_REMOVE removes a credential and closes sessions that use it. `i`: index. -/
  | credRemove (x : Jex) (i : Nat)
  /-- NET_CONFIG (R418): NET_CONFIG sets the management port's network settings. `b`: the settings. -/
  | netConfig (x : Jex) (b : List Byte)
  /-- TRIM_WRITE (R459): TRIM_WRITE checks and stores a user trim record for the next reset. `b`: the 512-byte record. -/
  | trimWrite (x : Jex) (b : List Byte)
  /-- ROOT_DISABLE (R407): ROOT_DISABLE retires a link root index and closes its connections. `i`: root index. -/
  | rootDisable (x : Jex) (i : Nat)
  /-- RESET (R426): Jexrex RESET performs a device reset after its response and logbook record. -/
  | reset (x : Jex)
  /-- MAKER_CHALLENGE (R425): MAKER_CHALLENGE returns a challenge for a function mask. `mask`: functions. -/
  | makerChallenge (x : Jex) (mask : Nat)
  /-- MAKER_UNLOCK (R425): MAKER_UNLOCK delivers Glalyn's signature and grants maker functions to the session. `sig`: the signature over the
  challenge. -/
  | makerUnlock (x : Jex) (sig : List Byte)
  /-- MAKER_FN (R425): MAKER_FN performs one granted maker function. `f`: function; `a`: its tile, channel, slot or index. -/
  | makerFn (x : Jex) (f a : Nat)
  /-- CHALLENGE_EXPIRY (R425): A maker challenge expires after 10 min. -/
  | challengeExpiry
  /-- MAKER_GRANT_EXPIRY (R425): A maker grant ends after 60 min. `n`: session. -/
  | makerGrantExpiry (n : Nat)
  /-- ENROLL_FIRST (R424): ENROLL_FIRST checks the setup code and enrols the first installer. `code`: as printed. -/
  | enrollFirst (x : Jex) (code : List Byte)
  /-- TLS_HANDSHAKE (R419): A TLS 1.3 handshake opens a Jexrex session or fails and is logged. `addr`: source address; `key`: the client's key;
  `ok`: the handshake keeps R419. -/
  | tlsHandshake (addr : Nat) (key : List Byte) (ok : Bool)
  /-- HANDSHAKE_LOCKOUT_EXPIRY (R419): A source address refused for repeated failures is accepted again after 60 s. `addr`: source address. -/
  | handshakeLockoutExpiry (addr : Nat)
  /-- SESSION_IDLE_TIMEOUT (R419): A session idle for 30 min is closed. `n`: session. -/
  | sessionIdleTimeout (n : Nat)
  /-- LOG_RECORD_CLOSE (R427): A shared operator record is closed one second after its first operation. -/
  | logRecordClose
  /-- OPERATOR_LOG_FLUSH (R428): Held operator records are written to flash within 1 s. -/
  | operatorLogFlush (ok : Bool)
  /-- ENTROPY_FAILURE (R408): The entropy source fails its health tests, setting RNG_FAULT and raising a device-fatal event. -/
  | entropyFailure
  /-- CONTROL_STORE_PARITY_ERROR (R440): A parity error in a control store starts the device-fatal sequence. -/
  | controlStoreParityError
  /-- EVENT_DELIVERY (R433): An event is written to partition rings and sent to management sessions, with interrupts. -/
  | eventDelivery
  /-- ADMIN_DISABLE_WRITE (R441): A write of EVT_ADMIN_ sets units disabled or enabled, raising a conflict for faulty units. `n`: EVT_ADMIN_TILEn,
  or 5 for EVT_ADMIN_UNIT. -/
  | adminDisableWrite (src : Src) (n v : Nat)
  /-- LEDGER_SNAPSHOT (R443): Every 15 min, or for a fact, furl or shutdown, a ledger snapshot is written. -/
  | ledgerSnapshot (ok : Bool)
  /-- LDG_SNAP (R443): Writing LDG_CTRL.SNAP writes a snapshot now. -/
  | ldgSnap (src : Src) (ok : Bool)
  /-- LEDGER_WRITE_RETRY (R443): A failed ledger write is retried every 15 s. -/
  | ledgerWriteRetry (ok : Bool)
  /-- VIN_RISE (R450): VIN passing 46.0 V releases undervoltage lockout and starts a power-on reset. -/
  | vinRise
  /-- VIN_FALL (R450): VIN below 44.0 V resets the module. -/
  | vinFall
  /-- VIN_OVERVOLTAGE (R450): VIN above 57.0 V turns every rail off and asserts FAULT_N. -/
  | vinOvervoltage
  /-- RAIL_FAULT (R451): A sense point out of tolerance for 50 µs turns rails off and records a fatal fault. `i`: sense point. -/
  | railFault (i : Nat)
  /-- THERMAL_TRIP (R455): A sensor at its fused trip threshold asserts THERMTRIP_N and turns rails off. -/
  | thermalTrip
  /-- SYS_RESET_ASSERT (R452): SYS_RESET_N held low starts a device reset. -/
  | sysResetAssert
  /-- DEVICE_RESET (R452): When the last reset source is released, every unit returns to reset and the boot starts. -/
  | deviceReset
  /-- BOOT_STAGE_COMPLETE (R461): A boot stage completes and the next begins, up to READY. `bad`: channels that fail training; `meas`: the
  maximum-frequency measurements. -/
  | bootStageComplete (bad : List Nat) (meas : List (Nat × Option Nat))
  /-- HOST_FUNCTIONS_PRESENT (R461): 80 ms after PWR_GOOD and PERST# release, the host interface presents its functions. -/
  | hostFunctionsPresent
  /-- SMB_STATUS (R456): SMBus STATUS returns the status byte and releases SMB_ALERT_N. -/
  | smbStatus
  /-- SMB_INPUT (R456): SMBus INPUT returns input voltage, current and power. -/
  | smbInput
  /-- SMB_TEMP (R456): SMBus TEMP returns the hottest temperatures and THROTTLE_C. -/
  | smbTemp
  /-- SMB_ENERGY (R456): SMBus ENERGY returns total energy in J. -/
  | smbEnergy
  /-- SMB_IDENTITY (R456): SMBus IDENTITY returns the identity registers and DEVICE_ID. -/
  | smbIdentity
  /-- PREPARE_OFF (R453): SMBus PREPARE_OFF starts an orderly shutdown. -/
  | prepareOff
  /-- READY_OFF (R453): When the snapshot and held records are written, READY_OFF is set. -/
  | readyOff
  /-- REGISTER_READ (R27): A host or firmware BAR0 read either returns the field values or gets a bus error that is recorded in GEN_BUSERR_STATUS,
  and a host access to a gated block while furled starts a wake. `off`: BAR0 offset; `width`: bytes. -/
  | registerRead (src : Src) (off width : Nat)
  /-- HDM_DECODER_COMMIT (R338): System software commits HDM decoder 0, after which function 0's BAR2 is served by CXL.mem and CXL.io requests to
  that range complete with Unsupported Request. -/
  | hdmDecoderCommit
  /-- TLS_SESSION_CLOSE (R425): A client closes its Jexrex TLS session, which ends any maker grant of that session and lowers SEC_STATUS.SESSIONS.
  `n`: session. -/
  | tlsSessionClose (n : Nat)
  /-- VIN_OVERVOLTAGE_CLEAR (R450): VIN falling back below 55.0 V after an overvoltage ends the rail-off state and the FAULT_N assertion. -/
  | vinOvervoltageClear
  deriving DecidableEq, Repr

end Sys2Proof
end

