-- ==== Sys2Proof/Machine/Bits.lean ====
section
/-!
DEFINITION. Bit fields, little-endian bytes (R8) and clamped values (R466), as plain arithmetic.
-/
namespace Sys2Proof.Machine

/-- `w` bits of `v` from bit `lo` up. -/
def bitsAt (v lo w : Nat) : Nat := v / 2 ^ lo % 2 ^ w

/-- One bit of `v`, as 0 or 1. -/
def bitAt (v i : Nat) : Nat := v / 2 ^ i % 2

/-- `v` with bit `i` set. -/
def setBit (v i : Nat) : Nat := if v.testBit i then v else v + 2 ^ i

/-- `v` with bit `i` cleared. -/
def clearBit (v i : Nat) : Nat := if v.testBit i then v - 2 ^ i else v

/-- The numbers of the set bits of a mask of `n` bits. -/
def bitsOf (mask n : Nat) : List Nat := (List.range n).filter (fun i => mask.testBit i)

/-- How many of the low `n` bits are set. -/
def popcount (mask n : Nat) : Nat := (bitsOf mask n).length

/-- A value outside `lo`–`hi` acts as the nearer limit (R466). -/
def clamp (lo hi v : Nat) : Nat := if v < lo then lo else if hi < v then hi else v

/-- Adds up to a largest value: counters that saturate. -/
def satAdd (w v d : Nat) : Nat := if v + d < 2 ^ w then v + d else 2 ^ w - 1

/-- 1 for true, 0 for false. -/
def b2n (b : Bool) : Nat := if b then 1 else 0

/-- `x` put into a list in order, before the elements it does not come after. -/
def insertBy {α : Type} (le : α → α → Bool) (x : α) : List α → List α
  | [] => [x]
  | y :: ys => if le x y then x :: y :: ys else y :: insertBy le x ys

/-- A list in ascending order; elements that tie keep their order. -/
def sortBy {α : Type} (le : α → α → Bool) (xs : List α) : List α := xs.foldr (insertBy le) []

/-- The byte with value `v mod 256`. -/
def byteOf (v : Nat) : Byte := BitVec.ofNat 8 v

/-- `n` bytes of `v`, lowest first (R8). -/
def leBytes : Nat → Nat → List Byte
  | 0, _ => []
  | n + 1, v => byteOf (v % 256) :: leBytes n (v / 256)

/-- The number a little-endian byte list spells (R8). -/
def leNat : List Byte → Nat
  | [] => 0
  | b :: bs => b.toNat + 256 * leNat bs

/-- `n` bytes from offset `o`; bytes past the end are 0. -/
def bytesAt (bs : List Byte) (o n : Nat) : List Byte :=
  let t := (bs.drop o).take n
  t ++ List.replicate (n - t.length) 0

/-- The little-endian number in `n` bytes from offset `o`. -/
def leAt (bs : List Byte) (o n : Nat) : Nat := leNat (bytesAt bs o n)

/-- Are the `n` bytes from offset `o` all zero? -/
def zeroAt (bs : List Byte) (o n : Nat) : Bool := (bytesAt bs o n).all (· == 0)

/-- `bs` with the bytes `new` written over it from offset `o`. -/
def patch (bs : List Byte) (o : Nat) (new : List Byte) : List Byte :=
  bs.take o ++ new ++ bs.drop (o + new.length)

/-- `⌈a / b⌉`. -/
def ceilDiv (a b : Nat) : Nat := (a + b - 1) / b

/-- A signed number of `w` bits in two's complement. -/
def toSigned (w v : Nat) : Int := if v % 2 ^ w < 2 ^ (w - 1) then (v % 2 ^ w : Nat) else (v % 2 ^ w : Nat) - (2 ^ w : Nat)

/-- The `w`-bit two's-complement pattern of an integer. -/
def ofSigned (w : Nat) (i : Int) : Nat := (i % (2 ^ w : Nat)).toNat

/-- How far index `a` is ahead of index `b`, for indices that wrap at 2^w. -/
def ahead (w a b : Nat) : Nat := (a + 2 ^ w - b % 2 ^ w) % 2 ^ w

/-- The first element of a list that a test accepts, its least by a key. -/
def minBy {α : Type} (key : α → Nat) : List α → Option α
  | [] => none
  | a :: l => match minBy key l with
    | none => some a
    | some b => if key b < key a then some b else some a

/-- The element with the largest key; the first of equals. -/
def maxBy {α : Type} (key : α → Nat) : List α → Option α
  | [] => none
  | a :: l => match maxBy key l with
    | none => some a
    | some b => if key a < key b then some b else some a

/-- The integer part of a square root, by bisection over 2^n. -/
def isqrtGo : Nat → Nat → Nat → Nat
  | 0, _, acc => acc
  | n + 1, v, acc => let t := acc + 2 ^ n; isqrtGo n v (if t * t ≤ v then t else acc)

/-- ⌊√v⌋. -/
def isqrt (v : Nat) : Nat := isqrtGo (v.log2 / 2 + 1) v 0

end Sys2Proof.Machine
end

