-- ==== Sys2Proof/Machine/Keccak.lean ====
section
/-!
DEFINITION. SHAKE256 (the spec names it in R35, R36, R238, R284 and elsewhere and takes it from its standard), over little-endian byte lists.
The 1,600 bits are one number: lane (x, y) stands at bit 64 (x + 5y), a row is 320 bits.
-/
namespace Sys2Proof.Machine

/-- How far the lane at place `i` is turned: six bits for each place. -/
def laneTurn (i : Nat) : Nat := bitsAt 0xEE3D0922153EDA6766B2835371AC91B73E040 (6 * i) 6

/-- What round `i` adds to lane (0, 0): seven bits a round, bit `j` of them standing at bit 2^j − 1. -/
def roundWord (i : Nat) : Nat :=
  let seven := bitsAt 0xE886C79CC5A452A7767BF4CD460EABE509FE178D01 (7 * i) 7
  (List.range 7).foldl (fun w j => w + bitAt seven j * 2 ^ (2 ^ j - 1)) 0

/-- The value `v` of one row in each of the five rows. -/
def everyRow (v : Nat) : Nat := v * ((2 ^ 1600 - 1) / (2 ^ 320 - 1))

/-- Every row turned by `k` lanes: place x takes the lane at x + k mod 5. -/
def turnRows (a k : Nat) : Nat :=
  let low := everyRow (2 ^ (64 * k) - 1)
  (a &&& low) * 2 ^ (64 * (5 - k)) + (a - (a &&& low)) / 2 ^ (64 * k)

/-- Every lane of one row turned left by one bit. -/
def turnBits (r : Nat) : Nat :=
  let top := r &&& (2 ^ 63 * ((2 ^ 320 - 1) / (2 ^ 64 - 1)))
  (r - top) * 2 + top / 2 ^ 63

/-- Every lane takes the column before its own and the one after it, turned by one bit. -/
def mixColumns (a : Nat) : Nat :=
  let c := (List.range 5).foldl (fun v y => v ^^^ bitsAt a (320 * y) 320) 0
  a ^^^ everyRow ((turnRows c 4 ^^^ turnBits (turnRows c 1)) % 2 ^ 320)

/-- Place (X, Y) takes the lane at (x, y) with x = (X + 3Y) mod 5 and y = X, turned as that place is. -/
def moveLanes (a : Nat) : Nat :=
  (List.range 25).foldl (fun v i =>
    let j := (i % 5 + 3 * (i / 5)) % 5 + 5 * (i % 5)
    let w := bitsAt a (64 * j) 64 * 2 ^ laneTurn j
    v + (w % 2 ^ 64 + w / 2 ^ 64) * 2 ^ (64 * i)) 0

/-- Every lane takes what the lane after it lacks of the second after it. -/
def bendRows (a : Nat) : Nat := a ^^^ ((2 ^ 1600 - 1 - turnRows a 1) &&& turnRows a 2)

/-- The 24 rounds. -/
def keccakF (a : Nat) : Nat := (List.range 24).foldl (fun a i => bendRows (moveLanes (mixColumns a)) ^^^ roundWord i) a

/-- The input with its padding: the domain bits, zeros, and the last bit of the last block. -/
def shakePad (m : List Byte) : List Byte :=
  let z := 135 - m.length % 136
  if z = 0 then m ++ [byteOf 0x9F] else m ++ [byteOf 0x1F] ++ List.replicate (z - 1) 0 ++ [byteOf 0x80]

/-- Blocks of 136 bytes taken in, one after the other. -/
def absorb : Nat → Nat → List Byte → Nat
  | 0, a, _ => a
  | n + 1, a, m => absorb n (keccakF (a ^^^ leNat (m.take 136))) (m.drop 136)

/-- Output bytes, 136 at a time. -/
def squeeze : Nat → Nat → List Byte
  | 0, _ => []
  | n + 1, a => leBytes 136 a ++ squeeze n (keccakF a)

/-- The first `n` bytes of SHAKE256 over `m`. -/
def shake256 (m : List Byte) (n : Nat) : List Byte :=
  let p := shakePad m
  (squeeze ((n + 135) / 136) (absorb (p.length / 136) 0 p)).take n

end Sys2Proof.Machine
end

