-- ==== Sys2Proof/Machine/Ed448.lean ====
section
/-!
DEFINITION. Ed448ph signatures (R36, R316, R410, R417, R425, which take them from RFC 8032), over little-endian byte lists. Points are projective:
(X, Y, Z) stands for (X / Z, Y / Z) on x² + y² = 1 + d x² y² over the field of `edP` elements.
-/
namespace Sys2Proof.Machine

/-- The field's size, the base point's order, and −d. -/
def edP : Nat := 2 ^ 448 - 2 ^ 224 - 1
def edL : Nat := 2 ^ 446 - 0x8335DC163BB124B65129C96FDE933D8D723A70AADC873D6D54A7BB0D
def edD : Nat := 39081

/-- The base point. -/
def edB : Nat × Nat × Nat :=
  (0x4F1970C66BED0DED221D15A622BF36DA9E146570470F1767EA6DE324A3D3A46412AE1AF72AB66511433B80E18B00938E2626A82BC70CC05E,
   0x693F46716EB6BC248876203756C9C7624BEA73736CA3984087789C1E05A0C2D73AD3FF1CE67C39C4FDBD132C4ED7C8AD9808795BF230FA14, 1)

/-- The sum of two points (RFC 8032, 5.2.4). −(C × D) × 39081 is the E of that text. -/
def edAdd (p q : Nat × Nat × Nat) : Nat × Nat × Nat :=
  let a := p.2.2 * q.2.2 % edP
  let b := a * a % edP
  let c := p.1 * q.1 % edP
  let d := p.2.1 * q.2.1 % edP
  let e := edD * (c * d % edP) % edP
  let f := b + e
  let g := b + edP - e
  let h := (p.1 + p.2.1) * (q.1 + q.2.1) % edP
  (a * f % edP * (h + 2 * edP - c - d) % edP, a * g % edP * (d + edP - c) % edP, f * g % edP)

/-- `k` times a point: the bits of `k`, the highest first. -/
def edMul (k : Nat) (p : Nat × Nat × Nat) : Nat × Nat × Nat :=
  (List.range 448).foldl (fun r i => let r := edAdd r r; if k.testBit (447 - i) then edAdd r p else r) (0, 1, 1)

/-- A power in the field. -/
def edPow (x k : Nat) : Nat :=
  (List.range 448).foldl (fun r i => let r := r * r % edP; if k.testBit (447 - i) then r * x % edP else r) 1

/-- Are two points the same? -/
def edSame (p q : Nat × Nat × Nat) : Bool := p.1 * q.2.2 % edP == q.1 * p.2.2 % edP && p.2.1 * q.2.2 % edP == q.2.1 * p.2.2 % edP

/-- The 57 bytes of a point: y, and the lowest bit of x above it. -/
def edBytes (p : Nat × Nat × Nat) : List Byte :=
  let w := edPow p.2.2 (edP - 2)
  leBytes 57 (p.2.1 * w % edP + p.1 * w % edP % 2 * 2 ^ 455)

/-- The point that 57 bytes stand for. -/
def edPoint (bs : List Byte) : Option (Nat × Nat × Nat) :=
  let n := leNat bs
  let y := n % 2 ^ 455
  let u := (y * y + edP - 1) % edP
  let v := (edP - edD * (y * y % edP) % edP + edP - 1) % edP
  let x := u * u % edP * u % edP * v % edP * edPow (u * u % edP * (u * u % edP) % edP * u % edP * v % edP * v % edP * v % edP) ((edP - 3) / 4) % edP
  if bs.length ≠ 57 ∨ edP ≤ y ∨ x * x % edP * v % edP ≠ u then none
  else if x % 2 = n / 2 ^ 455 then some (x, y, 1)
  else if x = 0 then none
  else some (edP - x, y, 1)

/-- The domain of Ed448ph with a context: "SigEd448", the flag 1, the context and its length. -/
def edDom (ctx : List Byte) : List Byte := [0x53, 0x69, 0x67, 0x45, 0x64, 0x34, 0x34, 0x38, 1] ++ leBytes 1 ctx.length ++ ctx

/-- A digest of 114 bytes as a scalar. -/
def edScalar (bs : List Byte) : Nat := leNat (shake256 bs 114) % edL

/-- Does `sig` verify over the prehash `ph` of a message, with its context, under a public key? -/
def edVerify (key ctx ph sig : List Byte) : Bool :=
  let r := bytesAt sig 0 57
  let n := leAt sig 57 57
  match edPoint key, edPoint r with
  | some a, some p =>
    sig.length == 114 && decide (n < edL) &&
      edSame (edMul (4 * n) edB) (edMul 4 (edAdd p (edMul (edScalar (edDom ctx ++ r ++ key ++ ph)) a)))
  | _, _ => false

/-- The secret scalar of a private key of 57 bytes: a digest with its two low bits and its highest byte cleared and bit 447 set. -/
def edSecret (priv : List Byte) : Nat := leAt (shake256 priv 114) 0 56 / 4 * 4 % 2 ^ 447 + 2 ^ 447

/-- The public key of a private key. -/
def edPublic (priv : List Byte) : List Byte := edBytes (edMul (edSecret priv) edB)

/-- The signature over the prehash `ph` of a message, with its context. -/
def edSign (priv ctx ph : List Byte) : List Byte :=
  let r := edScalar (edDom ctx ++ (shake256 priv 114).drop 57 ++ ph)
  let rb := edBytes (edMul r edB)
  rb ++ leBytes 57 ((r + edScalar (edDom ctx ++ rb ++ edPublic priv ++ ph) * edSecret priv) % edL)

end Sys2Proof.Machine
end

