-- ==== Sys2Proof/Config.lean ====
section
/-!
DEFINITION. The values the spec leaves to the implementation, as constants without a body: nothing can be proved of a particular value.
-/
namespace Sys2Proof

/-- The word that special-function operation `op` (0 EXP2, 1 LOG2, 2 RCP, 3 RSQ) gives for FP32 bits `a`, where R121 fixes it only to
within its bound (log entry 5). -/
opaque Config.sfu : Nat → Nat → BitVec 32

/-- A fresh value each time, by the counter State.freeN: nonces, keys, signatures and other bytes that only the security block's
generator or a private key determines (log entry 6). -/
opaque Config.fresh : Nat → BitVec 64

/-- CODE of an event of type `typ` where the spec gives its type no code (log entry 7). -/
opaque Config.evCode : Nat → BitVec 32

/-- DETAIL of an event of type `typ` where the spec gives it none (log entry 7). -/
opaque Config.evDetail : Nat → BitVec 64

/-- OP and STATUS of a logbook record that the device makes on its own, where R427 gives none: 0 a management conflict, 1 PREPARE_OFF, 2 a
rejected trim record, 3 a rejected stored image, 4 a failed handshake (log entry 7). -/
opaque Config.recOp : Nat → BitVec 16
opaque Config.recStatus : Nat → BitVec 16

/-- SOURCE of an isolation violation by a unit that R56 gives no code: 0 a scheduler, 1 a watch collector, 2 the event block, 3 a
palimpsest streamer, 4 a sequencer, 5 the power controller (log entry 8). -/
opaque Config.violSource : Nat → BitVec 8

/-- The fused voltage V(k) of a die, in 0.1 mV (R457, log entry 18). -/
opaque Config.vcore : Nat → Nat → Nat

/-- The fused default phase powers P_BASE and P_ISSUE, FP32 (R387, R457, log entry 18). -/
opaque Config.defBase : BitVec 32
opaque Config.defIssue : BitVec 32

/-- The fused idle power of a tile without a task, µW (R387, log entry 18). -/
opaque Config.idlePower : Nat → Nat

/-- The link root key of an index, which only the security block reads (R315, log entry 23). -/
opaque Config.rootKey : Nat → BitVec 256

/-- The memory key MK_i, fused and readable only by the security block (R284, log entry 156). -/
opaque Config.memoryKey : Nat → BitVec 256

/-- The eye height of a SerDes lane in mV, as measured at a time (R444, log entry 169). -/
opaque Config.eyeMv : Nat → Nat → BitVec 16

/-- The management port's network settings (R418): static addresses, DHCPv4, SLAAC, the 802.1Q tag, the TCP port that they name. -/
structure NetSet where
  ip4 : Option (BitVec 32)
  dhcp : Bool
  ip6 : Option (BitVec 128)
  slaac : Bool
  vlan : Option (BitVec 12)
  tcpPort : Option (BitVec 16)
  deriving DecidableEq, Repr, Inhabited

/-- The settings that the body of NET_CONFIG spells, to which the spec gives no layout (R418, log entry 208). -/
opaque Config.netSettings : List (BitVec 8) → NetSet

/-- FAB_VIOLATION_ADDR of a violation of KIND 0x3 at the die-to-die interface, which has no link number (R56, log entry 155). -/
opaque Config.d2dLink : BitVec 64

end Sys2Proof
end

