-- ==== Sys2Proof/Machine/FieldMap.lean ====
section
/-!
DEFINITION. Field maps as data (R9, R466): access types, the fields whose value the device derives from fuses, flash, the ledger or
other state (views), registers and their fields. A field is found by its register's BAR0 offset and its lowest bit.
-/
namespace Sys2Proof.Machine

/-- Access types of R9 (RSV fields are the bits no field covers). -/
inductive Acc where
  | ro | rw | w1c | wo
  deriving DecidableEq, Repr

/-- The fields that hold no value of their own: a read returns what the fuses, the flash, the ledger, the pins or another table say now. -/
inductive View where
  | GEN_DEVID_VARIANT
  | GEN_RESOURCES_HBM_SITES
  | GEN_RESOURCES_ETH_PORTS
  | GEN_RESOURCES_ACTIVE_TILES
  | GEN_TILE_FUSE_TILE (n x : Nat)
  | FAB_VERSION_FLOOR_FLOOR
  | FAB_SPARES_SLOW_B
  | FAB_SPARES_SLOW_A
  | FAB_SPARES_FAILED_B
  | FAB_SPARES_FAILED_A
  | FAB_SPARES_SPARE_B
  | FAB_SPARES_SPARE_A
  | FAB_TILE_ROLE_TILE (n x : Nat)
  | TIL_BL_STATUS_FREE_BLOCKS (t : Nat)
  | LIG_USTATUS_BUSY (u : Nat)
  | LIG_USTATUS_OP (u : Nat)
  | LIG_USTATUS_PARTITION (u : Nat)
  | SCH_PSTATUS_IDLE (p : Nat)
  | SCH_PSTATUS_HOTSET (p : Nat)
  | SCH_PSTATUS_TILES_FREE (p : Nat)
  | SCH_PSTATUS_RUNNING (p : Nat)
  | SCH_PSTATUS_SPILLED (p : Nat)
  | SCH_SPILL_SLOTS_USED (p : Nat)
  | SCH_SPILL_SLOTS_TOTAL (p : Nat)
  | SCH_TILE_STATE_STATE (i : Nat)
  | SCH_TILE_STATE_PARTITION (i : Nat)
  | SCH_TILE_STATE_LEVEL (i : Nat)
  | SCH_TILE_STATE_PHASE (i : Nat)
  | SCH_TILE_STATE_SLOT (i : Nat)
  | HBM_STACK_STATUS_IN_SERVICE (k : Nat)
  | HBM_REKEY_BUSY (k : Nat)
  | HBM_REKEY_PAGES_LEFT (k : Nat)
  | HBM_CH_STATUS_STATE (k n : Nat)
  | HBM_CH_STATUS_OWNER (k n : Nat)
  | HBM_CH_STATUS_SLOT (k n : Nat)
  | HBM_ERR_STATUS_OVERFLOW
  | HBM_PSPACE_SLOTS (p : Nat)
  | HBM_PSPACE_MAPPED_OUT (p : Nat)
  | HBM_PSPACE_SIZE_GIB (p : Nat)
  | HBM_KEYSTATE_CURRENT (o : Nat)
  | HBM_KEYSTATE_INUSE (o : Nat)
  | HBM_KEYSTATE_REMAINING (o : Nat)
  | ETH_STATUS_HELD (j : Nat)
  | ETH_MAC_ADDR (j k : Nat)
  | ZTX_MISSQ_USED
  | ZTX_P_CONNS_HELD (p : Nat)
  | ZTX_P_CONNS_RESIDENT (p : Nat)
  | HIF_P_STATUS_HALTED (p : Nat)
  | HIF_P_HLQ_CFG_USED (p : Nat)
  | PWR_K_K_TILES
  | PWR_K_K_DEV
  | PWR_TILE_FMAX_FUSED_MHZ (i : Nat)
  | PWR_TILE_FMAX_AGED_MHZ (i : Nat)
  | SEC_STATUS_SETUP_OPEN
  | SEC_STATUS_FW_KEY0_REVOKED
  | SEC_STATUS_SESSIONS
  | SEC_STATUS_KEYSLOTS
  | SEC_FW_SVN
  | SEC_FW_FLOOR
  | SEC_FW_VERSION_VERSION
  | SEC_DEVICE_ID_ID
  | SEC_CLUSTER_SET_ID
  | SEC_ROOT_EN_EN
  | SEC_BOOTS_COUNT
  | SEC_LOG_SEQ_SEQ
  | EVT_STATUS_RING_FULL
  | LDG_SNAP_SEQ_SEQ
  | LDG_FAULT_SEQ_SEQ
  | LDG_POWER_ON_SECONDS
  | LDG_THERMAL_CYCLES
  | LDG_THERMAL_PEAK_C
  | GEN_RESET_CAUSE_ORDERLY
  | GEN_RESET_CAUSE_THERMAL
  | GEN_RESET_CAUSE_RAIL
  | GEN_RESET_CAUSE_CAUSE
  | GEN_BOOT_ELAPSED_MS
  | GEN_PINS_PERST_N
  | LDG_STATUS_BUSY
  | GEN_PINS_SYS_RESET_N
  | GEN_PINS_SMB_ADDR
  | GEN_PINS_MOD_PRSNT
  deriving DecidableEq, Repr

/-- Where a field's value is: stored, with its reset value, or a view. -/
inductive FldSrc where
  | stored (reset : Nat)
  | view (v : View)
  deriving DecidableEq, Repr

/-- One field of a field map: the register's BAR0 offset, the lowest bit, the width, the access type and the source of its value. -/
structure Fld where
  off : Nat
  lo : Nat
  width : Nat
  acc : Acc
  src : FldSrc
  deriving DecidableEq, Repr

/-- One register: its BAR0 offset, its size in bytes (4, 8, or 16 for a filter entry) and its fields. -/
structure Reg where
  off : Nat
  bytes : Nat
  flds : List Fld
  deriving DecidableEq, Repr

end Sys2Proof.Machine
end

