-- ==== Sys2Proof/Machine/RegsFab.lean ====
section
/-!
DEFINITION. The field maps of the FAB_, HBM_, PWR_ registers, in the order of the spec's chapters, one definition per field and one per register.
-/
namespace Sys2Proof.Machine

def FAB_STATUS_LOADED : Fld := ⟨0x80000, 31, 1, .ro, .stored 0⟩
def FAB_STATUS_BUSY : Fld := ⟨0x80000, 30, 1, .ro, .stored 0⟩
def FAB_STATUS_STORED : Fld := ⟨0x80000, 29, 1, .ro, .stored 0⟩
def FAB_STATUS_REJECTED : Fld := ⟨0x80000, 28, 1, .w1c, .stored 0⟩
def FAB_STATUS_LOAD_PART : Fld := ⟨0x80000, 24, 4, .ro, .stored 0⟩
def FAB_STATUS_LOAD_MODE : Fld := ⟨0x80000, 22, 2, .ro, .stored 0⟩
def FAB_STATUS_NO_SECTION : Fld := ⟨0x80000, 21, 1, .ro, .stored 0⟩
/-- FAB_STATUS, field map of chapter 02: 4 bytes. -/
def FAB_STATUS : Reg := ⟨0x80000, 4, [FAB_STATUS_LOADED, FAB_STATUS_BUSY, FAB_STATUS_STORED, FAB_STATUS_REJECTED, FAB_STATUS_LOAD_PART, FAB_STATUS_LOAD_MODE, FAB_STATUS_NO_SECTION]⟩

def FAB_IMAGE_ID_ID : Fld := ⟨0x80008, 0, 64, .ro, .stored 0⟩
/-- FAB_IMAGE_ID, field map of chapter 02: 8 bytes. -/
def FAB_IMAGE_ID : Reg := ⟨0x80008, 8, [FAB_IMAGE_ID_ID]⟩

def FAB_IMAGE_VERSION_VERSION : Fld := ⟨0x80010, 0, 32, .ro, .stored 0⟩
/-- FAB_IMAGE_VERSION, field map of chapter 02: 4 bytes. -/
def FAB_IMAGE_VERSION : Reg := ⟨0x80010, 4, [FAB_IMAGE_VERSION_VERSION]⟩

def FAB_VERSION_FLOOR_FLOOR : Fld := ⟨0x80014, 0, 32, .ro, .view (.FAB_VERSION_FLOOR_FLOOR)⟩
/-- FAB_VERSION_FLOOR, field map of chapter 02: 4 bytes. -/
def FAB_VERSION_FLOOR : Reg := ⟨0x80014, 4, [FAB_VERSION_FLOOR_FLOOR]⟩

def FAB_REJECT_SECTION : Fld := ⟨0x80018, 16, 8, .ro, .stored 0⟩
def FAB_REJECT_CODE : Fld := ⟨0x80018, 0, 8, .ro, .stored 0⟩
/-- FAB_REJECT, field map of chapter 02: 4 bytes. -/
def FAB_REJECT : Reg := ⟨0x80018, 4, [FAB_REJECT_SECTION, FAB_REJECT_CODE]⟩

def FAB_PART_STATE_P (x : Nat) : Fld := ⟨0x8001C, 2 * x, 2, .ro, .stored 0⟩
/-- FAB_PART_STATE, field map of chapter 02: 4 bytes. -/
def FAB_PART_STATE : Reg := ⟨0x8001C, 4, (List.range 16).map (fun x => FAB_PART_STATE_P x)⟩

def FAB_RELOAD_TIMEOUT_MS : Fld := ⟨0x80020, 0, 14, .rw, .stored 100⟩
/-- FAB_RELOAD_TIMEOUT, field map of chapter 02: 4 bytes. -/
def FAB_RELOAD_TIMEOUT : Reg := ⟨0x80020, 4, [FAB_RELOAD_TIMEOUT_MS]⟩

def FAB_SPARES_SLOW_B : Fld := ⟨0x80028, 56, 7, .ro, .view (.FAB_SPARES_SLOW_B)⟩
def FAB_SPARES_SLOW_A : Fld := ⟨0x80028, 48, 7, .ro, .view (.FAB_SPARES_SLOW_A)⟩
def FAB_SPARES_FAILED_B : Fld := ⟨0x80028, 40, 7, .ro, .view (.FAB_SPARES_FAILED_B)⟩
def FAB_SPARES_FAILED_A : Fld := ⟨0x80028, 32, 7, .ro, .view (.FAB_SPARES_FAILED_A)⟩
def FAB_SPARES_SPARE_B : Fld := ⟨0x80028, 4, 4, .ro, .view (.FAB_SPARES_SPARE_B)⟩
def FAB_SPARES_SPARE_A : Fld := ⟨0x80028, 0, 4, .ro, .view (.FAB_SPARES_SPARE_A)⟩
/-- FAB_SPARES, field map of chapter 02: 8 bytes. -/
def FAB_SPARES : Reg := ⟨0x80028, 8, [FAB_SPARES_SLOW_B, FAB_SPARES_SLOW_A, FAB_SPARES_FAILED_B, FAB_SPARES_FAILED_A, FAB_SPARES_SPARE_B, FAB_SPARES_SPARE_A]⟩

def FAB_VIOLATION_STATUS_VALID : Fld := ⟨0x80030, 31, 1, .w1c, .stored 0⟩
def FAB_VIOLATION_STATUS_OVERFLOW : Fld := ⟨0x80030, 30, 1, .w1c, .stored 0⟩
def FAB_VIOLATION_STATUS_PARTITION : Fld := ⟨0x80030, 16, 4, .ro, .stored 0⟩
def FAB_VIOLATION_STATUS_KIND : Fld := ⟨0x80030, 12, 4, .ro, .stored 0⟩
def FAB_VIOLATION_STATUS_SOURCE : Fld := ⟨0x80030, 0, 8, .ro, .stored 0⟩
/-- FAB_VIOLATION_STATUS, field map of chapter 02: 4 bytes. -/
def FAB_VIOLATION_STATUS : Reg := ⟨0x80030, 4, [FAB_VIOLATION_STATUS_VALID, FAB_VIOLATION_STATUS_OVERFLOW, FAB_VIOLATION_STATUS_PARTITION, FAB_VIOLATION_STATUS_KIND, FAB_VIOLATION_STATUS_SOURCE]⟩

def FAB_VIOLATION_ADDR_ADDR : Fld := ⟨0x80038, 0, 64, .ro, .stored 0⟩
/-- FAB_VIOLATION_ADDR, field map of chapter 02: 8 bytes. -/
def FAB_VIOLATION_ADDR : Reg := ⟨0x80038, 8, [FAB_VIOLATION_ADDR_ADDR]⟩

def FAB_TILE_ROLE_TILE (n x : Nat) : Fld := ⟨0x80100 + 0x4 * n, 8 * x, 8, .ro, .view (.FAB_TILE_ROLE_TILE n x)⟩
/-- FAB_TILE_ROLE, field map of chapter 02: 4 bytes. -/
def FAB_TILE_ROLE (n : Nat) : Reg := ⟨0x80100 + 0x4 * n, 4, (List.range 4).map (fun x => FAB_TILE_ROLE_TILE n x)⟩

def HBM_STACK_STATUS_TRAINED (k : Nat) : Fld := ⟨0x200000 + 0x10000 * k, 31, 1, .ro, .stored 0⟩
def HBM_STACK_STATUS_SELF_REFRESH (k : Nat) : Fld := ⟨0x200000 + 0x10000 * k, 30, 1, .ro, .stored 0⟩
def HBM_STACK_STATUS_IN_SERVICE (k : Nat) : Fld := ⟨0x200000 + 0x10000 * k, 0, 6, .ro, .view (.HBM_STACK_STATUS_IN_SERVICE k)⟩
/-- HBM_STACK_STATUS, field map of chapter 11: 4 bytes. -/
def HBM_STACK_STATUS (k : Nat) : Reg := ⟨0x200000 + 0x10000 * k, 4, [HBM_STACK_STATUS_TRAINED k, HBM_STACK_STATUS_SELF_REFRESH k, HBM_STACK_STATUS_IN_SERVICE k]⟩

def HBM_REKEY_BUSY (k : Nat) : Fld := ⟨0x200010 + 0x10000 * k, 31, 1, .ro, .view (.HBM_REKEY_BUSY k)⟩
def HBM_REKEY_PAGES_LEFT (k : Nat) : Fld := ⟨0x200010 + 0x10000 * k, 0, 16, .ro, .view (.HBM_REKEY_PAGES_LEFT k)⟩
/-- HBM_REKEY, field map of chapter 11: 4 bytes. -/
def HBM_REKEY (k : Nat) : Reg := ⟨0x200010 + 0x10000 * k, 4, [HBM_REKEY_BUSY k, HBM_REKEY_PAGES_LEFT k]⟩

def HBM_CH_STATUS_STATE (k n : Nat) : Fld := ⟨0x200100 + 0x10000 * k + 0x4 * n, 29, 3, .ro, .view (.HBM_CH_STATUS_STATE k n)⟩
def HBM_CH_STATUS_OWNER (k n : Nat) : Fld := ⟨0x200100 + 0x10000 * k + 0x4 * n, 24, 5, .ro, .view (.HBM_CH_STATUS_OWNER k n)⟩
def HBM_CH_STATUS_SLOT (k n : Nat) : Fld := ⟨0x200100 + 0x10000 * k + 0x4 * n, 16, 8, .ro, .view (.HBM_CH_STATUS_SLOT k n)⟩
/-- HBM_CH_STATUS, field map of chapter 11: 4 bytes. -/
def HBM_CH_STATUS (k n : Nat) : Reg := ⟨0x200100 + 0x10000 * k + 0x4 * n, 4, [HBM_CH_STATUS_STATE k n, HBM_CH_STATUS_OWNER k n, HBM_CH_STATUS_SLOT k n]⟩

def HBM_CH_CE_COUNT (k n : Nat) : Fld := ⟨0x200180 + 0x10000 * k + 0x4 * n, 0, 32, .ro, .stored 0⟩
/-- HBM_CH_CE, field map of chapter 11: 4 bytes. -/
def HBM_CH_CE (k n : Nat) : Reg := ⟨0x200180 + 0x10000 * k + 0x4 * n, 4, [HBM_CH_CE_COUNT k n]⟩

def HBM_CH_UE_COUNT (k n : Nat) : Fld := ⟨0x200200 + 0x10000 * k + 0x4 * n, 0, 32, .ro, .stored 0⟩
/-- HBM_CH_UE, field map of chapter 11: 4 bytes. -/
def HBM_CH_UE (k n : Nat) : Reg := ⟨0x200200 + 0x10000 * k + 0x4 * n, 4, [HBM_CH_UE_COUNT k n]⟩

def HBM_CTRL_SCRUB_HOURS : Fld := ⟨0x280000, 16, 8, .rw, .stored 24⟩
def HBM_CTRL_UE_LIMIT : Fld := ⟨0x280000, 8, 8, .rw, .stored 4⟩
def HBM_CTRL_REKEY_SHARE : Fld := ⟨0x280000, 4, 4, .rw, .stored 1⟩
/-- HBM_CTRL, field map of chapter 11: 4 bytes. -/
def HBM_CTRL : Reg := ⟨0x280000, 4, [HBM_CTRL_SCRUB_HOURS, HBM_CTRL_UE_LIMIT, HBM_CTRL_REKEY_SHARE]⟩

def HBM_MAPOUT_GO : Fld := ⟨0x280004, 31, 1, .wo, .stored 0⟩
def HBM_MAPOUT_CHANNEL : Fld := ⟨0x280004, 0, 8, .wo, .stored 0⟩
/-- HBM_MAPOUT, field map of chapter 11: 4 bytes. -/
def HBM_MAPOUT : Reg := ⟨0x280004, 4, [HBM_MAPOUT_GO, HBM_MAPOUT_CHANNEL]⟩

def HBM_LLC_ECC_CORRECTED : Fld := ⟨0x280008, 16, 16, .ro, .stored 0⟩
def HBM_LLC_ECC_DOUBLE : Fld := ⟨0x280008, 0, 16, .ro, .stored 0⟩
/-- HBM_LLC_ECC, field map of chapter 11: 4 bytes. -/
def HBM_LLC_ECC : Reg := ⟨0x280008, 4, [HBM_LLC_ECC_CORRECTED, HBM_LLC_ECC_DOUBLE]⟩

def HBM_ERR_STATUS_FIRST_VALID : Fld := ⟨0x280010, 31, 1, .w1c, .stored 0⟩
def HBM_ERR_STATUS_NEXT_VALID : Fld := ⟨0x280010, 30, 1, .w1c, .stored 0⟩
def HBM_ERR_STATUS_OVERFLOW : Fld := ⟨0x280010, 16, 8, .ro, .view (.HBM_ERR_STATUS_OVERFLOW)⟩
def HBM_ERR_STATUS_FIRST_KIND : Fld := ⟨0x280010, 12, 4, .ro, .stored 0⟩
def HBM_ERR_STATUS_NEXT_KIND : Fld := ⟨0x280010, 8, 4, .ro, .stored 0⟩
/-- HBM_ERR_STATUS, field map of chapter 11: 4 bytes. -/
def HBM_ERR_STATUS : Reg := ⟨0x280010, 4, [HBM_ERR_STATUS_FIRST_VALID, HBM_ERR_STATUS_NEXT_VALID, HBM_ERR_STATUS_OVERFLOW, HBM_ERR_STATUS_FIRST_KIND, HBM_ERR_STATUS_NEXT_KIND]⟩

def HBM_ERR_FIRST_DPA : Fld := ⟨0x280018, 0, 39, .ro, .stored 0⟩
/-- HBM_ERR_FIRST, field map of chapter 11: 8 bytes. -/
def HBM_ERR_FIRST : Reg := ⟨0x280018, 8, [HBM_ERR_FIRST_DPA]⟩

def HBM_ERR_NEXT_DPA : Fld := ⟨0x280020, 0, 39, .ro, .stored 0⟩
/-- HBM_ERR_NEXT, field map of chapter 11: 8 bytes. -/
def HBM_ERR_NEXT : Reg := ⟨0x280020, 8, [HBM_ERR_NEXT_DPA]⟩

def HBM_PSPACE_SLOTS (p : Nat) : Fld := ⟨0x280100 + 0x8 * p, 40, 8, .ro, .view (.HBM_PSPACE_SLOTS p)⟩
def HBM_PSPACE_MAPPED_OUT (p : Nat) : Fld := ⟨0x280100 + 0x8 * p, 32, 8, .ro, .view (.HBM_PSPACE_MAPPED_OUT p)⟩
def HBM_PSPACE_SIZE_GIB (p : Nat) : Fld := ⟨0x280100 + 0x8 * p, 0, 16, .ro, .view (.HBM_PSPACE_SIZE_GIB p)⟩
/-- HBM_PSPACE, field map of chapter 11: 8 bytes. -/
def HBM_PSPACE (p : Nat) : Reg := ⟨0x280100 + 0x8 * p, 8, [HBM_PSPACE_SLOTS p, HBM_PSPACE_MAPPED_OUT p, HBM_PSPACE_SIZE_GIB p]⟩

def HBM_KEYSTATE_CURRENT (o : Nat) : Fld := ⟨0x280200 + 0x4 * o, 29, 3, .ro, .view (.HBM_KEYSTATE_CURRENT o)⟩
def HBM_KEYSTATE_INUSE (o : Nat) : Fld := ⟨0x280200 + 0x4 * o, 20, 8, .ro, .view (.HBM_KEYSTATE_INUSE o)⟩
def HBM_KEYSTATE_REMAINING (o : Nat) : Fld := ⟨0x280200 + 0x4 * o, 0, 19, .ro, .view (.HBM_KEYSTATE_REMAINING o)⟩
/-- HBM_KEYSTATE, field map of chapter 11: 4 bytes. -/
def HBM_KEYSTATE (o : Nat) : Reg := ⟨0x280200 + 0x4 * o, 4, [HBM_KEYSTATE_CURRENT o, HBM_KEYSTATE_INUSE o, HBM_KEYSTATE_REMAINING o]⟩

def HBM_LLC_STAT_MISSES (p : Nat) : Fld := ⟨0x280300 + 0x8 * p, 32, 32, .ro, .stored 0⟩
def HBM_LLC_STAT_HITS (p : Nat) : Fld := ⟨0x280300 + 0x8 * p, 0, 32, .ro, .stored 0⟩
/-- HBM_LLC_STAT, field map of chapter 11: 8 bytes. -/
def HBM_LLC_STAT (p : Nat) : Reg := ⟨0x280300 + 0x8 * p, 8, [HBM_LLC_STAT_MISSES p, HBM_LLC_STAT_HITS p]⟩

def PWR_STATUS_LIMITED : Fld := ⟨0x20000, 31, 1, .ro, .stored 0⟩
def PWR_STATUS_THROTTLING : Fld := ⟨0x20000, 30, 1, .ro, .stored 0⟩
def PWR_STATUS_TAPERING : Fld := ⟨0x20000, 29, 1, .ro, .stored 0⟩
def PWR_STATUS_OVER : Fld := ⟨0x20000, 28, 1, .w1c, .stored 0⟩
def PWR_STATUS_OVER_MAX : Fld := ⟨0x20000, 27, 1, .w1c, .stored 0⟩
def PWR_STATUS_EXCEEDED : Fld := ⟨0x20000, 26, 1, .w1c, .stored 0⟩
/-- PWR_STATUS, field map of chapter 16: 4 bytes. -/
def PWR_STATUS : Reg := ⟨0x20000, 4, [PWR_STATUS_LIMITED, PWR_STATUS_THROTTLING, PWR_STATUS_TAPERING, PWR_STATUS_OVER, PWR_STATUS_OVER_MAX, PWR_STATUS_EXCEEDED]⟩

def PWR_CAP_EFFECTIVE_W : Fld := ⟨0x20004, 16, 16, .ro, .stored 0x76c⟩
def PWR_CAP_SUSTAINED_W : Fld := ⟨0x20004, 0, 16, .rw, .stored 0x76c⟩
/-- PWR_CAP, field map of chapter 16: 4 bytes. -/
def PWR_CAP : Reg := ⟨0x20004, 4, [PWR_CAP_EFFECTIVE_W, PWR_CAP_SUSTAINED_W]⟩

def PWR_CTRL_GUARD_W : Fld := ⟨0x20008, 24, 8, .rw, .stored 20⟩
def PWR_CTRL_TAPER_US : Fld := ⟨0x20008, 0, 10, .rw, .stored 200⟩
/-- PWR_CTRL, field map of chapter 16: 4 bytes. -/
def PWR_CTRL : Reg := ⟨0x20008, 4, [PWR_CTRL_GUARD_W, PWR_CTRL_TAPER_US]⟩

def PWR_SLEW_MA_PER_US : Fld := ⟨0x2000C, 0, 16, .rw, .stored 0x190⟩
/-- PWR_SLEW, field map of chapter 16: 4 bytes. -/
def PWR_SLEW : Reg := ⟨0x2000C, 4, [PWR_SLEW_MA_PER_US]⟩

def PWR_INPUT_VOLT : Fld := ⟨0x20010, 16, 16, .ro, .stored 0⟩
def PWR_INPUT_POWER_W : Fld := ⟨0x20010, 0, 16, .ro, .stored 0⟩
/-- PWR_INPUT, field map of chapter 16: 4 bytes. -/
def PWR_INPUT : Reg := ⟨0x20010, 4, [PWR_INPUT_VOLT, PWR_INPUT_POWER_W]⟩

def PWR_BUDGET_BUDGET_W : Fld := ⟨0x20014, 16, 16, .ro, .stored 0⟩
def PWR_BUDGET_NONISSUE_W : Fld := ⟨0x20014, 0, 16, .ro, .stored 0⟩
/-- PWR_BUDGET, field map of chapter 16: 4 bytes. -/
def PWR_BUDGET : Reg := ⟨0x20014, 4, [PWR_BUDGET_BUDGET_W, PWR_BUDGET_NONISSUE_W]⟩

def PWR_WIN_LIMIT_W (n : Nat) : Fld := ⟨0x20018 + 0x4 * n, 16, 16, .ro, .stored (if n = 0 then 2300 else if n = 1 then 2100 else 1900)⟩
def PWR_WIN_AVG_W (n : Nat) : Fld := ⟨0x20018 + 0x4 * n, 0, 16, .ro, .stored 0⟩
/-- PWR_WIN, field map of chapter 16: 4 bytes. -/
def PWR_WIN (n : Nat) : Reg := ⟨0x20018 + 0x4 * n, 4, [PWR_WIN_LIMIT_W n, PWR_WIN_AVG_W n]⟩

def PWR_THERM_THROTTLE_C : Fld := ⟨0x20024, 24, 8, .rw, .stored 95⟩
def PWR_THERM_HOTTEST_C : Fld := ⟨0x20024, 16, 8, .ro, .stored 0⟩
def PWR_THERM_THERM_CAP_W : Fld := ⟨0x20024, 0, 16, .ro, .stored 0x76c⟩
/-- PWR_THERM, field map of chapter 16: 4 bytes. -/
def PWR_THERM : Reg := ⟨0x20024, 4, [PWR_THERM_THROTTLE_C, PWR_THERM_HOTTEST_C, PWR_THERM_THERM_CAP_W]⟩

def PWR_K_K_TILES : Fld := ⟨0x20028, 24, 7, .ro, .view (.PWR_K_K_TILES)⟩
def PWR_K_K_DEV : Fld := ⟨0x20028, 16, 7, .ro, .view (.PWR_K_K_DEV)⟩
/-- PWR_K, field map of chapter 16: 4 bytes. -/
def PWR_K : Reg := ⟨0x20028, 4, [PWR_K_K_TILES, PWR_K_K_DEV]⟩

def PWR_AGREE_CFG_M_HIGH : Fld := ⟨0x2002C, 8, 7, .rw, .stored 52⟩
def PWR_AGREE_CFG_M_LOW : Fld := ⟨0x2002C, 0, 7, .rw, .stored 48⟩
/-- PWR_AGREE_CFG, field map of chapter 16: 4 bytes. -/
def PWR_AGREE_CFG : Reg := ⟨0x2002C, 4, [PWR_AGREE_CFG_M_HIGH, PWR_AGREE_CFG_M_LOW]⟩

def PWR_FURL_FURL : Fld := ⟨0x20030, 31, 1, .wo, .stored 0⟩
def PWR_FURL_WAKE : Fld := ⟨0x20030, 30, 1, .wo, .stored 0⟩
def PWR_FURL_STATE : Fld := ⟨0x20030, 28, 2, .ro, .stored 0⟩
def PWR_FURL_REFUSE : Fld := ⟨0x20030, 0, 8, .ro, .stored 0⟩
/-- PWR_FURL, field map of chapter 16: 4 bytes. -/
def PWR_FURL : Reg := ⟨0x20030, 4, [PWR_FURL_FURL, PWR_FURL_WAKE, PWR_FURL_STATE, PWR_FURL_REFUSE]⟩

def PWR_ENERGY_TOTAL_UJ : Fld := ⟨0x20038, 0, 64, .ro, .stored 0⟩
/-- PWR_ENERGY_TOTAL, field map of chapter 16: 8 bytes. -/
def PWR_ENERGY_TOTAL : Reg := ⟨0x20038, 8, [PWR_ENERGY_TOTAL_UJ]⟩

def PWR_ENERGY_UNATTRIB_UJ : Fld := ⟨0x20040, 0, 64, .ro, .stored 0⟩
/-- PWR_ENERGY_UNATTRIB, field map of chapter 16: 8 bytes. -/
def PWR_ENERGY_UNATTRIB : Reg := ⟨0x20040, 8, [PWR_ENERGY_UNATTRIB_UJ]⟩

def PWR_P_SHARE_M (p : Nat) : Fld := ⟨0x21000 + 0x40 * p, 24, 7, .ro, .stored 64⟩
def PWR_P_SHARE_SHARE_W (p : Nat) : Fld := ⟨0x21000 + 0x40 * p, 0, 16, .ro, .stored 0⟩
/-- PWR_P_SHARE, field map of chapter 16: 4 bytes. -/
def PWR_P_SHARE (p : Nat) : Reg := ⟨0x21000 + 0x40 * p, 4, [PWR_P_SHARE_M p, PWR_P_SHARE_SHARE_W p]⟩

def PWR_P_AGREE_CAPPED (p : Nat) : Fld := ⟨0x21004 + 0x40 * p, 31, 1, .ro, .stored 0⟩
def PWR_P_AGREE_K_PROP (p : Nat) : Fld := ⟨0x21004 + 0x40 * p, 24, 7, .ro, .stored 64⟩
def PWR_P_AGREE_K_AGREED (p : Nat) : Fld := ⟨0x21004 + 0x40 * p, 16, 7, .ro, .stored 64⟩
/-- PWR_P_AGREE, field map of chapter 16: 4 bytes. -/
def PWR_P_AGREE (p : Nat) : Reg := ⟨0x21004 + 0x40 * p, 4, [PWR_P_AGREE_CAPPED p, PWR_P_AGREE_K_PROP p, PWR_P_AGREE_K_AGREED p]⟩

def PWR_P_AGREE_BASE_BASE (p : Nat) : Fld := ⟨0x21008 + 0x40 * p, 9, 55, .rw, .stored 0⟩
/-- PWR_P_AGREE_BASE, field map of chapter 16: 8 bytes. -/
def PWR_P_AGREE_BASE (p : Nat) : Reg := ⟨0x21008 + 0x40 * p, 8, [PWR_P_AGREE_BASE_BASE p]⟩

def PWR_P_PHASE_BASE_BASE (p : Nat) : Fld := ⟨0x21010 + 0x40 * p, 11, 53, .rw, .stored 0⟩
/-- PWR_P_PHASE_BASE, field map of chapter 16: 8 bytes. -/
def PWR_P_PHASE_BASE (p : Nat) : Reg := ⟨0x21010 + 0x40 * p, 8, [PWR_P_PHASE_BASE_BASE p]⟩

def PWR_P_ENERGY_UJ (p : Nat) : Fld := ⟨0x21018 + 0x40 * p, 0, 64, .ro, .stored 0⟩
/-- PWR_P_ENERGY, field map of chapter 16: 8 bytes. -/
def PWR_P_ENERGY (p : Nat) : Reg := ⟨0x21018 + 0x40 * p, 8, [PWR_P_ENERGY_UJ p]⟩

def PWR_P_STEP_ENERGY_UJ (p : Nat) : Fld := ⟨0x21020 + 0x40 * p, 0, 64, .ro, .stored 0⟩
/-- PWR_P_STEP_ENERGY, field map of chapter 16: 8 bytes. -/
def PWR_P_STEP_ENERGY (p : Nat) : Reg := ⟨0x21020 + 0x40 * p, 8, [PWR_P_STEP_ENERGY_UJ p]⟩

def PWR_P_STEP_NUM_STEP (p : Nat) : Fld := ⟨0x21028 + 0x40 * p, 0, 32, .ro, .stored 0⟩
/-- PWR_P_STEP_NUM, field map of chapter 16: 4 bytes. -/
def PWR_P_STEP_NUM (p : Nat) : Reg := ⟨0x21028 + 0x40 * p, 4, [PWR_P_STEP_NUM_STEP p]⟩

def PWR_P_POWER_POWER_W (p : Nat) : Fld := ⟨0x2102C + 0x40 * p, 0, 16, .ro, .stored 0⟩
/-- PWR_P_POWER, field map of chapter 16: 4 bytes. -/
def PWR_P_POWER (p : Nat) : Reg := ⟨0x2102C + 0x40 * p, 4, [PWR_P_POWER_POWER_W p]⟩

def PWR_TILE_FMAX_FUSED_MHZ (i : Nat) : Fld := ⟨0x22000 + 0x4 * i, 16, 16, .ro, .view (.PWR_TILE_FMAX_FUSED_MHZ i)⟩
def PWR_TILE_FMAX_AGED_MHZ (i : Nat) : Fld := ⟨0x22000 + 0x4 * i, 0, 16, .ro, .view (.PWR_TILE_FMAX_AGED_MHZ i)⟩
/-- PWR_TILE_FMAX, field map of chapter 16: 4 bytes. -/
def PWR_TILE_FMAX (i : Nat) : Reg := ⟨0x22000 + 0x4 * i, 4, [PWR_TILE_FMAX_FUSED_MHZ i, PWR_TILE_FMAX_AGED_MHZ i]⟩

def PWR_SENSE_MILLIVOLT (i : Nat) : Fld := ⟨0x23000 + 0x4 * i, 16, 16, .ro, .stored 0⟩
def PWR_SENSE_CENTIAMP (i : Nat) : Fld := ⟨0x23000 + 0x4 * i, 0, 16, .ro, .stored 0⟩
/-- PWR_SENSE, field map of chapter 19: 4 bytes. -/
def PWR_SENSE (i : Nat) : Reg := ⟨0x23000 + 0x4 * i, 4, [PWR_SENSE_MILLIVOLT i, PWR_SENSE_CENTIAMP i]⟩

def PWR_INPUT_CURRENT_CENTIAMP : Fld := ⟨0x23080, 0, 16, .ro, .stored 0⟩
/-- PWR_INPUT_CURRENT, field map of chapter 19: 4 bytes. -/
def PWR_INPUT_CURRENT : Reg := ⟨0x23080, 4, [PWR_INPUT_CURRENT_CENTIAMP]⟩

end Sys2Proof.Machine
end

