-- ==== Sys2Proof/Machine/RegsGen.lean ====
section
/-!
DEFINITION. The field maps of the GEN_, CLK_, EVT_, LDG_, SEC_ registers, in the order of the spec's chapters, one definition per field and one per register.
-/
namespace Sys2Proof.Machine

def GEN_DEVID_PART : Fld := ⟨0x0, 16, 16, .ro, .stored 0xe09⟩
def GEN_DEVID_VARIANT : Fld := ⟨0x0, 8, 8, .ro, .view (.GEN_DEVID_VARIANT)⟩
/-- GEN_DEVID, field map of chapter 00: 4 bytes. -/
def GEN_DEVID : Reg := ⟨0x0, 4, [GEN_DEVID_PART, GEN_DEVID_VARIANT]⟩

def GEN_REVISION_MAJOR_STEP : Fld := ⟨0x4, 16, 8, .ro, .stored 2⟩
def GEN_REVISION_MINOR_STEP : Fld := ⟨0x4, 8, 8, .ro, .stored 0⟩
def GEN_REVISION_ROM_VERSION : Fld := ⟨0x4, 0, 8, .ro, .stored 1⟩
/-- GEN_REVISION, field map of chapter 00: 4 bytes. -/
def GEN_REVISION : Reg := ⟨0x4, 4, [GEN_REVISION_MAJOR_STEP, GEN_REVISION_MINOR_STEP, GEN_REVISION_ROM_VERSION]⟩

def GEN_RESOURCES_HBM_SITES : Fld := ⟨0x8, 24, 8, .ro, .view (.GEN_RESOURCES_HBM_SITES)⟩
def GEN_RESOURCES_ETH_PORTS : Fld := ⟨0x8, 8, 16, .ro, .view (.GEN_RESOURCES_ETH_PORTS)⟩
def GEN_RESOURCES_ACTIVE_TILES : Fld := ⟨0x8, 0, 8, .ro, .view (.GEN_RESOURCES_ACTIVE_TILES)⟩
/-- GEN_RESOURCES, field map of chapter 00: 4 bytes. -/
def GEN_RESOURCES : Reg := ⟨0x8, 4, [GEN_RESOURCES_HBM_SITES, GEN_RESOURCES_ETH_PORTS, GEN_RESOURCES_ACTIVE_TILES]⟩

def GEN_TILE_FUSE_TILE (n x : Nat) : Fld := ⟨0x40 + 0x4 * n, 2 * x, 2, .ro, .view (.GEN_TILE_FUSE_TILE n x)⟩
/-- GEN_TILE_FUSE, field map of chapter 01: 4 bytes. -/
def GEN_TILE_FUSE (n : Nat) : Reg := ⟨0x40 + 0x4 * n, 4, (List.range 16).map (fun x => GEN_TILE_FUSE_TILE n x)⟩

def GEN_BUSERR_STATUS_VALID : Fld := ⟨0x20, 31, 1, .w1c, .stored 0⟩
def GEN_BUSERR_STATUS_OVERFLOW : Fld := ⟨0x20, 30, 1, .w1c, .stored 0⟩
def GEN_BUSERR_STATUS_COUNT : Fld := ⟨0x20, 16, 8, .ro, .stored 0⟩
def GEN_BUSERR_STATUS_CAUSE : Fld := ⟨0x20, 8, 4, .ro, .stored 0⟩
def GEN_BUSERR_STATUS_SOURCE : Fld := ⟨0x20, 4, 2, .ro, .stored 0⟩
def GEN_BUSERR_STATUS_WRITE : Fld := ⟨0x20, 0, 1, .ro, .stored 0⟩
/-- GEN_BUSERR_STATUS, field map of chapter 01: 4 bytes. -/
def GEN_BUSERR_STATUS : Reg := ⟨0x20, 4, [GEN_BUSERR_STATUS_VALID, GEN_BUSERR_STATUS_OVERFLOW, GEN_BUSERR_STATUS_COUNT, GEN_BUSERR_STATUS_CAUSE, GEN_BUSERR_STATUS_SOURCE, GEN_BUSERR_STATUS_WRITE]⟩

def GEN_BUSERR_ADDR_OFFSET : Fld := ⟨0x24, 0, 25, .ro, .stored 0⟩
/-- GEN_BUSERR_ADDR, field map of chapter 01: 4 bytes. -/
def GEN_BUSERR_ADDR : Reg := ⟨0x24, 4, [GEN_BUSERR_ADDR_OFFSET]⟩

def CLK_SRC_ACTIVE : Fld := ⟨0x10000, 30, 2, .ro, .stored 2⟩
def CLK_SRC_HOLDOVER : Fld := ⟨0x10000, 29, 1, .ro, .stored 0⟩
def CLK_SRC_REVERT : Fld := ⟨0x10000, 11, 1, .rw, .stored 1⟩
def CLK_SRC_RECOV_EN : Fld := ⟨0x10000, 10, 1, .rw, .stored 0⟩
def CLK_SRC_RECOV_PORT : Fld := ⟨0x10000, 4, 4, .rw, .stored 0⟩
/-- CLK_SRC, field map of chapter 15: 4 bytes. -/
def CLK_SRC : Reg := ⟨0x10000, 4, [CLK_SRC_ACTIVE, CLK_SRC_HOLDOVER, CLK_SRC_REVERT, CLK_SRC_RECOV_EN, CLK_SRC_RECOV_PORT]⟩

def CLK_MON_STATUS_REF_OK : Fld := ⟨0x10004, 31, 1, .ro, .stored 0⟩
def CLK_MON_STATUS_RECOV_OK : Fld := ⟨0x10004, 30, 1, .ro, .stored 0⟩
def CLK_MON_STATUS_REF_FAIL : Fld := ⟨0x10004, 29, 1, .w1c, .stored 0⟩
def CLK_MON_STATUS_RECOV_FAIL : Fld := ⟨0x10004, 28, 1, .w1c, .stored 0⟩
def CLK_MON_STATUS_OSC_FAIL : Fld := ⟨0x10004, 27, 1, .w1c, .stored 0⟩
def CLK_MON_STATUS_REF_COUNT : Fld := ⟨0x10004, 0, 16, .ro, .stored 0⟩
/-- CLK_MON_STATUS, field map of chapter 15: 4 bytes. -/
def CLK_MON_STATUS : Reg := ⟨0x10004, 4, [CLK_MON_STATUS_REF_OK, CLK_MON_STATUS_RECOV_OK, CLK_MON_STATUS_REF_FAIL, CLK_MON_STATUS_RECOV_FAIL, CLK_MON_STATUS_OSC_FAIL, CLK_MON_STATUS_REF_COUNT]⟩

def CLK_MON_CFG_RECOVER_WINDOWS : Fld := ⟨0x10008, 16, 8, .rw, .stored 10⟩
def CLK_MON_CFG_TOL : Fld := ⟨0x10008, 0, 8, .rw, .stored 16⟩
/-- CLK_MON_CFG, field map of chapter 15: 4 bytes. -/
def CLK_MON_CFG : Reg := ⟨0x10008, 4, [CLK_MON_CFG_RECOVER_WINDOWS, CLK_MON_CFG_TOL]⟩

def CLK_PLL_STATUS_LOCKED : Fld := ⟨0x1000C, 31, 1, .ro, .stored 0⟩
def CLK_PLL_STATUS_SWITCHES : Fld := ⟨0x1000C, 0, 16, .ro, .stored 0⟩
/-- CLK_PLL_STATUS, field map of chapter 15: 4 bytes. -/
def CLK_PLL_STATUS : Reg := ⟨0x1000C, 4, [CLK_PLL_STATUS_LOCKED, CLK_PLL_STATUS_SWITCHES]⟩

def CLK_ARITH_TARGET : Fld := ⟨0x10010, 16, 7, .ro, .stored 64⟩
def CLK_ARITH_K : Fld := ⟨0x10010, 0, 7, .ro, .stored 64⟩
/-- CLK_ARITH, field map of chapter 15: 4 bytes. -/
def CLK_ARITH : Reg := ⟨0x10010, 4, [CLK_ARITH_TARGET, CLK_ARITH_K]⟩

def CLK_ARITH_LIMIT_K_MAX : Fld := ⟨0x10014, 16, 7, .rw, .stored 70⟩
def CLK_ARITH_LIMIT_K_MIN : Fld := ⟨0x10014, 0, 7, .rw, .stored 43⟩
/-- CLK_ARITH_LIMIT, field map of chapter 15: 4 bytes. -/
def CLK_ARITH_LIMIT : Reg := ⟨0x10014, 4, [CLK_ARITH_LIMIT_K_MAX, CLK_ARITH_LIMIT_K_MIN]⟩

def CLK_DIV_MGMT : Fld := ⟨0x10018, 24, 8, .ro, .stored 48⟩
def CLK_DIV_PERIPH : Fld := ⟨0x10018, 16, 8, .rw, .stored 16⟩
def CLK_DIV_MEM : Fld := ⟨0x10018, 8, 8, .rw, .stored 6⟩
def CLK_DIV_FABRIC : Fld := ⟨0x10018, 0, 8, .rw, .stored 4⟩
/-- CLK_DIV, field map of chapter 15: 4 bytes. -/
def CLK_DIV : Reg := ⟨0x10018, 4, [CLK_DIV_MGMT, CLK_DIV_PERIPH, CLK_DIV_MEM, CLK_DIV_FABRIC]⟩

def CLK_EN_EN (n : Nat) : Fld := ⟨0x10020 + 0x4 * n, 0, 32, .rw, .stored 0⟩
/-- CLK_EN, field map of chapter 15: 4 bytes. -/
def CLK_EN (n : Nat) : Reg := ⟨0x10020 + 0x4 * n, 4, [CLK_EN_EN n]⟩

def CLK_LOCK_LOCK (n : Nat) : Fld := ⟨0x10028 + 0x4 * n, 0, 32, .ro, .stored 0⟩
/-- CLK_LOCK, field map of chapter 15: 4 bytes. -/
def CLK_LOCK (n : Nat) : Reg := ⟨0x10028 + 0x4 * n, 4, [CLK_LOCK_LOCK n]⟩

def CLK_TILE_EN_EN (n : Nat) : Fld := ⟨0x10040 + 0x4 * n, 0, 32, .ro, .stored 0⟩
/-- CLK_TILE_EN, field map of chapter 15: 4 bytes. -/
def CLK_TILE_EN (n : Nat) : Reg := ⟨0x10040 + 0x4 * n, 4, [CLK_TILE_EN_EN n]⟩

def SEC_STATUS_FW_VALID : Fld := ⟨0x30000, 31, 1, .ro, .stored 0⟩
def SEC_STATUS_RECOVERY : Fld := ⟨0x30000, 30, 1, .ro, .stored 0⟩
def SEC_STATUS_MAKER_ACTIVE : Fld := ⟨0x30000, 29, 1, .ro, .stored 0⟩
def SEC_STATUS_SETUP_OPEN : Fld := ⟨0x30000, 28, 1, .ro, .view (.SEC_STATUS_SETUP_OPEN)⟩
def SEC_STATUS_SETUP_LOCKED : Fld := ⟨0x30000, 27, 1, .ro, .stored 0⟩
def SEC_STATUS_LOG_FAULT : Fld := ⟨0x30000, 26, 1, .ro, .stored 0⟩
def SEC_STATUS_FW_PENDING : Fld := ⟨0x30000, 25, 1, .ro, .stored 0⟩
def SEC_STATUS_FW_KEY0_REVOKED : Fld := ⟨0x30000, 24, 1, .ro, .view (.SEC_STATUS_FW_KEY0_REVOKED)⟩
def SEC_STATUS_RNG_FAULT : Fld := ⟨0x30000, 23, 1, .ro, .stored 0⟩
def SEC_STATUS_SESSIONS : Fld := ⟨0x30000, 8, 4, .ro, .view (.SEC_STATUS_SESSIONS)⟩
def SEC_STATUS_KEYSLOTS : Fld := ⟨0x30000, 0, 8, .ro, .view (.SEC_STATUS_KEYSLOTS)⟩
/-- SEC_STATUS, field map of chapter 17: 4 bytes. -/
def SEC_STATUS : Reg := ⟨0x30000, 4, [SEC_STATUS_FW_VALID, SEC_STATUS_RECOVERY, SEC_STATUS_MAKER_ACTIVE, SEC_STATUS_SETUP_OPEN, SEC_STATUS_SETUP_LOCKED, SEC_STATUS_LOG_FAULT, SEC_STATUS_FW_PENDING, SEC_STATUS_FW_KEY0_REVOKED, SEC_STATUS_RNG_FAULT, SEC_STATUS_SESSIONS, SEC_STATUS_KEYSLOTS]⟩

def SEC_FW_SVN : Fld := ⟨0x30004, 24, 8, .ro, .view (.SEC_FW_SVN)⟩
def SEC_FW_FLOOR : Fld := ⟨0x30004, 16, 8, .ro, .view (.SEC_FW_FLOOR)⟩
/-- SEC_FW, field map of chapter 17: 4 bytes. -/
def SEC_FW : Reg := ⟨0x30004, 4, [SEC_FW_SVN, SEC_FW_FLOOR]⟩

def SEC_FW_VERSION_VERSION : Fld := ⟨0x30008, 0, 32, .ro, .view (.SEC_FW_VERSION_VERSION)⟩
/-- SEC_FW_VERSION, field map of chapter 17: 4 bytes. -/
def SEC_FW_VERSION : Reg := ⟨0x30008, 4, [SEC_FW_VERSION_VERSION]⟩

def SEC_DEVICE_ID_ID : Fld := ⟨0x30010, 0, 64, .ro, .view (.SEC_DEVICE_ID_ID)⟩
/-- SEC_DEVICE_ID, field map of chapter 17: 8 bytes. -/
def SEC_DEVICE_ID : Reg := ⟨0x30010, 8, [SEC_DEVICE_ID_ID]⟩

def SEC_CLUSTER_SET_ID : Fld := ⟨0x30018, 0, 64, .ro, .view (.SEC_CLUSTER_SET_ID)⟩
/-- SEC_CLUSTER_SET, field map of chapter 17: 8 bytes. -/
def SEC_CLUSTER_SET : Reg := ⟨0x30018, 8, [SEC_CLUSTER_SET_ID]⟩

def SEC_ROOT_EN_EN : Fld := ⟨0x30020, 0, 8, .ro, .view (.SEC_ROOT_EN_EN)⟩
/-- SEC_ROOT_EN, field map of chapter 17: 4 bytes. -/
def SEC_ROOT_EN : Reg := ⟨0x30020, 4, [SEC_ROOT_EN_EN]⟩

def SEC_BOOTS_COUNT : Fld := ⟨0x30024, 0, 32, .ro, .view (.SEC_BOOTS_COUNT)⟩
/-- SEC_BOOTS, field map of chapter 17: 4 bytes. -/
def SEC_BOOTS : Reg := ⟨0x30024, 4, [SEC_BOOTS_COUNT]⟩

def SEC_LOG_SEQ_SEQ : Fld := ⟨0x30028, 0, 64, .ro, .view (.SEC_LOG_SEQ_SEQ)⟩
/-- SEC_LOG_SEQ, field map of chapter 17: 8 bytes. -/
def SEC_LOG_SEQ : Reg := ⟨0x30028, 8, [SEC_LOG_SEQ_SEQ]⟩

def SEC_AUTH_FAIL_COUNT : Fld := ⟨0x30030, 0, 32, .ro, .stored 0⟩
/-- SEC_AUTH_FAIL, field map of chapter 17: 4 bytes. -/
def SEC_AUTH_FAIL : Reg := ⟨0x30030, 4, [SEC_AUTH_FAIL_COUNT]⟩

def EVT_STATUS_FATAL : Fld := ⟨0x40000, 31, 1, .ro, .stored 0⟩
def EVT_STATUS_RING_FULL : Fld := ⟨0x40000, 0, 16, .ro, .view (.EVT_STATUS_RING_FULL)⟩
/-- EVT_STATUS, field map of chapter 18: 4 bytes. -/
def EVT_STATUS : Reg := ⟨0x40000, 4, [EVT_STATUS_FATAL, EVT_STATUS_RING_FULL]⟩

def EVT_MGMT_CFG_MIN_SEV : Fld := ⟨0x40004, 0, 3, .rw, .stored 1⟩
/-- EVT_MGMT_CFG, field map of chapter 18: 4 bytes. -/
def EVT_MGMT_CFG : Reg := ⟨0x40004, 4, [EVT_MGMT_CFG_MIN_SEV]⟩

def EVT_FATAL_VALID : Fld := ⟨0x40008, 31, 1, .ro, .stored 0⟩
def EVT_FATAL_CAUSE : Fld := ⟨0x40008, 0, 4, .ro, .stored 0⟩
/-- EVT_FATAL, field map of chapter 18: 4 bytes. -/
def EVT_FATAL : Reg := ⟨0x40008, 4, [EVT_FATAL_VALID, EVT_FATAL_CAUSE]⟩

def EVT_SEV_COUNT_COUNT (s : Nat) : Fld := ⟨0x40010 + 0x4 * s, 0, 32, .ro, .stored 0⟩
/-- EVT_SEV_COUNT, field map of chapter 18: 4 bytes. -/
def EVT_SEV_COUNT (s : Nat) : Reg := ⟨0x40010 + 0x4 * s, 4, [EVT_SEV_COUNT_COUNT s]⟩

def EVT_ADMIN_TILE_DISABLE (n : Nat) : Fld := ⟨0x40040 + 0x4 * n, 0, 32, .rw, .stored 0⟩
/-- EVT_ADMIN_TILE, field map of chapter 18: 4 bytes. -/
def EVT_ADMIN_TILE (n : Nat) : Reg := ⟨0x40040 + 0x4 * n, 4, [EVT_ADMIN_TILE_DISABLE n]⟩

def EVT_ADMIN_UNIT_PORT_DISABLE : Fld := ⟨0x40054, 8, 16, .rw, .stored 0⟩
def EVT_ADMIN_UNIT_LIG_DISABLE : Fld := ⟨0x40054, 0, 8, .rw, .stored 0⟩
/-- EVT_ADMIN_UNIT, field map of chapter 18: 4 bytes. -/
def EVT_ADMIN_UNIT : Reg := ⟨0x40054, 4, [EVT_ADMIN_UNIT_PORT_DISABLE, EVT_ADMIN_UNIT_LIG_DISABLE]⟩

def EVT_P_CFG_ENABLE (p : Nat) : Fld := ⟨0x40400 + 0x40 * p, 31, 1, .rw, .stored 0⟩
def EVT_P_CFG_IRQ (p : Nat) : Fld := ⟨0x40400 + 0x40 * p, 30, 1, .rw, .stored 0⟩
def EVT_P_CFG_VECTOR (p : Nat) : Fld := ⟨0x40400 + 0x40 * p, 11, 5, .rw, .stored 0⟩
def EVT_P_CFG_MIN_SEV (p : Nat) : Fld := ⟨0x40400 + 0x40 * p, 8, 3, .rw, .stored 2⟩
def EVT_P_CFG_SIZE_LOG2 (p : Nat) : Fld := ⟨0x40400 + 0x40 * p, 0, 4, .rw, .stored 8⟩
/-- EVT_P_CFG, field map of chapter 18: 4 bytes. -/
def EVT_P_CFG (p : Nat) : Reg := ⟨0x40400 + 0x40 * p, 4, [EVT_P_CFG_ENABLE p, EVT_P_CFG_IRQ p, EVT_P_CFG_VECTOR p, EVT_P_CFG_MIN_SEV p, EVT_P_CFG_SIZE_LOG2 p]⟩

def EVT_P_STATUS_RING_FULL (p : Nat) : Fld := ⟨0x40404 + 0x40 * p, 31, 1, .w1c, .stored 0⟩
def EVT_P_STATUS_NMI_PENDING (p : Nat) : Fld := ⟨0x40404 + 0x40 * p, 30, 1, .w1c, .stored 0⟩
/-- EVT_P_STATUS, field map of chapter 18: 4 bytes. -/
def EVT_P_STATUS (p : Nat) : Reg := ⟨0x40404 + 0x40 * p, 4, [EVT_P_STATUS_RING_FULL p, EVT_P_STATUS_NMI_PENDING p]⟩

def EVT_P_RING_BASE_BASE (p : Nat) : Fld := ⟨0x40408 + 0x40 * p, 5, 59, .rw, .stored 0⟩
/-- EVT_P_RING_BASE, field map of chapter 18: 8 bytes. -/
def EVT_P_RING_BASE (p : Nat) : Reg := ⟨0x40408 + 0x40 * p, 8, [EVT_P_RING_BASE_BASE p]⟩

def EVT_P_PTR_HEAD (p : Nat) : Fld := ⟨0x40410 + 0x40 * p, 16, 16, .ro, .stored 0⟩
def EVT_P_PTR_TAIL (p : Nat) : Fld := ⟨0x40410 + 0x40 * p, 0, 16, .rw, .stored 0⟩
/-- EVT_P_PTR, field map of chapter 18: 4 bytes. -/
def EVT_P_PTR (p : Nat) : Reg := ⟨0x40410 + 0x40 * p, 4, [EVT_P_PTR_HEAD p, EVT_P_PTR_TAIL p]⟩

def EVT_P_LOST_COUNT (p : Nat) : Fld := ⟨0x40414 + 0x40 * p, 0, 32, .ro, .stored 0⟩
/-- EVT_P_LOST, field map of chapter 18: 4 bytes. -/
def EVT_P_LOST (p : Nat) : Reg := ⟨0x40414 + 0x40 * p, 4, [EVT_P_LOST_COUNT p]⟩

def EVT_P_PENNANT_CONN_CONN (p : Nat) : Fld := ⟨0x40418 + 0x40 * p, 0, 32, .rw, .stored 0xffffffff⟩
/-- EVT_P_PENNANT_CONN, field map of chapter 18: 4 bytes. -/
def EVT_P_PENNANT_CONN (p : Nat) : Reg := ⟨0x40418 + 0x40 * p, 4, [EVT_P_PENNANT_CONN_CONN p]⟩

def EVT_P_PENNANT_ADDR_ADDR (p : Nat) : Fld := ⟨0x40420 + 0x40 * p, 0, 64, .rw, .stored 0⟩
/-- EVT_P_PENNANT_ADDR, field map of chapter 18: 8 bytes. -/
def EVT_P_PENNANT_ADDR (p : Nat) : Reg := ⟨0x40420 + 0x40 * p, 8, [EVT_P_PENNANT_ADDR_ADDR p]⟩

def EVT_NEXT_VALID (n : Nat) : Fld := ⟨0x41000 + 0x10 * n, 63, 1, .w1c, .stored 0⟩
def EVT_NEXT_SEVERITY (n : Nat) : Fld := ⟨0x41000 + 0x10 * n, 60, 3, .ro, .stored 0⟩
def EVT_NEXT_CODE (n : Nat) : Fld := ⟨0x41000 + 0x10 * n, 52, 8, .ro, .stored 0⟩
def EVT_NEXT_PARTITION (n : Nat) : Fld := ⟨0x41000 + 0x10 * n, 48, 4, .ro, .stored 0⟩
def EVT_NEXT_DETAIL (n : Nat) : Fld := ⟨0x41000 + 0x10 * n, 0, 48, .ro, .stored 0⟩
/-- EVT_NEXT, field map of chapter 18: 8 bytes. -/
def EVT_NEXT (n : Nat) : Reg := ⟨0x41000 + 0x10 * n, 8, [EVT_NEXT_VALID n, EVT_NEXT_SEVERITY n, EVT_NEXT_CODE n, EVT_NEXT_PARTITION n, EVT_NEXT_DETAIL n]⟩

def EVT_OVF_COUNT (n : Nat) : Fld := ⟨0x41008 + 0x10 * n, 0, 32, .w1c, .stored 0⟩
/-- EVT_OVF, field map of chapter 18: 4 bytes. -/
def EVT_OVF (n : Nat) : Reg := ⟨0x41008 + 0x10 * n, 4, [EVT_OVF_COUNT n]⟩

def LDG_STATUS_BUSY : Fld := ⟨0x50000, 31, 1, .ro, .view (.LDG_STATUS_BUSY)⟩
def LDG_STATUS_WRITE_FAULT : Fld := ⟨0x50000, 30, 1, .w1c, .stored 0⟩
def LDG_STATUS_LAST_REASON : Fld := ⟨0x50000, 0, 3, .ro, .stored 0⟩
/-- LDG_STATUS, field map of chapter 18: 4 bytes. -/
def LDG_STATUS : Reg := ⟨0x50000, 4, [LDG_STATUS_BUSY, LDG_STATUS_WRITE_FAULT, LDG_STATUS_LAST_REASON]⟩

def LDG_CTRL_SNAP : Fld := ⟨0x50004, 0, 1, .wo, .stored 0⟩
/-- LDG_CTRL, field map of chapter 18: 4 bytes. -/
def LDG_CTRL : Reg := ⟨0x50004, 4, [LDG_CTRL_SNAP]⟩

def LDG_SNAP_SEQ_SEQ : Fld := ⟨0x50008, 0, 64, .ro, .view (.LDG_SNAP_SEQ_SEQ)⟩
/-- LDG_SNAP_SEQ, field map of chapter 18: 8 bytes. -/
def LDG_SNAP_SEQ : Reg := ⟨0x50008, 8, [LDG_SNAP_SEQ_SEQ]⟩

def LDG_FAULT_SEQ_SEQ : Fld := ⟨0x50010, 0, 64, .ro, .view (.LDG_FAULT_SEQ_SEQ)⟩
/-- LDG_FAULT_SEQ, field map of chapter 18: 8 bytes. -/
def LDG_FAULT_SEQ : Reg := ⟨0x50010, 8, [LDG_FAULT_SEQ_SEQ]⟩

def LDG_POWER_ON_SECONDS : Fld := ⟨0x50018, 0, 64, .ro, .view (.LDG_POWER_ON_SECONDS)⟩
/-- LDG_POWER_ON, field map of chapter 18: 8 bytes. -/
def LDG_POWER_ON : Reg := ⟨0x50018, 8, [LDG_POWER_ON_SECONDS]⟩

def LDG_THERMAL_CYCLES : Fld := ⟨0x50020, 8, 24, .ro, .view (.LDG_THERMAL_CYCLES)⟩
def LDG_THERMAL_PEAK_C : Fld := ⟨0x50020, 0, 8, .ro, .view (.LDG_THERMAL_PEAK_C)⟩
/-- LDG_THERMAL, field map of chapter 18: 4 bytes. -/
def LDG_THERMAL : Reg := ⟨0x50020, 4, [LDG_THERMAL_CYCLES, LDG_THERMAL_PEAK_C]⟩

def GEN_RESET_CAUSE_ORDERLY : Fld := ⟨0x80, 31, 1, .ro, .view (.GEN_RESET_CAUSE_ORDERLY)⟩
def GEN_RESET_CAUSE_THERMAL : Fld := ⟨0x80, 30, 1, .ro, .view (.GEN_RESET_CAUSE_THERMAL)⟩
def GEN_RESET_CAUSE_RAIL : Fld := ⟨0x80, 29, 1, .ro, .view (.GEN_RESET_CAUSE_RAIL)⟩
def GEN_RESET_CAUSE_CAUSE : Fld := ⟨0x80, 0, 4, .ro, .view (.GEN_RESET_CAUSE_CAUSE)⟩
/-- GEN_RESET_CAUSE, field map of chapter 19: 4 bytes. -/
def GEN_RESET_CAUSE : Reg := ⟨0x80, 4, [GEN_RESET_CAUSE_ORDERLY, GEN_RESET_CAUSE_THERMAL, GEN_RESET_CAUSE_RAIL, GEN_RESET_CAUSE_CAUSE]⟩

def GEN_BOOT_READY : Fld := ⟨0x84, 31, 1, .ro, .stored 0⟩
def GEN_BOOT_STAGE : Fld := ⟨0x84, 24, 4, .ro, .stored 0⟩
def GEN_BOOT_ELAPSED_MS : Fld := ⟨0x84, 0, 16, .ro, .view (.GEN_BOOT_ELAPSED_MS)⟩
/-- GEN_BOOT, field map of chapter 19: 4 bytes. -/
def GEN_BOOT : Reg := ⟨0x84, 4, [GEN_BOOT_READY, GEN_BOOT_STAGE, GEN_BOOT_ELAPSED_MS]⟩

def GEN_PINS_PERST_N : Fld := ⟨0x88, 31, 1, .ro, .view (.GEN_PINS_PERST_N)⟩
def GEN_PINS_SYS_RESET_N : Fld := ⟨0x88, 30, 1, .ro, .view (.GEN_PINS_SYS_RESET_N)⟩
def GEN_PINS_PWR_GOOD : Fld := ⟨0x88, 29, 1, .ro, .stored 0⟩
def GEN_PINS_FAULT_N : Fld := ⟨0x88, 28, 1, .ro, .stored 1⟩
def GEN_PINS_THERMTRIP_N : Fld := ⟨0x88, 27, 1, .ro, .stored 1⟩
def GEN_PINS_SMB_ADDR : Fld := ⟨0x88, 16, 2, .ro, .view (.GEN_PINS_SMB_ADDR)⟩
def GEN_PINS_MOD_PRSNT : Fld := ⟨0x88, 0, 16, .ro, .view (.GEN_PINS_MOD_PRSNT)⟩
/-- GEN_PINS, field map of chapter 19: 4 bytes. -/
def GEN_PINS : Reg := ⟨0x88, 4, [GEN_PINS_PERST_N, GEN_PINS_SYS_RESET_N, GEN_PINS_PWR_GOOD, GEN_PINS_FAULT_N, GEN_PINS_THERMTRIP_N, GEN_PINS_SMB_ADDR, GEN_PINS_MOD_PRSNT]⟩

def GEN_TRIM_STATUS_APPLIED : Fld := ⟨0x8C, 31, 1, .ro, .stored 0⟩
def GEN_TRIM_STATUS_REJECTED : Fld := ⟨0x8C, 30, 1, .ro, .stored 0⟩
def GEN_TRIM_STATUS_SEQ : Fld := ⟨0x8C, 0, 16, .ro, .stored 0⟩
/-- GEN_TRIM_STATUS, field map of chapter 19: 4 bytes. -/
def GEN_TRIM_STATUS : Reg := ⟨0x8C, 4, [GEN_TRIM_STATUS_APPLIED, GEN_TRIM_STATUS_REJECTED, GEN_TRIM_STATUS_SEQ]⟩

end Sys2Proof.Machine
end

