-- ==== Sys2Proof/Machine/RegsNet.lean ====
section
/-!
DEFINITION. The field maps of the ETH_, ZTX_, HIF_ registers, in the order of the spec's chapters, one definition per field and one per register.
-/
namespace Sys2Proof.Machine

def ETH_STATUS_LINK_UP (j : Nat) : Fld := ⟨0x800000 + 0x10000 * j, 28, 4, .ro, .stored 0⟩
def ETH_STATUS_PREEMPT_ACTIVE (j : Nat) : Fld := ⟨0x800000 + 0x10000 * j, 24, 4, .ro, .stored 0⟩
def ETH_STATUS_LPI_TX (j : Nat) : Fld := ⟨0x800000 + 0x10000 * j, 20, 4, .ro, .stored 0⟩
def ETH_STATUS_HELD (j : Nat) : Fld := ⟨0x800000 + 0x10000 * j, 16, 4, .ro, .view (.ETH_STATUS_HELD j)⟩
def ETH_STATUS_MODE (j : Nat) : Fld := ⟨0x800000 + 0x10000 * j, 8, 8, .ro, .stored 0⟩
/-- ETH_STATUS, field map of chapter 12: 4 bytes. -/
def ETH_STATUS (j : Nat) : Reg := ⟨0x800000 + 0x10000 * j, 4, [ETH_STATUS_LINK_UP j, ETH_STATUS_PREEMPT_ACTIVE j, ETH_STATUS_LPI_TX j, ETH_STATUS_HELD j, ETH_STATUS_MODE j]⟩

def ETH_STICKY_LINK_DOWN (j : Nat) : Fld := ⟨0x800004 + 0x10000 * j, 7, 1, .w1c, .stored 0⟩
def ETH_STICKY_MERGE_ERR (j : Nat) : Fld := ⟨0x800004 + 0x10000 * j, 6, 1, .w1c, .stored 0⟩
def ETH_STICKY_UNSTEERED (j : Nat) : Fld := ⟨0x800004 + 0x10000 * j, 5, 1, .w1c, .stored 0⟩
def ETH_STICKY_RX_DROP (j : Nat) : Fld := ⟨0x800004 + 0x10000 * j, 4, 1, .w1c, .stored 0⟩
def ETH_STICKY_FEC_UNCORR (j : Nat) : Fld := ⟨0x800004 + 0x10000 * j, 3, 1, .w1c, .stored 0⟩
def ETH_STICKY_OVERSIZE (j : Nat) : Fld := ⟨0x800004 + 0x10000 * j, 2, 1, .w1c, .stored 0⟩
def ETH_STICKY_FCS_ERR (j : Nat) : Fld := ⟨0x800004 + 0x10000 * j, 1, 1, .w1c, .stored 0⟩
def ETH_STICKY_RUNT (j : Nat) : Fld := ⟨0x800004 + 0x10000 * j, 0, 1, .w1c, .stored 0⟩
/-- ETH_STICKY, field map of chapter 12: 4 bytes. -/
def ETH_STICKY (j : Nat) : Reg := ⟨0x800004 + 0x10000 * j, 4, [ETH_STICKY_LINK_DOWN j, ETH_STICKY_MERGE_ERR j, ETH_STICKY_UNSTEERED j, ETH_STICKY_RX_DROP j, ETH_STICKY_FEC_UNCORR j, ETH_STICKY_OVERSIZE j, ETH_STICKY_FCS_ERR j, ETH_STICKY_RUNT j]⟩

def ETH_CTRL_UNTAGGED_PRIO (j : Nat) : Fld := ⟨0x800008 + 0x10000 * j, 16, 3, .rw, .stored 0⟩
def ETH_CTRL_MAXFRAME (j : Nat) : Fld := ⟨0x800008 + 0x10000 * j, 0, 14, .rw, .stored 0x2400⟩
/-- ETH_CTRL, field map of chapter 12: 4 bytes. -/
def ETH_CTRL (j : Nat) : Reg := ⟨0x800008 + 0x10000 * j, 4, [ETH_CTRL_UNTAGGED_PRIO j, ETH_CTRL_MAXFRAME j]⟩

def ETH_FLOW_MODE (j : Nat) : Fld := ⟨0x80000C + 0x10000 * j, 30, 2, .rw, .stored 0⟩
def ETH_FLOW_PFC_EN (j : Nat) : Fld := ⟨0x80000C + 0x10000 * j, 16, 8, .rw, .stored 0⟩
def ETH_FLOW_QUANTA (j : Nat) : Fld := ⟨0x80000C + 0x10000 * j, 0, 16, .rw, .stored 0xffff⟩
/-- ETH_FLOW, field map of chapter 12: 4 bytes. -/
def ETH_FLOW (j : Nat) : Reg := ⟨0x80000C + 0x10000 * j, 4, [ETH_FLOW_MODE j, ETH_FLOW_PFC_EN j, ETH_FLOW_QUANTA j]⟩

def ETH_EEE_ENABLE (j : Nat) : Fld := ⟨0x800010 + 0x10000 * j, 31, 1, .rw, .stored 0⟩
def ETH_EEE_IDLE_US (j : Nat) : Fld := ⟨0x800010 + 0x10000 * j, 0, 16, .rw, .stored 16⟩
/-- ETH_EEE, field map of chapter 12: 4 bytes. -/
def ETH_EEE (j : Nat) : Reg := ⟨0x800010 + 0x10000 * j, 4, [ETH_EEE_ENABLE j, ETH_EEE_IDLE_US j]⟩

def ETH_PREEMPT_ENABLE (j : Nat) : Fld := ⟨0x800014 + 0x10000 * j, 31, 1, .rw, .stored 0⟩
def ETH_PREEMPT_VERIFY_DISABLE (j : Nat) : Fld := ⟨0x800014 + 0x10000 * j, 30, 1, .rw, .stored 0⟩
def ETH_PREEMPT_ADD_FRAG_SIZE (j : Nat) : Fld := ⟨0x800014 + 0x10000 * j, 24, 2, .rw, .stored 0⟩
def ETH_PREEMPT_EXPRESS (j : Nat) : Fld := ⟨0x800014 + 0x10000 * j, 8, 8, .rw, .stored 128⟩
/-- ETH_PREEMPT, field map of chapter 12: 4 bytes. -/
def ETH_PREEMPT (j : Nat) : Reg := ⟨0x800014 + 0x10000 * j, 4, [ETH_PREEMPT_ENABLE j, ETH_PREEMPT_VERIFY_DISABLE j, ETH_PREEMPT_ADD_FRAG_SIZE j, ETH_PREEMPT_EXPRESS j]⟩

def ETH_CABLE_MEDIUM (j : Nat) : Fld := ⟨0x800018 + 0x10000 * j, 30, 2, .ro, .stored 0⟩
def ETH_CABLE_REACH_DM (j : Nat) : Fld := ⟨0x800018 + 0x10000 * j, 16, 14, .ro, .stored 0⟩
def ETH_CABLE_MAX_POWER (j : Nat) : Fld := ⟨0x800018 + 0x10000 * j, 8, 8, .ro, .stored 0⟩
def ETH_CABLE_MODULE_HELD (j : Nat) : Fld := ⟨0x800018 + 0x10000 * j, 0, 1, .ro, .stored 0⟩
/-- ETH_CABLE, field map of chapter 12: 4 bytes. -/
def ETH_CABLE (j : Nat) : Reg := ⟨0x800018 + 0x10000 * j, 4, [ETH_CABLE_MEDIUM j, ETH_CABLE_REACH_DM j, ETH_CABLE_MAX_POWER j, ETH_CABLE_MODULE_HELD j]⟩

def ETH_MAC_ADDR (j k : Nat) : Fld := ⟨0x800020 + 0x10000 * j + 0x8 * k, 0, 48, .ro, .view (.ETH_MAC_ADDR j k)⟩
/-- ETH_MAC, field map of chapter 12: 8 bytes. -/
def ETH_MAC (j k : Nat) : Reg := ⟨0x800020 + 0x10000 * j + 0x8 * k, 8, [ETH_MAC_ADDR j k]⟩

def ETH_LINK_UP (j k : Nat) : Fld := ⟨0x800040 + 0x10000 * j + 0x4 * k, 31, 1, .ro, .stored 0⟩
def ETH_LINK_AN_DONE (j k : Nat) : Fld := ⟨0x800040 + 0x10000 * j + 0x4 * k, 30, 1, .ro, .stored 0⟩
def ETH_LINK_PARTNER_EEE (j k : Nat) : Fld := ⟨0x800040 + 0x10000 * j + 0x4 * k, 29, 1, .ro, .stored 0⟩
def ETH_LINK_PARTNER_PREEMPT (j k : Nat) : Fld := ⟨0x800040 + 0x10000 * j + 0x4 * k, 28, 1, .ro, .stored 0⟩
def ETH_LINK_VERIFY (j k : Nat) : Fld := ⟨0x800040 + 0x10000 * j + 0x4 * k, 26, 2, .ro, .stored 0⟩
def ETH_LINK_TW_US (j k : Nat) : Fld := ⟨0x800040 + 0x10000 * j + 0x4 * k, 16, 8, .ro, .stored 0⟩
/-- ETH_LINK, field map of chapter 12: 4 bytes. -/
def ETH_LINK (j k : Nat) : Reg := ⟨0x800040 + 0x10000 * j + 0x4 * k, 4, [ETH_LINK_UP j k, ETH_LINK_AN_DONE j k, ETH_LINK_PARTNER_EEE j k, ETH_LINK_PARTNER_PREEMPT j k, ETH_LINK_VERIFY j k, ETH_LINK_TW_US j k]⟩

def ETH_WM_XOFF (j s q : Nat) : Fld := ⟨0x800100 + 0x10000 * j + 0x20 * s + 0x4 * q, 16, 16, .rw, .stored 0⟩
def ETH_WM_XON (j s q : Nat) : Fld := ⟨0x800100 + 0x10000 * j + 0x20 * s + 0x4 * q, 0, 16, .rw, .stored 0⟩
/-- ETH_WM, field map of chapter 12: 4 bytes. -/
def ETH_WM (j s q : Nat) : Reg := ⟨0x800100 + 0x10000 * j + 0x20 * s + 0x4 * q, 4, [ETH_WM_XOFF j s q, ETH_WM_XON j s q]⟩

def ETH_Q_CFG_ENABLE (j q : Nat) : Fld := ⟨0x800200 + 0x10000 * j + 0x20 * q, 31, 1, .rw, .stored 0⟩
def ETH_Q_CFG_EVENT (j q : Nat) : Fld := ⟨0x800200 + 0x10000 * j + 0x20 * q, 30, 1, .rw, .stored 0⟩
def ETH_Q_CFG_CONSUMER (j q : Nat) : Fld := ⟨0x800200 + 0x10000 * j + 0x20 * q, 29, 1, .rw, .stored 0⟩
def ETH_Q_CFG_SUBPORT (j q : Nat) : Fld := ⟨0x800200 + 0x10000 * j + 0x20 * q, 24, 2, .rw, .stored 0⟩
def ETH_Q_CFG_SIZE_LOG2 (j q : Nat) : Fld := ⟨0x800200 + 0x10000 * j + 0x20 * q, 0, 4, .rw, .stored 4⟩
/-- ETH_Q_CFG, field map of chapter 12: 4 bytes. -/
def ETH_Q_CFG (j q : Nat) : Reg := ⟨0x800200 + 0x10000 * j + 0x20 * q, 4, [ETH_Q_CFG_ENABLE j q, ETH_Q_CFG_EVENT j q, ETH_Q_CFG_CONSUMER j q, ETH_Q_CFG_SUBPORT j q, ETH_Q_CFG_SIZE_LOG2 j q]⟩

def ETH_Q_BASE_BASE (j q : Nat) : Fld := ⟨0x800208 + 0x10000 * j + 0x20 * q, 14, 50, .rw, .stored 0⟩
/-- ETH_Q_BASE, field map of chapter 12: 8 bytes. -/
def ETH_Q_BASE (j q : Nat) : Reg := ⟨0x800208 + 0x10000 * j + 0x20 * q, 8, [ETH_Q_BASE_BASE j q]⟩

def ETH_Q_PTR_HEAD (j q : Nat) : Fld := ⟨0x800210 + 0x10000 * j + 0x20 * q, 16, 16, .ro, .stored 0⟩
def ETH_Q_PTR_TAIL (j q : Nat) : Fld := ⟨0x800210 + 0x10000 * j + 0x20 * q, 0, 16, .rw, .stored 0⟩
/-- ETH_Q_PTR, field map of chapter 12: 4 bytes. -/
def ETH_Q_PTR (j q : Nat) : Reg := ⟨0x800210 + 0x10000 * j + 0x20 * q, 4, [ETH_Q_PTR_HEAD j q, ETH_Q_PTR_TAIL j q]⟩

def ETH_TX_CFG_ENABLE (j s : Nat) : Fld := ⟨0x800600 + 0x10000 * j + 0x20 * s, 31, 1, .rw, .stored 0⟩
def ETH_TX_CFG_SIZE_LOG2 (j s : Nat) : Fld := ⟨0x800600 + 0x10000 * j + 0x20 * s, 0, 4, .rw, .stored 4⟩
/-- ETH_TX_CFG, field map of chapter 12: 4 bytes. -/
def ETH_TX_CFG (j s : Nat) : Reg := ⟨0x800600 + 0x10000 * j + 0x20 * s, 4, [ETH_TX_CFG_ENABLE j s, ETH_TX_CFG_SIZE_LOG2 j s]⟩

def ETH_TX_BASE_BASE (j s : Nat) : Fld := ⟨0x800608 + 0x10000 * j + 0x20 * s, 14, 50, .rw, .stored 0⟩
/-- ETH_TX_BASE, field map of chapter 12: 8 bytes. -/
def ETH_TX_BASE (j s : Nat) : Reg := ⟨0x800608 + 0x10000 * j + 0x20 * s, 8, [ETH_TX_BASE_BASE j s]⟩

def ETH_TX_PTR_HEAD (j s : Nat) : Fld := ⟨0x800610 + 0x10000 * j + 0x20 * s, 16, 16, .ro, .stored 0⟩
def ETH_TX_PTR_TAIL (j s : Nat) : Fld := ⟨0x800610 + 0x10000 * j + 0x20 * s, 0, 16, .rw, .stored 0⟩
/-- ETH_TX_PTR, field map of chapter 12: 4 bytes. -/
def ETH_TX_PTR (j s : Nat) : Reg := ⟨0x800610 + 0x10000 * j + 0x20 * s, 4, [ETH_TX_PTR_HEAD j s, ETH_TX_PTR_TAIL j s]⟩

def ETH_FILTER_UDP_SRC (j e : Nat) : Fld := ⟨0x801000 + 0x10000 * j + 0x10 * e, 80, 1, .rw, .stored 0⟩
def ETH_FILTER_UDP_PORT (j e : Nat) : Fld := ⟨0x801000 + 0x10000 * j + 0x10 * e, 64, 16, .rw, .stored 0⟩
def ETH_FILTER_ETYPE (j e : Nat) : Fld := ⟨0x801000 + 0x10000 * j + 0x10 * e, 48, 16, .rw, .stored 0⟩
def ETH_FILTER_PCP (j e : Nat) : Fld := ⟨0x801000 + 0x10000 * j + 0x10 * e, 45, 3, .rw, .stored 0⟩
def ETH_FILTER_VID (j e : Nat) : Fld := ⟨0x801000 + 0x10000 * j + 0x10 * e, 32, 12, .rw, .stored 0⟩
def ETH_FILTER_VALID (j e : Nat) : Fld := ⟨0x801000 + 0x10000 * j + 0x10 * e, 31, 1, .rw, .stored 0⟩
def ETH_FILTER_USE_VID (j e : Nat) : Fld := ⟨0x801000 + 0x10000 * j + 0x10 * e, 30, 1, .rw, .stored 0⟩
def ETH_FILTER_USE_PCP (j e : Nat) : Fld := ⟨0x801000 + 0x10000 * j + 0x10 * e, 29, 1, .rw, .stored 0⟩
def ETH_FILTER_USE_ETYPE (j e : Nat) : Fld := ⟨0x801000 + 0x10000 * j + 0x10 * e, 28, 1, .rw, .stored 0⟩
def ETH_FILTER_USE_UDP (j e : Nat) : Fld := ⟨0x801000 + 0x10000 * j + 0x10 * e, 27, 1, .rw, .stored 0⟩
def ETH_FILTER_ACTION (j e : Nat) : Fld := ⟨0x801000 + 0x10000 * j + 0x10 * e, 26, 1, .rw, .stored 0⟩
def ETH_FILTER_SUBPORTS (j e : Nat) : Fld := ⟨0x801000 + 0x10000 * j + 0x10 * e, 20, 4, .rw, .stored 0⟩
def ETH_FILTER_QUEUE (j e : Nat) : Fld := ⟨0x801000 + 0x10000 * j + 0x10 * e, 8, 5, .rw, .stored 0⟩
/-- ETH_FILTER, field map of chapter 12: 16 bytes. -/
def ETH_FILTER (j e : Nat) : Reg := ⟨0x801000 + 0x10000 * j + 0x10 * e, 16, [ETH_FILTER_UDP_SRC j e, ETH_FILTER_UDP_PORT j e, ETH_FILTER_ETYPE j e, ETH_FILTER_PCP j e, ETH_FILTER_VID j e, ETH_FILTER_VALID j e, ETH_FILTER_USE_VID j e, ETH_FILTER_USE_PCP j e, ETH_FILTER_USE_ETYPE j e, ETH_FILTER_USE_UDP j e, ETH_FILTER_ACTION j e, ETH_FILTER_SUBPORTS j e, ETH_FILTER_QUEUE j e]⟩

def ZTX_CTRL_ENABLE : Fld := ⟨0x900000, 31, 1, .rw, .stored 0⟩
def ZTX_CTRL_UDP_PORT : Fld := ⟨0x900000, 0, 16, .rw, .stored 0x4e5a⟩
/-- ZTX_CTRL, field map of chapter 13: 4 bytes. -/
def ZTX_CTRL : Reg := ⟨0x900000, 4, [ZTX_CTRL_ENABLE, ZTX_CTRL_UDP_PORT]⟩

def ZTX_CTX_BASE_BASE : Fld := ⟨0x900008, 12, 52, .rw, .stored 0⟩
/-- ZTX_CTX_BASE, field map of chapter 13: 8 bytes. -/
def ZTX_CTX_BASE : Reg := ⟨0x900008, 8, [ZTX_CTX_BASE_BASE]⟩

def ZTX_TIMERS_UNREACH_MS : Fld := ⟨0x900010, 20, 12, .rw, .stored 0x3e8⟩
def ZTX_TIMERS_KEEPALIVE : Fld := ⟨0x900010, 12, 8, .rw, .stored 10⟩
def ZTX_TIMERS_SETUP : Fld := ⟨0x900010, 0, 12, .rw, .stored 0x3e8⟩
/-- ZTX_TIMERS, field map of chapter 13: 4 bytes. -/
def ZTX_TIMERS : Reg := ⟨0x900010, 4, [ZTX_TIMERS_UNREACH_MS, ZTX_TIMERS_KEEPALIVE, ZTX_TIMERS_SETUP]⟩

def ZTX_RTO_RTO_MAX : Fld := ⟨0x900014, 16, 16, .rw, .stored 0x1f40⟩
def ZTX_RTO_RTO_MIN : Fld := ⟨0x900014, 0, 16, .rw, .stored 50⟩
/-- ZTX_RTO, field map of chapter 13: 4 bytes. -/
def ZTX_RTO : Reg := ⟨0x900014, 4, [ZTX_RTO_RTO_MAX, ZTX_RTO_RTO_MIN]⟩

def ZTX_ACK_CFG_REORDER : Fld := ⟨0x900018, 16, 8, .rw, .stored 16⟩
def ZTX_ACK_CFG_ACK_PKTS : Fld := ⟨0x900018, 8, 8, .rw, .stored 8⟩
def ZTX_ACK_CFG_ACK_DELAY : Fld := ⟨0x900018, 0, 8, .rw, .stored 20⟩
/-- ZTX_ACK_CFG, field map of chapter 13: 4 bytes. -/
def ZTX_ACK_CFG : Reg := ⟨0x900018, 4, [ZTX_ACK_CFG_REORDER, ZTX_ACK_CFG_ACK_PKTS, ZTX_ACK_CFG_ACK_DELAY]⟩

def ZTX_RATE_CFG_G_SHIFT : Fld := ⟨0x90001C, 28, 4, .rw, .stored 4⟩
def ZTX_RATE_CFG_CUT_US : Fld := ⟨0x90001C, 20, 8, .rw, .stored 8⟩
def ZTX_RATE_CFG_HAI_AFTER : Fld := ⟨0x90001C, 16, 4, .rw, .stored 5⟩
def ZTX_RATE_CFG_RATE_MIN : Fld := ⟨0x90001C, 0, 16, .rw, .stored 10⟩
/-- ZTX_RATE_CFG, field map of chapter 13: 4 bytes. -/
def ZTX_RATE_CFG : Reg := ⟨0x90001C, 4, [ZTX_RATE_CFG_G_SHIFT, ZTX_RATE_CFG_CUT_US, ZTX_RATE_CFG_HAI_AFTER, ZTX_RATE_CFG_RATE_MIN]⟩

def ZTX_RATE_STEP_HAI_STEP : Fld := ⟨0x900020, 16, 16, .rw, .stored 0x1f4⟩
def ZTX_RATE_STEP_AI_STEP : Fld := ⟨0x900020, 0, 16, .rw, .stored 50⟩
/-- ZTX_RATE_STEP, field map of chapter 13: 4 bytes. -/
def ZTX_RATE_STEP : Reg := ⟨0x900020, 4, [ZTX_RATE_STEP_HAI_STEP, ZTX_RATE_STEP_AI_STEP]⟩

def ZTX_MISSQ_HOST_LOST : Fld := ⟨0x900028, 31, 1, .ro, .stored 0⟩
def ZTX_MISSQ_PEAK : Fld := ⟨0x900028, 16, 10, .ro, .stored 0⟩
def ZTX_MISSQ_USED : Fld := ⟨0x900028, 0, 10, .ro, .view (.ZTX_MISSQ_USED)⟩
/-- ZTX_MISSQ, field map of chapter 13: 4 bytes. -/
def ZTX_MISSQ : Reg := ⟨0x900028, 4, [ZTX_MISSQ_HOST_LOST, ZTX_MISSQ_PEAK, ZTX_MISSQ_USED]⟩

def ZTX_MISS_DROPS_COUNT : Fld := ⟨0x900030, 0, 32, .ro, .stored 0⟩
/-- ZTX_MISS_DROPS, field map of chapter 13: 4 bytes. -/
def ZTX_MISS_DROPS : Reg := ⟨0x900030, 4, [ZTX_MISS_DROPS_COUNT]⟩

def ZTX_AUTH_FAIL_COUNT : Fld := ⟨0x900034, 0, 32, .ro, .stored 0⟩
/-- ZTX_AUTH_FAIL, field map of chapter 13: 4 bytes. -/
def ZTX_AUTH_FAIL : Reg := ⟨0x900034, 4, [ZTX_AUTH_FAIL_COUNT]⟩

def ZTX_STALE_COUNT : Fld := ⟨0x900038, 0, 32, .ro, .stored 0⟩
/-- ZTX_STALE, field map of chapter 13: 4 bytes. -/
def ZTX_STALE : Reg := ⟨0x900038, 4, [ZTX_STALE_COUNT]⟩

def ZTX_RETX_COUNT : Fld := ⟨0x90003C, 0, 32, .ro, .stored 0⟩
/-- ZTX_RETX, field map of chapter 13: 4 bytes. -/
def ZTX_RETX : Reg := ⟨0x90003C, 4, [ZTX_RETX_COUNT]⟩

def ZTX_P_CTRL_ENABLE (p : Nat) : Fld := ⟨0x901000 + 0x100 * p, 0, 1, .rw, .stored 0⟩
/-- ZTX_P_CTRL, field map of chapter 13: 4 bytes. -/
def ZTX_P_CTRL (p : Nat) : Reg := ⟨0x901000 + 0x100 * p, 4, [ZTX_P_CTRL_ENABLE p]⟩

def ZTX_P_SQ_BASE_BASE (p : Nat) : Fld := ⟨0x901008 + 0x100 * p, 6, 58, .rw, .stored 0⟩
/-- ZTX_P_SQ_BASE, field map of chapter 13: 8 bytes. -/
def ZTX_P_SQ_BASE (p : Nat) : Reg := ⟨0x901008 + 0x100 * p, 8, [ZTX_P_SQ_BASE_BASE p]⟩

def ZTX_P_SQ_CFG_SIZE_LOG2 (p : Nat) : Fld := ⟨0x901010 + 0x100 * p, 0, 5, .rw, .stored 8⟩
/-- ZTX_P_SQ_CFG, field map of chapter 13: 4 bytes. -/
def ZTX_P_SQ_CFG (p : Nat) : Reg := ⟨0x901010 + 0x100 * p, 4, [ZTX_P_SQ_CFG_SIZE_LOG2 p]⟩

def ZTX_P_SQ_HEAD_HEAD (p : Nat) : Fld := ⟨0x901014 + 0x100 * p, 0, 17, .ro, .stored 0⟩
/-- ZTX_P_SQ_HEAD, field map of chapter 13: 4 bytes. -/
def ZTX_P_SQ_HEAD (p : Nat) : Reg := ⟨0x901014 + 0x100 * p, 4, [ZTX_P_SQ_HEAD_HEAD p]⟩

def ZTX_P_SQ_TAIL_TAIL (p : Nat) : Fld := ⟨0x901018 + 0x100 * p, 0, 17, .rw, .stored 0⟩
/-- ZTX_P_SQ_TAIL, field map of chapter 13: 4 bytes. -/
def ZTX_P_SQ_TAIL (p : Nat) : Reg := ⟨0x901018 + 0x100 * p, 4, [ZTX_P_SQ_TAIL_TAIL p]⟩

def ZTX_P_REGION_BASE_BASE (p : Nat) : Fld := ⟨0x901020 + 0x100 * p, 5, 59, .rw, .stored 0⟩
/-- ZTX_P_REGION_BASE, field map of chapter 13: 8 bytes. -/
def ZTX_P_REGION_BASE (p : Nat) : Reg := ⟨0x901020 + 0x100 * p, 8, [ZTX_P_REGION_BASE_BASE p]⟩

def ZTX_P_REGION_COUNT_COUNT (p : Nat) : Fld := ⟨0x901028 + 0x100 * p, 0, 11, .rw, .stored 0⟩
/-- ZTX_P_REGION_COUNT, field map of chapter 13: 4 bytes. -/
def ZTX_P_REGION_COUNT (p : Nat) : Reg := ⟨0x901028 + 0x100 * p, 4, [ZTX_P_REGION_COUNT_COUNT p]⟩

def ZTX_P_OPEN_DESC_BASE (p : Nat) : Fld := ⟨0x901030 + 0x100 * p, 7, 57, .rw, .stored 0⟩
/-- ZTX_P_OPEN_DESC, field map of chapter 13: 8 bytes. -/
def ZTX_P_OPEN_DESC (p : Nat) : Reg := ⟨0x901030 + 0x100 * p, 8, [ZTX_P_OPEN_DESC_BASE p]⟩

def ZTX_P_OP_OP (p : Nat) : Fld := ⟨0x901038 + 0x100 * p, 28, 4, .wo, .stored 0⟩
/-- ZTX_P_OP, field map of chapter 13: 4 bytes. -/
def ZTX_P_OP (p : Nat) : Reg := ⟨0x901038 + 0x100 * p, 4, [ZTX_P_OP_OP p]⟩

def ZTX_P_OP_ARG_NEW_CONN (p : Nat) : Fld := ⟨0x901040 + 0x100 * p, 32, 32, .rw, .stored 0xffffffff⟩
def ZTX_P_OP_ARG_CONN (p : Nat) : Fld := ⟨0x901040 + 0x100 * p, 0, 32, .rw, .stored 0xffffffff⟩
/-- ZTX_P_OP_ARG, field map of chapter 13: 8 bytes. -/
def ZTX_P_OP_ARG (p : Nat) : Reg := ⟨0x901040 + 0x100 * p, 8, [ZTX_P_OP_ARG_NEW_CONN p, ZTX_P_OP_ARG_CONN p]⟩

def ZTX_P_OP_STATUS_BUSY (p : Nat) : Fld := ⟨0x901048 + 0x100 * p, 31, 1, .ro, .stored 0⟩
def ZTX_P_OP_STATUS_CODE (p : Nat) : Fld := ⟨0x901048 + 0x100 * p, 0, 8, .ro, .stored 0⟩
/-- ZTX_P_OP_STATUS, field map of chapter 13: 4 bytes. -/
def ZTX_P_OP_STATUS (p : Nat) : Reg := ⟨0x901048 + 0x100 * p, 4, [ZTX_P_OP_STATUS_BUSY p, ZTX_P_OP_STATUS_CODE p]⟩

def ZTX_P_OP_RESULT_RATE (p : Nat) : Fld := ⟨0x901050 + 0x100 * p, 48, 16, .ro, .stored 0⟩
def ZTX_P_OP_RESULT_PENDING (p : Nat) : Fld := ⟨0x901050 + 0x100 * p, 32, 16, .ro, .stored 0⟩
def ZTX_P_OP_RESULT_VALUE (p : Nat) : Fld := ⟨0x901050 + 0x100 * p, 0, 32, .ro, .stored 0xffffffff⟩
/-- ZTX_P_OP_RESULT, field map of chapter 13: 8 bytes. -/
def ZTX_P_OP_RESULT (p : Nat) : Reg := ⟨0x901050 + 0x100 * p, 8, [ZTX_P_OP_RESULT_RATE p, ZTX_P_OP_RESULT_PENDING p, ZTX_P_OP_RESULT_VALUE p]⟩

def ZTX_P_CONNS_HELD (p : Nat) : Fld := ⟨0x901058 + 0x100 * p, 32, 32, .ro, .view (.ZTX_P_CONNS_HELD p)⟩
def ZTX_P_CONNS_RESIDENT (p : Nat) : Fld := ⟨0x901058 + 0x100 * p, 0, 17, .ro, .view (.ZTX_P_CONNS_RESIDENT p)⟩
/-- ZTX_P_CONNS, field map of chapter 13: 8 bytes. -/
def ZTX_P_CONNS (p : Nat) : Reg := ⟨0x901058 + 0x100 * p, 8, [ZTX_P_CONNS_HELD p, ZTX_P_CONNS_RESIDENT p]⟩

def ZTX_P_FAULT_VALID (p : Nat) : Fld := ⟨0x901060 + 0x100 * p, 31, 1, .w1c, .stored 0⟩
def ZTX_P_FAULT_OVERFLOW (p : Nat) : Fld := ⟨0x901060 + 0x100 * p, 30, 1, .w1c, .stored 0⟩
def ZTX_P_FAULT_CODE (p : Nat) : Fld := ⟨0x901060 + 0x100 * p, 0, 8, .ro, .stored 0⟩
/-- ZTX_P_FAULT, field map of chapter 13: 4 bytes. -/
def ZTX_P_FAULT (p : Nat) : Reg := ⟨0x901060 + 0x100 * p, 4, [ZTX_P_FAULT_VALID p, ZTX_P_FAULT_OVERFLOW p, ZTX_P_FAULT_CODE p]⟩

def ZTX_P_FAULT_CONN_CONN (p : Nat) : Fld := ⟨0x901064 + 0x100 * p, 0, 32, .ro, .stored 0xffffffff⟩
/-- ZTX_P_FAULT_CONN, field map of chapter 13: 4 bytes. -/
def ZTX_P_FAULT_CONN (p : Nat) : Reg := ⟨0x901064 + 0x100 * p, 4, [ZTX_P_FAULT_CONN_CONN p]⟩

def HIF_STATUS_DL_UP : Fld := ⟨0xA00000, 31, 1, .ro, .stored 0⟩
def HIF_STATUS_HDM_COMMITTED : Fld := ⟨0xA00000, 30, 1, .ro, .stored 0⟩
def HIF_STATUS_WIDTH : Fld := ⟨0xA00000, 16, 8, .ro, .stored 0⟩
def HIF_STATUS_RATE : Fld := ⟨0xA00000, 8, 8, .ro, .stored 0⟩
/-- HIF_STATUS, field map of chapter 14: 4 bytes. -/
def HIF_STATUS : Reg := ⟨0xA00000, 4, [HIF_STATUS_DL_UP, HIF_STATUS_HDM_COMMITTED, HIF_STATUS_WIDTH, HIF_STATUS_RATE]⟩

def HIF_BIND_FN_EN : Fld := ⟨0xA00004, 16, 16, .rw, .stored 0⟩
def HIF_BIND_F0_PARTITION : Fld := ⟨0xA00004, 0, 5, .rw, .stored 31⟩
/-- HIF_BIND, field map of chapter 14: 4 bytes. -/
def HIF_BIND : Reg := ⟨0xA00004, 4, [HIF_BIND_FN_EN, HIF_BIND_F0_PARTITION]⟩

def HIF_WIN_BASE (f : Nat) : Fld := ⟨0xA00100 + 0x8 * f, 21, 43, .rw, .stored 0⟩
/-- HIF_WIN, field map of chapter 14: 8 bytes. -/
def HIF_WIN (f : Nat) : Reg := ⟨0xA00100 + 0x8 * f, 8, [HIF_WIN_BASE f]⟩

def HIF_P_CTRL_ATTACH (p : Nat) : Fld := ⟨0xA01000 + 0x200 * p, 31, 1, .wo, .stored 0⟩
def HIF_P_CTRL_KEPT (p : Nat) : Fld := ⟨0xA01000 + 0x200 * p, 30, 1, .wo, .stored 0⟩
/-- HIF_P_CTRL, field map of chapter 14: 4 bytes. -/
def HIF_P_CTRL (p : Nat) : Reg := ⟨0xA01000 + 0x200 * p, 4, [HIF_P_CTRL_ATTACH p, HIF_P_CTRL_KEPT p]⟩

def HIF_P_STATUS_HOST_LOST (p : Nat) : Fld := ⟨0xA01004 + 0x200 * p, 31, 1, .ro, .stored 1⟩
def HIF_P_STATUS_BIAS_VIOL (p : Nat) : Fld := ⟨0xA01004 + 0x200 * p, 30, 1, .w1c, .stored 0⟩
def HIF_P_STATUS_HLQ_FULL (p : Nat) : Fld := ⟨0xA01004 + 0x200 * p, 29, 1, .w1c, .stored 0⟩
def HIF_P_STATUS_HALTED (p : Nat) : Fld := ⟨0xA01004 + 0x200 * p, 0, 8, .ro, .view (.HIF_P_STATUS_HALTED p)⟩
/-- HIF_P_STATUS, field map of chapter 14: 4 bytes. -/
def HIF_P_STATUS (p : Nat) : Reg := ⟨0xA01004 + 0x200 * p, 4, [HIF_P_STATUS_HOST_LOST p, HIF_P_STATUS_BIAS_VIOL p, HIF_P_STATUS_HLQ_FULL p, HIF_P_STATUS_HALTED p]⟩

def HIF_P_CPL_BASE_BASE (p : Nat) : Fld := ⟨0xA01008 + 0x200 * p, 12, 52, .rw, .stored 0⟩
/-- HIF_P_CPL_BASE, field map of chapter 14: 8 bytes. -/
def HIF_P_CPL_BASE (p : Nat) : Reg := ⟨0xA01008 + 0x200 * p, 8, [HIF_P_CPL_BASE_BASE p]⟩

def HIF_P_CPL_CFG_VECTOR (p : Nat) : Fld := ⟨0xA01010 + 0x200 * p, 16, 5, .rw, .stored 0⟩
def HIF_P_CPL_CFG_MOD_US (p : Nat) : Fld := ⟨0xA01010 + 0x200 * p, 8, 8, .rw, .stored 4⟩
def HIF_P_CPL_CFG_SIZE_LOG2 (p : Nat) : Fld := ⟨0xA01010 + 0x200 * p, 0, 5, .rw, .stored 8⟩
/-- HIF_P_CPL_CFG, field map of chapter 14: 4 bytes. -/
def HIF_P_CPL_CFG (p : Nat) : Reg := ⟨0xA01010 + 0x200 * p, 4, [HIF_P_CPL_CFG_VECTOR p, HIF_P_CPL_CFG_MOD_US p, HIF_P_CPL_CFG_SIZE_LOG2 p]⟩

def HIF_P_CPL_HEAD_HEAD (p : Nat) : Fld := ⟨0xA01014 + 0x200 * p, 0, 32, .ro, .stored 0⟩
/-- HIF_P_CPL_HEAD, field map of chapter 14: 4 bytes. -/
def HIF_P_CPL_HEAD (p : Nat) : Reg := ⟨0xA01014 + 0x200 * p, 4, [HIF_P_CPL_HEAD_HEAD p]⟩

def HIF_P_CPL_TAIL_TAIL (p : Nat) : Fld := ⟨0xA01018 + 0x200 * p, 0, 32, .rw, .stored 0⟩
/-- HIF_P_CPL_TAIL, field map of chapter 14: 4 bytes. -/
def HIF_P_CPL_TAIL (p : Nat) : Reg := ⟨0xA01018 + 0x200 * p, 4, [HIF_P_CPL_TAIL_TAIL p]⟩

def HIF_P_HLQ_BASE_BASE (p : Nat) : Fld := ⟨0xA01020 + 0x200 * p, 9, 55, .rw, .stored 0⟩
/-- HIF_P_HLQ_BASE, field map of chapter 14: 8 bytes. -/
def HIF_P_HLQ_BASE (p : Nat) : Reg := ⟨0xA01020 + 0x200 * p, 8, [HIF_P_HLQ_BASE_BASE p]⟩

def HIF_P_HLQ_CFG_USED (p : Nat) : Fld := ⟨0xA01028 + 0x200 * p, 8, 24, .ro, .view (.HIF_P_HLQ_CFG_USED p)⟩
def HIF_P_HLQ_CFG_SIZE_LOG2 (p : Nat) : Fld := ⟨0xA01028 + 0x200 * p, 0, 5, .rw, .stored 9⟩
/-- HIF_P_HLQ_CFG, field map of chapter 14: 4 bytes. -/
def HIF_P_HLQ_CFG (p : Nat) : Reg := ⟨0xA01028 + 0x200 * p, 4, [HIF_P_HLQ_CFG_USED p, HIF_P_HLQ_CFG_SIZE_LOG2 p]⟩

def HIF_P_BIAS_ERR_COUNT (p : Nat) : Fld := ⟨0xA0102C + 0x200 * p, 0, 32, .ro, .stored 0⟩
/-- HIF_P_BIAS_ERR, field map of chapter 14: 4 bytes. -/
def HIF_P_BIAS_ERR (p : Nat) : Reg := ⟨0xA0102C + 0x200 * p, 4, [HIF_P_BIAS_ERR_COUNT p]⟩

def HIF_P_FAULT_VALID (p : Nat) : Fld := ⟨0xA01030 + 0x200 * p, 31, 1, .w1c, .stored 0⟩
def HIF_P_FAULT_OVERFLOW (p : Nat) : Fld := ⟨0xA01030 + 0x200 * p, 30, 1, .w1c, .stored 0⟩
def HIF_P_FAULT_RING (p : Nat) : Fld := ⟨0xA01030 + 0x200 * p, 27, 3, .ro, .stored 0⟩
def HIF_P_FAULT_INDEX (p : Nat) : Fld := ⟨0xA01030 + 0x200 * p, 8, 16, .ro, .stored 0⟩
def HIF_P_FAULT_CODE (p : Nat) : Fld := ⟨0xA01030 + 0x200 * p, 0, 8, .ro, .stored 0⟩
/-- HIF_P_FAULT, field map of chapter 14: 4 bytes. -/
def HIF_P_FAULT (p : Nat) : Reg := ⟨0xA01030 + 0x200 * p, 4, [HIF_P_FAULT_VALID p, HIF_P_FAULT_OVERFLOW p, HIF_P_FAULT_RING p, HIF_P_FAULT_INDEX p, HIF_P_FAULT_CODE p]⟩

def HIF_P_CR_BASE_BASE (p r : Nat) : Fld := ⟨0xA01100 + 0x200 * p + 0x20 * r, 12, 52, .rw, .stored 0⟩
/-- HIF_P_CR_BASE, field map of chapter 14: 8 bytes. -/
def HIF_P_CR_BASE (p r : Nat) : Reg := ⟨0xA01100 + 0x200 * p + 0x20 * r, 8, [HIF_P_CR_BASE_BASE p r]⟩

def HIF_P_CR_CFG_ENABLE (p r : Nat) : Fld := ⟨0xA01108 + 0x200 * p + 0x20 * r, 31, 1, .rw, .stored 0⟩
def HIF_P_CR_CFG_RESUME (p r : Nat) : Fld := ⟨0xA01108 + 0x200 * p + 0x20 * r, 30, 1, .wo, .stored 0⟩
def HIF_P_CR_CFG_HALTED (p r : Nat) : Fld := ⟨0xA01108 + 0x200 * p + 0x20 * r, 29, 1, .ro, .stored 0⟩
def HIF_P_CR_CFG_SIZE_LOG2 (p r : Nat) : Fld := ⟨0xA01108 + 0x200 * p + 0x20 * r, 0, 4, .rw, .stored 6⟩
/-- HIF_P_CR_CFG, field map of chapter 14: 4 bytes. -/
def HIF_P_CR_CFG (p r : Nat) : Reg := ⟨0xA01108 + 0x200 * p + 0x20 * r, 4, [HIF_P_CR_CFG_ENABLE p r, HIF_P_CR_CFG_RESUME p r, HIF_P_CR_CFG_HALTED p r, HIF_P_CR_CFG_SIZE_LOG2 p r]⟩

def HIF_P_CR_DB_TAIL (p r : Nat) : Fld := ⟨0xA0110C + 0x200 * p + 0x20 * r, 0, 16, .rw, .stored 0⟩
/-- HIF_P_CR_DB, field map of chapter 14: 4 bytes. -/
def HIF_P_CR_DB (p r : Nat) : Reg := ⟨0xA0110C + 0x200 * p + 0x20 * r, 4, [HIF_P_CR_DB_TAIL p r]⟩

def HIF_P_CR_HEAD_HEAD (p r : Nat) : Fld := ⟨0xA01110 + 0x200 * p + 0x20 * r, 0, 16, .ro, .stored 0⟩
/-- HIF_P_CR_HEAD, field map of chapter 14: 4 bytes. -/
def HIF_P_CR_HEAD (p r : Nat) : Reg := ⟨0xA01110 + 0x200 * p + 0x20 * r, 4, [HIF_P_CR_HEAD_HEAD p r]⟩

end Sys2Proof.Machine
end

