-- ==== Sys2Proof/Machine/RegsSch.lean ====
section
/-!
DEFINITION. The field maps of the SCH_ registers, in the order of the spec's chapters, one definition per field and one per register.
-/
namespace Sys2Proof.Machine

def SCH_NW_PCTRL_SAMPLE_LOG2 (p : Nat) : Fld := ⟨0x10F000 + 0x40 * p, 8, 5, .rw, .stored 0⟩
def SCH_NW_PCTRL_GN_ENABLE (p : Nat) : Fld := ⟨0x10F000 + 0x40 * p, 1, 1, .rw, .stored 0⟩
def SCH_NW_PCTRL_ENABLE (p : Nat) : Fld := ⟨0x10F000 + 0x40 * p, 0, 1, .rw, .stored 0⟩
/-- SCH_NW_PCTRL, field map of chapter 04: 4 bytes. -/
def SCH_NW_PCTRL (p : Nat) : Reg := ⟨0x10F000 + 0x40 * p, 4, [SCH_NW_PCTRL_SAMPLE_LOG2 p, SCH_NW_PCTRL_GN_ENABLE p, SCH_NW_PCTRL_ENABLE p]⟩

def SCH_NW_PSTATUS_IDLE (p : Nat) : Fld := ⟨0x10F004 + 0x40 * p, 31, 1, .ro, .stored 1⟩
def SCH_NW_PSTATUS_RING_FULL (p : Nat) : Fld := ⟨0x10F004 + 0x40 * p, 30, 1, .w1c, .stored 0⟩
def SCH_NW_PSTATUS_AREA_FAULT (p : Nat) : Fld := ⟨0x10F004 + 0x40 * p, 29, 1, .w1c, .stored 0⟩
/-- SCH_NW_PSTATUS, field map of chapter 04: 4 bytes. -/
def SCH_NW_PSTATUS (p : Nat) : Reg := ⟨0x10F004 + 0x40 * p, 4, [SCH_NW_PSTATUS_IDLE p, SCH_NW_PSTATUS_RING_FULL p, SCH_NW_PSTATUS_AREA_FAULT p]⟩

def SCH_NW_TABLE_BASE (p : Nat) : Fld := ⟨0x10F008 + 0x40 * p, 9, 55, .rw, .stored 0⟩
/-- SCH_NW_TABLE, field map of chapter 04: 8 bytes. -/
def SCH_NW_TABLE (p : Nat) : Reg := ⟨0x10F008 + 0x40 * p, 8, [SCH_NW_TABLE_BASE p]⟩

def SCH_NW_ENTRIES_COUNT (p : Nat) : Fld := ⟨0x10F010 + 0x40 * p, 0, 16, .rw, .stored 0⟩
/-- SCH_NW_ENTRIES, field map of chapter 04: 4 bytes. -/
def SCH_NW_ENTRIES (p : Nat) : Reg := ⟨0x10F010 + 0x40 * p, 4, [SCH_NW_ENTRIES_COUNT p]⟩

def SCH_NW_RING_BASE (p : Nat) : Fld := ⟨0x10F018 + 0x40 * p, 8, 56, .rw, .stored 0⟩
/-- SCH_NW_RING, field map of chapter 04: 8 bytes. -/
def SCH_NW_RING (p : Nat) : Reg := ⟨0x10F018 + 0x40 * p, 8, [SCH_NW_RING_BASE p]⟩

def SCH_NW_RING_SIZE_SIZE_LOG2 (p : Nat) : Fld := ⟨0x10F020 + 0x40 * p, 0, 5, .rw, .stored 8⟩
/-- SCH_NW_RING_SIZE, field map of chapter 04: 4 bytes. -/
def SCH_NW_RING_SIZE (p : Nat) : Reg := ⟨0x10F020 + 0x40 * p, 4, [SCH_NW_RING_SIZE_SIZE_LOG2 p]⟩

def SCH_NW_RING_HEAD_HEAD (p : Nat) : Fld := ⟨0x10F024 + 0x40 * p, 0, 21, .ro, .stored 0⟩
/-- SCH_NW_RING_HEAD, field map of chapter 04: 4 bytes. -/
def SCH_NW_RING_HEAD (p : Nat) : Reg := ⟨0x10F024 + 0x40 * p, 4, [SCH_NW_RING_HEAD_HEAD p]⟩

def SCH_NW_RING_TAIL_TAIL (p : Nat) : Fld := ⟨0x10F028 + 0x40 * p, 0, 21, .rw, .stored 0⟩
/-- SCH_NW_RING_TAIL, field map of chapter 04: 4 bytes. -/
def SCH_NW_RING_TAIL (p : Nat) : Reg := ⟨0x10F028 + 0x40 * p, 4, [SCH_NW_RING_TAIL_TAIL p]⟩

def SCH_NW_LAST_STEP_STEP (p : Nat) : Fld := ⟨0x10F02C + 0x40 * p, 0, 32, .ro, .stored 0⟩
/-- SCH_NW_LAST_STEP, field map of chapter 04: 4 bytes. -/
def SCH_NW_LAST_STEP (p : Nat) : Reg := ⟨0x10F02C + 0x40 * p, 4, [SCH_NW_LAST_STEP_STEP p]⟩

def SCH_NW_DROPPED_COUNT (p : Nat) : Fld := ⟨0x10F030 + 0x40 * p, 0, 32, .ro, .stored 0⟩
/-- SCH_NW_DROPPED, field map of chapter 04: 4 bytes. -/
def SCH_NW_DROPPED (p : Nat) : Reg := ⟨0x10F030 + 0x40 * p, 4, [SCH_NW_DROPPED_COUNT p]⟩

def SCH_NW_UNTABLED_COUNT (p : Nat) : Fld := ⟨0x10F034 + 0x40 * p, 0, 32, .ro, .stored 0⟩
/-- SCH_NW_UNTABLED, field map of chapter 04: 4 bytes. -/
def SCH_NW_UNTABLED (p : Nat) : Reg := ⟨0x10F034 + 0x40 * p, 4, [SCH_NW_UNTABLED_COUNT p]⟩

def SCH_PCTRL_RETRIES (p : Nat) : Fld := ⟨0x100000 + 0x100 * p, 1, 3, .rw, .stored 1⟩
def SCH_PCTRL_ENABLE (p : Nat) : Fld := ⟨0x100000 + 0x100 * p, 0, 1, .rw, .stored 0⟩
/-- SCH_PCTRL, field map of chapter 08: 4 bytes. -/
def SCH_PCTRL (p : Nat) : Reg := ⟨0x100000 + 0x100 * p, 4, [SCH_PCTRL_RETRIES p, SCH_PCTRL_ENABLE p]⟩

def SCH_PSTATUS_IDLE (p : Nat) : Fld := ⟨0x100004 + 0x100 * p, 31, 1, .ro, .view (.SCH_PSTATUS_IDLE p)⟩
def SCH_PSTATUS_HOTSET (p : Nat) : Fld := ⟨0x100004 + 0x100 * p, 30, 1, .ro, .view (.SCH_PSTATUS_HOTSET p)⟩
def SCH_PSTATUS_PAGING_STALLED (p : Nat) : Fld := ⟨0x100004 + 0x100 * p, 29, 1, .w1c, .stored 0⟩
def SCH_PSTATUS_TILES_FREE (p : Nat) : Fld := ⟨0x100004 + 0x100 * p, 16, 8, .ro, .view (.SCH_PSTATUS_TILES_FREE p)⟩
def SCH_PSTATUS_RUNNING (p : Nat) : Fld := ⟨0x100004 + 0x100 * p, 8, 8, .ro, .view (.SCH_PSTATUS_RUNNING p)⟩
def SCH_PSTATUS_SPILLED (p : Nat) : Fld := ⟨0x100004 + 0x100 * p, 0, 8, .ro, .view (.SCH_PSTATUS_SPILLED p)⟩
/-- SCH_PSTATUS, field map of chapter 08: 4 bytes. -/
def SCH_PSTATUS (p : Nat) : Reg := ⟨0x100004 + 0x100 * p, 4, [SCH_PSTATUS_IDLE p, SCH_PSTATUS_HOTSET p, SCH_PSTATUS_PAGING_STALLED p, SCH_PSTATUS_TILES_FREE p, SCH_PSTATUS_RUNNING p, SCH_PSTATUS_SPILLED p]⟩

def SCH_MODEL_BASE_BASE (p : Nat) : Fld := ⟨0x100008 + 0x100 * p, 8, 56, .rw, .stored 0⟩
/-- SCH_MODEL_BASE, field map of chapter 08: 8 bytes. -/
def SCH_MODEL_BASE (p : Nat) : Reg := ⟨0x100008 + 0x100 * p, 8, [SCH_MODEL_BASE_BASE p]⟩

def SCH_TSET_BASE_BASE (p : Nat) : Fld := ⟨0x100010 + 0x100 * p, 9, 55, .rw, .stored 0⟩
/-- SCH_TSET_BASE, field map of chapter 08: 8 bytes. -/
def SCH_TSET_BASE (p : Nat) : Reg := ⟨0x100010 + 0x100 * p, 8, [SCH_TSET_BASE_BASE p]⟩

def SCH_REGION_BASE_BASE (p : Nat) : Fld := ⟨0x100018 + 0x100 * p, 6, 58, .rw, .stored 0⟩
/-- SCH_REGION_BASE, field map of chapter 08: 8 bytes. -/
def SCH_REGION_BASE (p : Nat) : Reg := ⟨0x100018 + 0x100 * p, 8, [SCH_REGION_BASE_BASE p]⟩

def SCH_HOTSET_BASE_BASE (p : Nat) : Fld := ⟨0x100020 + 0x100 * p, 21, 43, .rw, .stored 0⟩
/-- SCH_HOTSET_BASE, field map of chapter 08: 8 bytes. -/
def SCH_HOTSET_BASE (p : Nat) : Reg := ⟨0x100020 + 0x100 * p, 8, [SCH_HOTSET_BASE_BASE p]⟩

def SCH_HOTSET_SIZE_PAGES (p : Nat) : Fld := ⟨0x100028 + 0x100 * p, 0, 32, .rw, .stored 0⟩
/-- SCH_HOTSET_SIZE, field map of chapter 08: 4 bytes. -/
def SCH_HOTSET_SIZE (p : Nat) : Reg := ⟨0x100028 + 0x100 * p, 4, [SCH_HOTSET_SIZE_PAGES p]⟩

def SCH_PAGE_FRAMES_BASE (p : Nat) : Fld := ⟨0x100030 + 0x100 * p, 21, 43, .rw, .stored 0⟩
/-- SCH_PAGE_FRAMES, field map of chapter 08: 8 bytes. -/
def SCH_PAGE_FRAMES (p : Nat) : Reg := ⟨0x100030 + 0x100 * p, 8, [SCH_PAGE_FRAMES_BASE p]⟩

def SCH_PAGE_CFG_FRAMES (p : Nat) : Fld := ⟨0x100038 + 0x100 * p, 32, 32, .rw, .stored 0⟩
def SCH_PAGE_CFG_PAGES (p : Nat) : Fld := ⟨0x100038 + 0x100 * p, 0, 32, .rw, .stored 0⟩
/-- SCH_PAGE_CFG, field map of chapter 08: 8 bytes. -/
def SCH_PAGE_CFG (p : Nat) : Reg := ⟨0x100038 + 0x100 * p, 8, [SCH_PAGE_CFG_FRAMES p, SCH_PAGE_CFG_PAGES p]⟩

def SCH_PAGE_TABLE_BASE (p : Nat) : Fld := ⟨0x100040 + 0x100 * p, 12, 52, .rw, .stored 0⟩
/-- SCH_PAGE_TABLE, field map of chapter 08: 8 bytes. -/
def SCH_PAGE_TABLE (p : Nat) : Reg := ⟨0x100040 + 0x100 * p, 8, [SCH_PAGE_TABLE_BASE p]⟩

def SCH_PAGE_HOST_BASE (p : Nat) : Fld := ⟨0x100048 + 0x100 * p, 21, 43, .rw, .stored 0⟩
/-- SCH_PAGE_HOST, field map of chapter 08: 8 bytes. -/
def SCH_PAGE_HOST (p : Nat) : Reg := ⟨0x100048 + 0x100 * p, 8, [SCH_PAGE_HOST_BASE p]⟩

def SCH_SPILL_SLOTS_USED (p : Nat) : Fld := ⟨0x100050 + 0x100 * p, 16, 16, .ro, .view (.SCH_SPILL_SLOTS_USED p)⟩
def SCH_SPILL_SLOTS_TOTAL (p : Nat) : Fld := ⟨0x100050 + 0x100 * p, 0, 16, .ro, .view (.SCH_SPILL_SLOTS_TOTAL p)⟩
/-- SCH_SPILL_SLOTS, field map of chapter 08: 4 bytes. -/
def SCH_SPILL_SLOTS (p : Nat) : Reg := ⟨0x100050 + 0x100 * p, 4, [SCH_SPILL_SLOTS_USED p, SCH_SPILL_SLOTS_TOTAL p]⟩

def SCH_PREEMPTS_COUNT (p : Nat) : Fld := ⟨0x100054 + 0x100 * p, 0, 32, .ro, .stored 0⟩
/-- SCH_PREEMPTS, field map of chapter 08: 4 bytes. -/
def SCH_PREEMPTS (p : Nat) : Reg := ⟨0x100054 + 0x100 * p, 4, [SCH_PREEMPTS_COUNT p]⟩

def SCH_PAGE_INS_COUNT (p : Nat) : Fld := ⟨0x100058 + 0x100 * p, 0, 32, .ro, .stored 0⟩
/-- SCH_PAGE_INS, field map of chapter 08: 4 bytes. -/
def SCH_PAGE_INS (p : Nat) : Reg := ⟨0x100058 + 0x100 * p, 4, [SCH_PAGE_INS_COUNT p]⟩

def SCH_DEMAND_FAULTS_COUNT (p : Nat) : Fld := ⟨0x10005C + 0x100 * p, 0, 32, .ro, .stored 0⟩
/-- SCH_DEMAND_FAULTS, field map of chapter 08: 4 bytes. -/
def SCH_DEMAND_FAULTS (p : Nat) : Reg := ⟨0x10005C + 0x100 * p, 4, [SCH_DEMAND_FAULTS_COUNT p]⟩

def SCH_FAULT_VALID (p : Nat) : Fld := ⟨0x100060 + 0x100 * p, 31, 1, .w1c, .stored 0⟩
def SCH_FAULT_OVERFLOW (p : Nat) : Fld := ⟨0x100060 + 0x100 * p, 30, 1, .w1c, .stored 0⟩
def SCH_FAULT_CODE (p : Nat) : Fld := ⟨0x100060 + 0x100 * p, 0, 8, .ro, .stored 0⟩
/-- SCH_FAULT, field map of chapter 08: 4 bytes. -/
def SCH_FAULT (p : Nat) : Reg := ⟨0x100060 + 0x100 * p, 4, [SCH_FAULT_VALID p, SCH_FAULT_OVERFLOW p, SCH_FAULT_CODE p]⟩

def SCH_FAULT_TASK_TASK_ID (p : Nat) : Fld := ⟨0x100068 + 0x100 * p, 0, 64, .ro, .stored 0⟩
/-- SCH_FAULT_TASK, field map of chapter 08: 8 bytes. -/
def SCH_FAULT_TASK (p : Nat) : Reg := ⟨0x100068 + 0x100 * p, 8, [SCH_FAULT_TASK_TASK_ID p]⟩

def SCH_SIG_VALUE (p n : Nat) : Fld := ⟨0x101000 + 0x400 * p + 0x4 * n, 0, 32, .rw, .stored 0⟩
/-- SCH_SIG, field map of chapter 08: 4 bytes. -/
def SCH_SIG (p n : Nat) : Reg := ⟨0x101000 + 0x400 * p + 0x4 * n, 4, [SCH_SIG_VALUE p n]⟩

def SCH_TILE_STATE_STATE (i : Nat) : Fld := ⟨0x108000 + 0x4 * i, 29, 3, .ro, .view (.SCH_TILE_STATE_STATE i)⟩
def SCH_TILE_STATE_PARTITION (i : Nat) : Fld := ⟨0x108000 + 0x4 * i, 25, 4, .ro, .view (.SCH_TILE_STATE_PARTITION i)⟩
def SCH_TILE_STATE_LEVEL (i : Nat) : Fld := ⟨0x108000 + 0x4 * i, 22, 3, .ro, .view (.SCH_TILE_STATE_LEVEL i)⟩
def SCH_TILE_STATE_PHASE (i : Nat) : Fld := ⟨0x108000 + 0x4 * i, 16, 6, .ro, .view (.SCH_TILE_STATE_PHASE i)⟩
def SCH_TILE_STATE_SLOT (i : Nat) : Fld := ⟨0x108000 + 0x4 * i, 0, 16, .ro, .view (.SCH_TILE_STATE_SLOT i)⟩
/-- SCH_TILE_STATE, field map of chapter 08: 4 bytes. -/
def SCH_TILE_STATE (i : Nat) : Reg := ⟨0x108000 + 0x4 * i, 4, [SCH_TILE_STATE_STATE i, SCH_TILE_STATE_PARTITION i, SCH_TILE_STATE_LEVEL i, SCH_TILE_STATE_PHASE i, SCH_TILE_STATE_SLOT i]⟩

def SCH_SQ_CTRL_RESUME (p : Nat) : Fld := ⟨0x10C000 + 0x100 * p, 4, 1, .wo, .stored 0⟩
def SCH_SQ_CTRL_CANCEL (p : Nat) : Fld := ⟨0x10C000 + 0x100 * p, 3, 1, .wo, .stored 0⟩
def SCH_SQ_CTRL_PLAN (p : Nat) : Fld := ⟨0x10C000 + 0x100 * p, 2, 1, .wo, .stored 0⟩
def SCH_SQ_CTRL_JOIN (p : Nat) : Fld := ⟨0x10C000 + 0x100 * p, 1, 1, .wo, .stored 0⟩
def SCH_SQ_CTRL_ENABLE (p : Nat) : Fld := ⟨0x10C000 + 0x100 * p, 0, 1, .rw, .stored 0⟩
/-- SCH_SQ_CTRL, field map of chapter 09: 4 bytes. -/
def SCH_SQ_CTRL (p : Nat) : Reg := ⟨0x10C000 + 0x100 * p, 4, [SCH_SQ_CTRL_RESUME p, SCH_SQ_CTRL_CANCEL p, SCH_SQ_CTRL_PLAN p, SCH_SQ_CTRL_JOIN p, SCH_SQ_CTRL_ENABLE p]⟩

def SCH_SQ_STATUS_FORMED (p : Nat) : Fld := ⟨0x10C004 + 0x100 * p, 31, 1, .ro, .stored 0⟩
def SCH_SQ_STATUS_RUNNING (p : Nat) : Fld := ⟨0x10C004 + 0x100 * p, 30, 1, .ro, .stored 0⟩
def SCH_SQ_STATUS_STALLED (p : Nat) : Fld := ⟨0x10C004 + 0x100 * p, 29, 1, .w1c, .stored 0⟩
def SCH_SQ_STATUS_MIGRATING (p : Nat) : Fld := ⟨0x10C004 + 0x100 * p, 28, 1, .ro, .stored 0⟩
def SCH_SQ_STATUS_PLAN_BUSY (p : Nat) : Fld := ⟨0x10C004 + 0x100 * p, 27, 1, .ro, .stored 0⟩
def SCH_SQ_STATUS_HALTED (p : Nat) : Fld := ⟨0x10C004 + 0x100 * p, 26, 1, .ro, .stored 0⟩
def SCH_SQ_STATUS_PLAN_CODE (p : Nat) : Fld := ⟨0x10C004 + 0x100 * p, 8, 8, .ro, .stored 0⟩
def SCH_SQ_STATUS_JOINED (p : Nat) : Fld := ⟨0x10C004 + 0x100 * p, 0, 8, .ro, .stored 0⟩
/-- SCH_SQ_STATUS, field map of chapter 09: 4 bytes. -/
def SCH_SQ_STATUS (p : Nat) : Reg := ⟨0x10C004 + 0x100 * p, 4, [SCH_SQ_STATUS_FORMED p, SCH_SQ_STATUS_RUNNING p, SCH_SQ_STATUS_STALLED p, SCH_SQ_STATUS_MIGRATING p, SCH_SQ_STATUS_PLAN_BUSY p, SCH_SQ_STATUS_HALTED p, SCH_SQ_STATUS_PLAN_CODE p, SCH_SQ_STATUS_JOINED p]⟩

def SCH_SQ_BUNTING_BASE (p : Nat) : Fld := ⟨0x10C008 + 0x100 * p, 5, 59, .rw, .stored 0⟩
/-- SCH_SQ_BUNTING, field map of chapter 09: 8 bytes. -/
def SCH_SQ_BUNTING (p : Nat) : Reg := ⟨0x10C008 + 0x100 * p, 8, [SCH_SQ_BUNTING_BASE p]⟩

def SCH_SQ_TABLE_BASE (p n : Nat) : Fld := ⟨0x10C010 + 0x100 * p + 0x8 * n, 6, 58, .rw, .stored 0⟩
/-- SCH_SQ_TABLE, field map of chapter 09: 8 bytes. -/
def SCH_SQ_TABLE (p n : Nat) : Reg := ⟨0x10C010 + 0x100 * p + 0x8 * n, 8, [SCH_SQ_TABLE_BASE p n]⟩

def SCH_SQ_PLAN_BASE (p : Nat) : Fld := ⟨0x10C020 + 0x100 * p, 11, 53, .rw, .stored 0⟩
/-- SCH_SQ_PLAN, field map of chapter 09: 8 bytes. -/
def SCH_SQ_PLAN (p : Nat) : Reg := ⟨0x10C020 + 0x100 * p, 8, [SCH_SQ_PLAN_BASE p]⟩

def SCH_SQ_STEP_STEP (p : Nat) : Fld := ⟨0x10C028 + 0x100 * p, 0, 32, .rw, .stored 0⟩
/-- SCH_SQ_STEP, field map of chapter 09: 4 bytes. -/
def SCH_SQ_STEP (p : Nat) : Reg := ⟨0x10C028 + 0x100 * p, 4, [SCH_SQ_STEP_STEP p]⟩

def SCH_SQ_EPOCH_SLOT (p : Nat) : Fld := ⟨0x10C02C + 0x100 * p, 31, 1, .ro, .stored 0⟩
def SCH_SQ_EPOCH_EPOCH (p : Nat) : Fld := ⟨0x10C02C + 0x100 * p, 0, 16, .ro, .stored 0⟩
/-- SCH_SQ_EPOCH, field map of chapter 09: 4 bytes. -/
def SCH_SQ_EPOCH (p : Nat) : Reg := ⟨0x10C02C + 0x100 * p, 4, [SCH_SQ_EPOCH_SLOT p, SCH_SQ_EPOCH_EPOCH p]⟩

def SCH_SQ_NEXT_REQ (p : Nat) : Fld := ⟨0x10C030 + 0x100 * p, 31, 1, .rw, .stored 0⟩
def SCH_SQ_NEXT_SLOT (p : Nat) : Fld := ⟨0x10C030 + 0x100 * p, 30, 1, .rw, .stored 0⟩
def SCH_SQ_NEXT_EPOCH (p : Nat) : Fld := ⟨0x10C030 + 0x100 * p, 0, 16, .rw, .stored 0⟩
/-- SCH_SQ_NEXT, field map of chapter 09: 4 bytes. -/
def SCH_SQ_NEXT (p : Nat) : Reg := ⟨0x10C030 + 0x100 * p, 4, [SCH_SQ_NEXT_REQ p, SCH_SQ_NEXT_SLOT p, SCH_SQ_NEXT_EPOCH p]⟩

def SCH_SQ_POS_NEXT (p : Nat) : Fld := ⟨0x10C034 + 0x100 * p, 0, 21, .ro, .stored 0⟩
/-- SCH_SQ_POS, field map of chapter 09: 4 bytes. -/
def SCH_SQ_POS (p : Nat) : Reg := ⟨0x10C034 + 0x100 * p, 4, [SCH_SQ_POS_NEXT p]⟩

def SCH_SQ_INFLIGHT_COUNT (p : Nat) : Fld := ⟨0x10C038 + 0x100 * p, 0, 9, .ro, .stored 0⟩
/-- SCH_SQ_INFLIGHT, field map of chapter 09: 4 bytes. -/
def SCH_SQ_INFLIGHT (p : Nat) : Reg := ⟨0x10C038 + 0x100 * p, 4, [SCH_SQ_INFLIGHT_COUNT p]⟩

def SCH_SQ_MOVED_COUNT (p : Nat) : Fld := ⟨0x10C03C + 0x100 * p, 0, 32, .ro, .stored 0⟩
/-- SCH_SQ_MOVED, field map of chapter 09: 4 bytes. -/
def SCH_SQ_MOVED (p : Nat) : Reg := ⟨0x10C03C + 0x100 * p, 4, [SCH_SQ_MOVED_COUNT p]⟩

def SCH_SQ_IDLECYC_CYCLES (p : Nat) : Fld := ⟨0x10C040 + 0x100 * p, 0, 64, .ro, .stored 0⟩
/-- SCH_SQ_IDLECYC, field map of chapter 09: 8 bytes. -/
def SCH_SQ_IDLECYC (p : Nat) : Reg := ⟨0x10C040 + 0x100 * p, 8, [SCH_SQ_IDLECYC_CYCLES p]⟩

def SCH_SQ_FAULT_VALID (p : Nat) : Fld := ⟨0x10C048 + 0x100 * p, 31, 1, .w1c, .stored 0⟩
def SCH_SQ_FAULT_OVERFLOW (p : Nat) : Fld := ⟨0x10C048 + 0x100 * p, 30, 1, .w1c, .stored 0⟩
def SCH_SQ_FAULT_CODE (p : Nat) : Fld := ⟨0x10C048 + 0x100 * p, 0, 8, .ro, .stored 0⟩
/-- SCH_SQ_FAULT, field map of chapter 09: 4 bytes. -/
def SCH_SQ_FAULT (p : Nat) : Reg := ⟨0x10C048 + 0x100 * p, 4, [SCH_SQ_FAULT_VALID p, SCH_SQ_FAULT_OVERFLOW p, SCH_SQ_FAULT_CODE p]⟩

def SCH_SQ_FAULT_ENTRY_ENTRY (p : Nat) : Fld := ⟨0x10C04C + 0x100 * p, 0, 21, .ro, .stored 0⟩
/-- SCH_SQ_FAULT_ENTRY, field map of chapter 09: 4 bytes. -/
def SCH_SQ_FAULT_ENTRY (p : Nat) : Reg := ⟨0x10C04C + 0x100 * p, 4, [SCH_SQ_FAULT_ENTRY_ENTRY p]⟩

end Sys2Proof.Machine
end

