-- ==== Sys2Proof/Machine/RegsTil.lean ====
section
/-!
DEFINITION. The field maps of the TIL_, LIG_, PAL_ registers, in the order of the spec's chapters, one definition per field and one per register.
-/
namespace Sys2Proof.Machine

def TIL_MX_CTRL_RESUME (t : Nat) : Fld := ⟨0x1000100 + 0x10000 * t, 2, 1, .wo, .stored 0⟩
def TIL_MX_CTRL_ABORT (t : Nat) : Fld := ⟨0x1000100 + 0x10000 * t, 1, 1, .wo, .stored 0⟩
def TIL_MX_CTRL_ENABLE (t : Nat) : Fld := ⟨0x1000100 + 0x10000 * t, 0, 1, .rw, .stored 0⟩
/-- TIL_MX_CTRL, field map of chapter 03: 4 bytes. -/
def TIL_MX_CTRL (t : Nat) : Reg := ⟨0x1000100 + 0x10000 * t, 4, [TIL_MX_CTRL_RESUME t, TIL_MX_CTRL_ABORT t, TIL_MX_CTRL_ENABLE t]⟩

def TIL_MX_RING_BASE (t : Nat) : Fld := ⟨0x1000104 + 0x10000 * t, 6, 16, .rw, .stored 0⟩
def TIL_MX_RING_SIZE_LOG2 (t : Nat) : Fld := ⟨0x1000104 + 0x10000 * t, 0, 4, .rw, .stored 2⟩
/-- TIL_MX_RING, field map of chapter 03: 4 bytes. -/
def TIL_MX_RING (t : Nat) : Reg := ⟨0x1000104 + 0x10000 * t, 4, [TIL_MX_RING_BASE t, TIL_MX_RING_SIZE_LOG2 t]⟩

def TIL_MX_HEAD_HEAD (t : Nat) : Fld := ⟨0x1000108 + 0x10000 * t, 0, 11, .ro, .stored 0⟩
/-- TIL_MX_HEAD, field map of chapter 03: 4 bytes. -/
def TIL_MX_HEAD (t : Nat) : Reg := ⟨0x1000108 + 0x10000 * t, 4, [TIL_MX_HEAD_HEAD t]⟩

def TIL_MX_TAIL_TAIL (t : Nat) : Fld := ⟨0x100010C + 0x10000 * t, 0, 11, .rw, .stored 0⟩
/-- TIL_MX_TAIL, field map of chapter 03: 4 bytes. -/
def TIL_MX_TAIL (t : Nat) : Reg := ⟨0x100010C + 0x10000 * t, 4, [TIL_MX_TAIL_TAIL t]⟩

def TIL_MX_STATUS_BUSY (t : Nat) : Fld := ⟨0x1000110 + 0x10000 * t, 31, 1, .ro, .stored 0⟩
def TIL_MX_STATUS_HALTED (t : Nat) : Fld := ⟨0x1000110 + 0x10000 * t, 30, 1, .ro, .stored 0⟩
def TIL_MX_STATUS_SAVED (t : Nat) : Fld := ⟨0x1000110 + 0x10000 * t, 29, 1, .ro, .stored 0⟩
def TIL_MX_STATUS_BANK (t : Nat) : Fld := ⟨0x1000110 + 0x10000 * t, 28, 1, .ro, .stored 0⟩
/-- TIL_MX_STATUS, field map of chapter 03: 4 bytes. -/
def TIL_MX_STATUS (t : Nat) : Reg := ⟨0x1000110 + 0x10000 * t, 4, [TIL_MX_STATUS_BUSY t, TIL_MX_STATUS_HALTED t, TIL_MX_STATUS_SAVED t, TIL_MX_STATUS_BANK t]⟩

def TIL_MX_FAULT_VALID (t : Nat) : Fld := ⟨0x1000114 + 0x10000 * t, 31, 1, .w1c, .stored 0⟩
def TIL_MX_FAULT_INDEX (t : Nat) : Fld := ⟨0x1000114 + 0x10000 * t, 8, 11, .ro, .stored 0⟩
def TIL_MX_FAULT_CODE (t : Nat) : Fld := ⟨0x1000114 + 0x10000 * t, 0, 8, .ro, .stored 0⟩
/-- TIL_MX_FAULT, field map of chapter 03: 4 bytes. -/
def TIL_MX_FAULT (t : Nat) : Reg := ⟨0x1000114 + 0x10000 * t, 4, [TIL_MX_FAULT_VALID t, TIL_MX_FAULT_INDEX t, TIL_MX_FAULT_CODE t]⟩

def TIL_MX_DONE_COUNT (t : Nat) : Fld := ⟨0x1000118 + 0x10000 * t, 0, 32, .ro, .stored 0⟩
/-- TIL_MX_DONE, field map of chapter 03: 4 bytes. -/
def TIL_MX_DONE (t : Nat) : Reg := ⟨0x1000118 + 0x10000 * t, 4, [TIL_MX_DONE_COUNT t]⟩

def TIL_MX_BUSYCYC_CYCLES (t : Nat) : Fld := ⟨0x1000120 + 0x10000 * t, 0, 64, .ro, .stored 0⟩
/-- TIL_MX_BUSYCYC, field map of chapter 03: 8 bytes. -/
def TIL_MX_BUSYCYC (t : Nat) : Reg := ⟨0x1000120 + 0x10000 * t, 8, [TIL_MX_BUSYCYC_CYCLES t]⟩

def TIL_NB_CTRL_RESUME (t : Nat) : Fld := ⟨0x1000200 + 0x10000 * t, 2, 1, .wo, .stored 0⟩
def TIL_NB_CTRL_ABORT (t : Nat) : Fld := ⟨0x1000200 + 0x10000 * t, 1, 1, .wo, .stored 0⟩
def TIL_NB_CTRL_ENABLE (t : Nat) : Fld := ⟨0x1000200 + 0x10000 * t, 0, 1, .rw, .stored 0⟩
/-- TIL_NB_CTRL, field map of chapter 05: 4 bytes. -/
def TIL_NB_CTRL (t : Nat) : Reg := ⟨0x1000200 + 0x10000 * t, 4, [TIL_NB_CTRL_RESUME t, TIL_NB_CTRL_ABORT t, TIL_NB_CTRL_ENABLE t]⟩

def TIL_NB_RING_BASE (t : Nat) : Fld := ⟨0x1000204 + 0x10000 * t, 6, 16, .rw, .stored 0⟩
def TIL_NB_RING_SIZE_LOG2 (t : Nat) : Fld := ⟨0x1000204 + 0x10000 * t, 0, 4, .rw, .stored 2⟩
/-- TIL_NB_RING, field map of chapter 05: 4 bytes. -/
def TIL_NB_RING (t : Nat) : Reg := ⟨0x1000204 + 0x10000 * t, 4, [TIL_NB_RING_BASE t, TIL_NB_RING_SIZE_LOG2 t]⟩

def TIL_NB_HEAD_HEAD (t : Nat) : Fld := ⟨0x1000208 + 0x10000 * t, 0, 11, .ro, .stored 0⟩
/-- TIL_NB_HEAD, field map of chapter 05: 4 bytes. -/
def TIL_NB_HEAD (t : Nat) : Reg := ⟨0x1000208 + 0x10000 * t, 4, [TIL_NB_HEAD_HEAD t]⟩

def TIL_NB_TAIL_TAIL (t : Nat) : Fld := ⟨0x100020C + 0x10000 * t, 0, 11, .rw, .stored 0⟩
/-- TIL_NB_TAIL, field map of chapter 05: 4 bytes. -/
def TIL_NB_TAIL (t : Nat) : Reg := ⟨0x100020C + 0x10000 * t, 4, [TIL_NB_TAIL_TAIL t]⟩

def TIL_NB_STATUS_BUSY (t : Nat) : Fld := ⟨0x1000210 + 0x10000 * t, 31, 1, .ro, .stored 0⟩
def TIL_NB_STATUS_HALTED (t : Nat) : Fld := ⟨0x1000210 + 0x10000 * t, 30, 1, .ro, .stored 0⟩
def TIL_NB_STATUS_WAITING (t : Nat) : Fld := ⟨0x1000210 + 0x10000 * t, 29, 1, .ro, .stored 0⟩
def TIL_NB_STATUS_SAVED (t : Nat) : Fld := ⟨0x1000210 + 0x10000 * t, 28, 1, .ro, .stored 0⟩
/-- TIL_NB_STATUS, field map of chapter 05: 4 bytes. -/
def TIL_NB_STATUS (t : Nat) : Reg := ⟨0x1000210 + 0x10000 * t, 4, [TIL_NB_STATUS_BUSY t, TIL_NB_STATUS_HALTED t, TIL_NB_STATUS_WAITING t, TIL_NB_STATUS_SAVED t]⟩

def TIL_NB_FAULT_VALID (t : Nat) : Fld := ⟨0x1000214 + 0x10000 * t, 31, 1, .w1c, .stored 0⟩
def TIL_NB_FAULT_INDEX (t : Nat) : Fld := ⟨0x1000214 + 0x10000 * t, 8, 11, .ro, .stored 0⟩
def TIL_NB_FAULT_CODE (t : Nat) : Fld := ⟨0x1000214 + 0x10000 * t, 0, 8, .ro, .stored 0⟩
/-- TIL_NB_FAULT, field map of chapter 05: 4 bytes. -/
def TIL_NB_FAULT (t : Nat) : Reg := ⟨0x1000214 + 0x10000 * t, 4, [TIL_NB_FAULT_VALID t, TIL_NB_FAULT_INDEX t, TIL_NB_FAULT_CODE t]⟩

def TIL_NB_DONE_COUNT (t : Nat) : Fld := ⟨0x1000218 + 0x10000 * t, 0, 32, .ro, .stored 0⟩
/-- TIL_NB_DONE, field map of chapter 05: 4 bytes. -/
def TIL_NB_DONE (t : Nat) : Reg := ⟨0x1000218 + 0x10000 * t, 4, [TIL_NB_DONE_COUNT t]⟩

def TIL_NB_ET5_WINDOW_BASE (t : Nat) : Fld := ⟨0x100021C + 0x10000 * t, 17, 5, .rw, .stored 0⟩
/-- TIL_NB_ET5_WINDOW, field map of chapter 05: 4 bytes. -/
def TIL_NB_ET5_WINDOW (t : Nat) : Reg := ⟨0x100021C + 0x10000 * t, 4, [TIL_NB_ET5_WINDOW_BASE t]⟩

def TIL_SM_CTRL_RESUME (t n : Nat) : Fld := ⟨0x1000300 + 0x10000 * t + 0x20 * n, 2, 1, .wo, .stored 0⟩
def TIL_SM_CTRL_ABORT (t n : Nat) : Fld := ⟨0x1000300 + 0x10000 * t + 0x20 * n, 1, 1, .wo, .stored 0⟩
def TIL_SM_CTRL_ENABLE (t n : Nat) : Fld := ⟨0x1000300 + 0x10000 * t + 0x20 * n, 0, 1, .rw, .stored 0⟩
/-- TIL_SM_CTRL, field map of chapter 05: 4 bytes. -/
def TIL_SM_CTRL (t n : Nat) : Reg := ⟨0x1000300 + 0x10000 * t + 0x20 * n, 4, [TIL_SM_CTRL_RESUME t n, TIL_SM_CTRL_ABORT t n, TIL_SM_CTRL_ENABLE t n]⟩

def TIL_SM_RING_BASE (t n : Nat) : Fld := ⟨0x1000304 + 0x10000 * t + 0x20 * n, 7, 15, .rw, .stored 0⟩
def TIL_SM_RING_SIZE_LOG2 (t n : Nat) : Fld := ⟨0x1000304 + 0x10000 * t + 0x20 * n, 0, 4, .rw, .stored 2⟩
/-- TIL_SM_RING, field map of chapter 05: 4 bytes. -/
def TIL_SM_RING (t n : Nat) : Reg := ⟨0x1000304 + 0x10000 * t + 0x20 * n, 4, [TIL_SM_RING_BASE t n, TIL_SM_RING_SIZE_LOG2 t n]⟩

def TIL_SM_HEAD_HEAD (t n : Nat) : Fld := ⟨0x1000308 + 0x10000 * t + 0x20 * n, 0, 9, .ro, .stored 0⟩
/-- TIL_SM_HEAD, field map of chapter 05: 4 bytes. -/
def TIL_SM_HEAD (t n : Nat) : Reg := ⟨0x1000308 + 0x10000 * t + 0x20 * n, 4, [TIL_SM_HEAD_HEAD t n]⟩

def TIL_SM_TAIL_TAIL (t n : Nat) : Fld := ⟨0x100030C + 0x10000 * t + 0x20 * n, 0, 9, .rw, .stored 0⟩
/-- TIL_SM_TAIL, field map of chapter 05: 4 bytes. -/
def TIL_SM_TAIL (t n : Nat) : Reg := ⟨0x100030C + 0x10000 * t + 0x20 * n, 4, [TIL_SM_TAIL_TAIL t n]⟩

def TIL_SM_FAULT_VALID (t n : Nat) : Fld := ⟨0x1000310 + 0x10000 * t + 0x20 * n, 31, 1, .w1c, .stored 0⟩
def TIL_SM_FAULT_INDEX (t n : Nat) : Fld := ⟨0x1000310 + 0x10000 * t + 0x20 * n, 8, 9, .ro, .stored 0⟩
def TIL_SM_FAULT_CODE (t n : Nat) : Fld := ⟨0x1000310 + 0x10000 * t + 0x20 * n, 0, 8, .ro, .stored 0⟩
/-- TIL_SM_FAULT, field map of chapter 05: 4 bytes. -/
def TIL_SM_FAULT (t n : Nat) : Reg := ⟨0x1000310 + 0x10000 * t + 0x20 * n, 4, [TIL_SM_FAULT_VALID t n, TIL_SM_FAULT_INDEX t n, TIL_SM_FAULT_CODE t n]⟩

def TIL_SM_DONE_COUNT (t n : Nat) : Fld := ⟨0x1000314 + 0x10000 * t + 0x20 * n, 0, 32, .ro, .stored 0⟩
/-- TIL_SM_DONE, field map of chapter 05: 4 bytes. -/
def TIL_SM_DONE (t n : Nat) : Reg := ⟨0x1000314 + 0x10000 * t + 0x20 * n, 4, [TIL_SM_DONE_COUNT t n]⟩

def TIL_BL_STATUS_BUSY (t : Nat) : Fld := ⟨0x1000400 + 0x10000 * t, 31, 1, .ro, .stored 0⟩
def TIL_BL_STATUS_SAVED (t : Nat) : Fld := ⟨0x1000400 + 0x10000 * t, 30, 1, .ro, .stored 0⟩
def TIL_BL_STATUS_NONFINITE (t : Nat) : Fld := ⟨0x1000400 + 0x10000 * t, 29, 1, .w1c, .stored 0⟩
def TIL_BL_STATUS_UNMAPPED (t : Nat) : Fld := ⟨0x1000400 + 0x10000 * t, 28, 1, .w1c, .stored 0⟩
def TIL_BL_STATUS_OP (t : Nat) : Fld := ⟨0x1000400 + 0x10000 * t, 25, 3, .ro, .stored 0⟩
def TIL_BL_STATUS_FREE_BLOCKS (t : Nat) : Fld := ⟨0x1000400 + 0x10000 * t, 0, 7, .ro, .view (.TIL_BL_STATUS_FREE_BLOCKS t)⟩
/-- TIL_BL_STATUS, field map of chapter 06: 4 bytes. -/
def TIL_BL_STATUS (t : Nat) : Reg := ⟨0x1000400 + 0x10000 * t, 4, [TIL_BL_STATUS_BUSY t, TIL_BL_STATUS_SAVED t, TIL_BL_STATUS_NONFINITE t, TIL_BL_STATUS_UNMAPPED t, TIL_BL_STATUS_OP t, TIL_BL_STATUS_FREE_BLOCKS t]⟩

def TIL_BL_FAULT_VALID (t : Nat) : Fld := ⟨0x1000404 + 0x10000 * t, 31, 1, .w1c, .stored 0⟩
def TIL_BL_FAULT_REGION (t : Nat) : Fld := ⟨0x1000404 + 0x10000 * t, 8, 16, .ro, .stored 0⟩
def TIL_BL_FAULT_CODE (t : Nat) : Fld := ⟨0x1000404 + 0x10000 * t, 0, 8, .ro, .stored 0⟩
/-- TIL_BL_FAULT, field map of chapter 06: 4 bytes. -/
def TIL_BL_FAULT (t : Nat) : Reg := ⟨0x1000404 + 0x10000 * t, 4, [TIL_BL_FAULT_VALID t, TIL_BL_FAULT_REGION t, TIL_BL_FAULT_CODE t]⟩

def TIL_BL_DONE_COUNT (t : Nat) : Fld := ⟨0x1000408 + 0x10000 * t, 0, 32, .ro, .stored 0⟩
/-- TIL_BL_DONE, field map of chapter 06: 4 bytes. -/
def TIL_BL_DONE (t : Nat) : Reg := ⟨0x1000408 + 0x10000 * t, 4, [TIL_BL_DONE_COUNT t]⟩

def TIL_BL_SPILLS_COUNT (t : Nat) : Fld := ⟨0x100040C + 0x10000 * t, 0, 32, .ro, .stored 0⟩
/-- TIL_BL_SPILLS, field map of chapter 06: 4 bytes. -/
def TIL_BL_SPILLS (t : Nat) : Reg := ⟨0x100040C + 0x10000 * t, 4, [TIL_BL_SPILLS_COUNT t]⟩

def TIL_BL_FILLS_COUNT (t : Nat) : Fld := ⟨0x1000410 + 0x10000 * t, 0, 32, .ro, .stored 0⟩
/-- TIL_BL_FILLS, field map of chapter 06: 4 bytes. -/
def TIL_BL_FILLS (t : Nat) : Reg := ⟨0x1000410 + 0x10000 * t, 4, [TIL_BL_FILLS_COUNT t]⟩

def TIL_BL_MAP_V (t n x : Nat) : Fld := ⟨0x1000440 + 0x10000 * t + 0x4 * n, 8 * x, 8, .ro, .stored 0⟩
/-- TIL_BL_MAP, field map of chapter 06: 4 bytes. -/
def TIL_BL_MAP (t n : Nat) : Reg := ⟨0x1000440 + 0x10000 * t + 0x4 * n, 4, (List.range 4).map (fun x => TIL_BL_MAP_V t n x)⟩

def TIL_BL_SLOT_REGION_ID (t n : Nat) : Fld := ⟨0x10004C0 + 0x10000 * t + 0x8 * n, 48, 16, .ro, .stored 0xffff⟩
def TIL_BL_SLOT_STATE (t n : Nat) : Fld := ⟨0x10004C0 + 0x10000 * t + 0x8 * n, 45, 3, .ro, .stored 0⟩
def TIL_BL_SLOT_TENSOR_ID (t n : Nat) : Fld := ⟨0x10004C0 + 0x10000 * t + 0x8 * n, 0, 32, .ro, .stored 0⟩
/-- TIL_BL_SLOT, field map of chapter 06: 8 bytes. -/
def TIL_BL_SLOT (t n : Nat) : Reg := ⟨0x10004C0 + 0x10000 * t + 0x8 * n, 8, [TIL_BL_SLOT_REGION_ID t n, TIL_BL_SLOT_STATE t n, TIL_BL_SLOT_TENSOR_ID t n]⟩

def LIG_PCTRL_STALE_K (p : Nat) : Fld := ⟨0x380000 + 0x80 * p, 8, 4, .rw, .stored 1⟩
def LIG_PCTRL_ENABLE (p : Nat) : Fld := ⟨0x380000 + 0x80 * p, 0, 1, .rw, .stored 0⟩
/-- LIG_PCTRL, field map of chapter 07: 4 bytes. -/
def LIG_PCTRL (p : Nat) : Reg := ⟨0x380000 + 0x80 * p, 4, [LIG_PCTRL_STALE_K p, LIG_PCTRL_ENABLE p]⟩

def LIG_PSTATUS_IDLE (p : Nat) : Fld := ⟨0x380004 + 0x80 * p, 31, 1, .ro, .stored 1⟩
def LIG_PSTATUS_HELD (p : Nat) : Fld := ⟨0x380004 + 0x80 * p, 30, 1, .ro, .stored 0⟩
def LIG_PSTATUS_JOURNAL_FULL (p : Nat) : Fld := ⟨0x380004 + 0x80 * p, 29, 1, .w1c, .stored 0⟩
def LIG_PSTATUS_SKIPPED (p : Nat) : Fld := ⟨0x380004 + 0x80 * p, 28, 1, .w1c, .stored 0⟩
def LIG_PSTATUS_LAGGING (p : Nat) : Fld := ⟨0x380004 + 0x80 * p, 27, 1, .w1c, .stored 0⟩
def LIG_PSTATUS_NONFINITE_W (p : Nat) : Fld := ⟨0x380004 + 0x80 * p, 26, 1, .w1c, .stored 0⟩
/-- LIG_PSTATUS, field map of chapter 07: 4 bytes. -/
def LIG_PSTATUS (p : Nat) : Reg := ⟨0x380004 + 0x80 * p, 4, [LIG_PSTATUS_IDLE p, LIG_PSTATUS_HELD p, LIG_PSTATUS_JOURNAL_FULL p, LIG_PSTATUS_SKIPPED p, LIG_PSTATUS_LAGGING p, LIG_PSTATUS_NONFINITE_W p]⟩

def LIG_TT_BASE_BASE (p n : Nat) : Fld := ⟨0x380008 + 0x80 * p + 0x10 * n, 7, 57, .rw, .stored 0⟩
/-- LIG_TT_BASE, field map of chapter 07: 8 bytes. -/
def LIG_TT_BASE (p n : Nat) : Reg := ⟨0x380008 + 0x80 * p + 0x10 * n, 8, [LIG_TT_BASE_BASE p n]⟩

def LIG_TT_CFG_EPOCH (p n : Nat) : Fld := ⟨0x380010 + 0x80 * p + 0x10 * n, 16, 16, .rw, .stored 0⟩
def LIG_TT_CFG_COUNT (p n : Nat) : Fld := ⟨0x380010 + 0x80 * p + 0x10 * n, 0, 16, .rw, .stored 0⟩
/-- LIG_TT_CFG, field map of chapter 07: 4 bytes. -/
def LIG_TT_CFG (p n : Nat) : Reg := ⟨0x380010 + 0x80 * p + 0x10 * n, 4, [LIG_TT_CFG_EPOCH p n, LIG_TT_CFG_COUNT p n]⟩

def LIG_JRNL_BASE_BASE (p : Nat) : Fld := ⟨0x380028 + 0x80 * p, 9, 55, .rw, .stored 0⟩
/-- LIG_JRNL_BASE, field map of chapter 07: 8 bytes. -/
def LIG_JRNL_BASE (p : Nat) : Reg := ⟨0x380028 + 0x80 * p, 8, [LIG_JRNL_BASE_BASE p]⟩

def LIG_JRNL_LINES_LINES (p : Nat) : Fld := ⟨0x380030 + 0x80 * p, 0, 32, .rw, .stored 0⟩
/-- LIG_JRNL_LINES, field map of chapter 07: 4 bytes. -/
def LIG_JRNL_LINES (p : Nat) : Reg := ⟨0x380030 + 0x80 * p, 4, [LIG_JRNL_LINES_LINES p]⟩

def LIG_JRNL_USED_USED (p : Nat) : Fld := ⟨0x380034 + 0x80 * p, 0, 32, .ro, .stored 0⟩
/-- LIG_JRNL_USED, field map of chapter 07: 4 bytes. -/
def LIG_JRNL_USED (p : Nat) : Reg := ⟨0x380034 + 0x80 * p, 4, [LIG_JRNL_USED_USED p]⟩

def LIG_STEP_STEP (p : Nat) : Fld := ⟨0x380038 + 0x80 * p, 0, 32, .ro, .stored 0⟩
/-- LIG_STEP, field map of chapter 07: 4 bytes. -/
def LIG_STEP (p : Nat) : Reg := ⟨0x380038 + 0x80 * p, 4, [LIG_STEP_STEP p]⟩

def LIG_SLOW_DONE_STEP (p : Nat) : Fld := ⟨0x38003C + 0x80 * p, 0, 32, .ro, .stored 0⟩
/-- LIG_SLOW_DONE, field map of chapter 07: 4 bytes. -/
def LIG_SLOW_DONE (p : Nat) : Reg := ⟨0x38003C + 0x80 * p, 4, [LIG_SLOW_DONE_STEP p]⟩

def LIG_SKIPS_COUNT (p : Nat) : Fld := ⟨0x380040 + 0x80 * p, 0, 32, .ro, .stored 0⟩
/-- LIG_SKIPS, field map of chapter 07: 4 bytes. -/
def LIG_SKIPS (p : Nat) : Reg := ⟨0x380040 + 0x80 * p, 4, [LIG_SKIPS_COUNT p]⟩

def LIG_USTATUS_BUSY (u : Nat) : Fld := ⟨0x300000 + 0x10000 * u, 31, 1, .ro, .view (.LIG_USTATUS_BUSY u)⟩
def LIG_USTATUS_OP (u : Nat) : Fld := ⟨0x300000 + 0x10000 * u, 28, 3, .ro, .view (.LIG_USTATUS_OP u)⟩
def LIG_USTATUS_PARTITION (u : Nat) : Fld := ⟨0x300000 + 0x10000 * u, 16, 4, .ro, .view (.LIG_USTATUS_PARTITION u)⟩
/-- LIG_USTATUS, field map of chapter 07: 4 bytes. -/
def LIG_USTATUS (u : Nat) : Reg := ⟨0x300000 + 0x10000 * u, 4, [LIG_USTATUS_BUSY u, LIG_USTATUS_OP u, LIG_USTATUS_PARTITION u]⟩

def LIG_UFAULT_VALID (u : Nat) : Fld := ⟨0x300004 + 0x10000 * u, 31, 1, .w1c, .stored 0⟩
def LIG_UFAULT_OVERFLOW (u : Nat) : Fld := ⟨0x300004 + 0x10000 * u, 30, 1, .w1c, .stored 0⟩
def LIG_UFAULT_PARTITION (u : Nat) : Fld := ⟨0x300004 + 0x10000 * u, 16, 4, .ro, .stored 0⟩
def LIG_UFAULT_CODE (u : Nat) : Fld := ⟨0x300004 + 0x10000 * u, 0, 8, .ro, .stored 0⟩
/-- LIG_UFAULT, field map of chapter 07: 4 bytes. -/
def LIG_UFAULT (u : Nat) : Reg := ⟨0x300004 + 0x10000 * u, 4, [LIG_UFAULT_VALID u, LIG_UFAULT_OVERFLOW u, LIG_UFAULT_PARTITION u, LIG_UFAULT_CODE u]⟩

def LIG_UFAULT_WHERE_LINE (u : Nat) : Fld := ⟨0x300008 + 0x10000 * u, 32, 32, .ro, .stored 0⟩
def LIG_UFAULT_WHERE_TENSOR_ID (u : Nat) : Fld := ⟨0x300008 + 0x10000 * u, 0, 32, .ro, .stored 0⟩
/-- LIG_UFAULT_WHERE, field map of chapter 07: 8 bytes. -/
def LIG_UFAULT_WHERE (u : Nat) : Reg := ⟨0x300008 + 0x10000 * u, 8, [LIG_UFAULT_WHERE_LINE u, LIG_UFAULT_WHERE_TENSOR_ID u]⟩

def LIG_ULINES_COUNT (u : Nat) : Fld := ⟨0x300010 + 0x10000 * u, 0, 64, .ro, .stored 0⟩
/-- LIG_ULINES, field map of chapter 07: 8 bytes. -/
def LIG_ULINES (u : Nat) : Reg := ⟨0x300010 + 0x10000 * u, 8, [LIG_ULINES_COUNT u]⟩

def PAL_CTRL_SCRUB_STEPS (p : Nat) : Fld := ⟨0x400000 + 0x200 * p, 8, 8, .rw, .stored 0⟩
def PAL_CTRL_RESEED (p : Nat) : Fld := ⟨0x400000 + 0x200 * p, 4, 1, .wo, .stored 0⟩
def PAL_CTRL_STANDBY (p : Nat) : Fld := ⟨0x400000 + 0x200 * p, 3, 1, .rw, .stored 0⟩
def PAL_CTRL_MIRROR (p : Nat) : Fld := ⟨0x400000 + 0x200 * p, 1, 2, .rw, .stored 0⟩
def PAL_CTRL_ENABLE (p : Nat) : Fld := ⟨0x400000 + 0x200 * p, 0, 1, .rw, .stored 0⟩
/-- PAL_CTRL, field map of chapter 10: 4 bytes. -/
def PAL_CTRL (p : Nat) : Reg := ⟨0x400000 + 0x200 * p, 4, [PAL_CTRL_SCRUB_STEPS p, PAL_CTRL_RESEED p, PAL_CTRL_STANDBY p, PAL_CTRL_MIRROR p, PAL_CTRL_ENABLE p]⟩

def PAL_STATUS_IDLE (p : Nat) : Fld := ⟨0x400004 + 0x200 * p, 31, 1, .ro, .stored 1⟩
def PAL_STATUS_UNMIRRORED (p : Nat) : Fld := ⟨0x400004 + 0x200 * p, 30, 1, .ro, .stored 0⟩
def PAL_STATUS_DIVERGED (p : Nat) : Fld := ⟨0x400004 + 0x200 * p, 29, 1, .w1c, .stored 0⟩
def PAL_STATUS_FORCED_SKIP (p : Nat) : Fld := ⟨0x400004 + 0x200 * p, 28, 1, .w1c, .stored 0⟩
def PAL_STATUS_RECOVERING (p : Nat) : Fld := ⟨0x400004 + 0x200 * p, 27, 1, .ro, .stored 0⟩
def PAL_STATUS_TAKEN_OVER (p : Nat) : Fld := ⟨0x400004 + 0x200 * p, 26, 1, .w1c, .stored 0⟩
/-- PAL_STATUS, field map of chapter 10: 4 bytes. -/
def PAL_STATUS (p : Nat) : Reg := ⟨0x400004 + 0x200 * p, 4, [PAL_STATUS_IDLE p, PAL_STATUS_UNMIRRORED p, PAL_STATUS_DIVERGED p, PAL_STATUS_FORCED_SKIP p, PAL_STATUS_RECOVERING p, PAL_STATUS_TAKEN_OVER p]⟩

def PAL_RATE_PERMILLE (p : Nat) : Fld := ⟨0x400008 + 0x200 * p, 0, 10, .rw, .stored 20⟩
/-- PAL_RATE, field map of chapter 10: 4 bytes. -/
def PAL_RATE (p : Nat) : Reg := ⟨0x400008 + 0x200 * p, 4, [PAL_RATE_PERMILLE p]⟩

def PAL_MIRROR_CONN_CONN (p : Nat) : Fld := ⟨0x40000C + 0x200 * p, 0, 32, .rw, .stored 0xffffffff⟩
/-- PAL_MIRROR_CONN, field map of chapter 10: 4 bytes. -/
def PAL_MIRROR_CONN (p : Nat) : Reg := ⟨0x40000C + 0x200 * p, 4, [PAL_MIRROR_CONN_CONN p]⟩

def PAL_DIGEST_BASE_BASE (p : Nat) : Fld := ⟨0x400010 + 0x200 * p, 6, 58, .rw, .stored 0⟩
/-- PAL_DIGEST_BASE, field map of chapter 10: 8 bytes. -/
def PAL_DIGEST_BASE (p : Nat) : Reg := ⟨0x400010 + 0x200 * p, 8, [PAL_DIGEST_BASE_BASE p]⟩

def PAL_DIRTY_BASE_BASE (p : Nat) : Fld := ⟨0x400018 + 0x200 * p, 9, 55, .rw, .stored 0⟩
/-- PAL_DIRTY_BASE, field map of chapter 10: 8 bytes. -/
def PAL_DIRTY_BASE (p : Nat) : Reg := ⟨0x400018 + 0x200 * p, 8, [PAL_DIRTY_BASE_BASE p]⟩

def PAL_XCHG_BASE_BASE (p : Nat) : Fld := ⟨0x400020 + 0x200 * p, 9, 55, .rw, .stored 0⟩
/-- PAL_XCHG_BASE, field map of chapter 10: 8 bytes. -/
def PAL_XCHG_BASE (p : Nat) : Reg := ⟨0x400020 + 0x200 * p, 8, [PAL_XCHG_BASE_BASE p]⟩

def PAL_SPARES_BASE_BASE (p : Nat) : Fld := ⟨0x400028 + 0x200 * p, 7, 57, .rw, .stored 0⟩
/-- PAL_SPARES_BASE, field map of chapter 10: 8 bytes. -/
def PAL_SPARES_BASE (p : Nat) : Reg := ⟨0x400028 + 0x200 * p, 8, [PAL_SPARES_BASE_BASE p]⟩

def PAL_VERIFIED_STEP (p : Nat) : Fld := ⟨0x400030 + 0x200 * p, 0, 32, .ro, .stored 0⟩
/-- PAL_VERIFIED, field map of chapter 10: 4 bytes. -/
def PAL_VERIFIED (p : Nat) : Reg := ⟨0x400030 + 0x200 * p, 4, [PAL_VERIFIED_STEP p]⟩

def PAL_SLOW_VERIFIED_STEP (p : Nat) : Fld := ⟨0x400034 + 0x200 * p, 0, 32, .ro, .stored 0⟩
/-- PAL_SLOW_VERIFIED, field map of chapter 10: 4 bytes. -/
def PAL_SLOW_VERIFIED (p : Nat) : Reg := ⟨0x400034 + 0x200 * p, 4, [PAL_SLOW_VERIFIED_STEP p]⟩

def PAL_SENT_SEQ_SEQ (p : Nat) : Fld := ⟨0x400038 + 0x200 * p, 0, 32, .ro, .stored 0⟩
/-- PAL_SENT_SEQ, field map of chapter 10: 4 bytes. -/
def PAL_SENT_SEQ (p : Nat) : Reg := ⟨0x400038 + 0x200 * p, 4, [PAL_SENT_SEQ_SEQ p]⟩

def PAL_FORCED_SKIPS_COUNT (p : Nat) : Fld := ⟨0x40003C + 0x200 * p, 0, 32, .ro, .stored 0⟩
/-- PAL_FORCED_SKIPS, field map of chapter 10: 4 bytes. -/
def PAL_FORCED_SKIPS (p : Nat) : Reg := ⟨0x40003C + 0x200 * p, 4, [PAL_FORCED_SKIPS_COUNT p]⟩

def PAL_RECORDS_COUNT (p : Nat) : Fld := ⟨0x400040 + 0x200 * p, 0, 64, .ro, .stored 0⟩
/-- PAL_RECORDS, field map of chapter 10: 8 bytes. -/
def PAL_RECORDS (p : Nat) : Reg := ⟨0x400040 + 0x200 * p, 8, [PAL_RECORDS_COUNT p]⟩

def PAL_REPAIRS_COUNT (p : Nat) : Fld := ⟨0x400048 + 0x200 * p, 0, 32, .ro, .stored 0⟩
/-- PAL_REPAIRS, field map of chapter 10: 4 bytes. -/
def PAL_REPAIRS (p : Nat) : Reg := ⟨0x400048 + 0x200 * p, 4, [PAL_REPAIRS_COUNT p]⟩

def PAL_FAULT_VALID (p : Nat) : Fld := ⟨0x400050 + 0x200 * p, 31, 1, .w1c, .stored 0⟩
def PAL_FAULT_OVERFLOW (p : Nat) : Fld := ⟨0x400050 + 0x200 * p, 30, 1, .w1c, .stored 0⟩
def PAL_FAULT_SLOT (p : Nat) : Fld := ⟨0x400050 + 0x200 * p, 8, 2, .ro, .stored 0⟩
def PAL_FAULT_CODE (p : Nat) : Fld := ⟨0x400050 + 0x200 * p, 0, 8, .ro, .stored 0⟩
/-- PAL_FAULT, field map of chapter 10: 4 bytes. -/
def PAL_FAULT (p : Nat) : Reg := ⟨0x400050 + 0x200 * p, 4, [PAL_FAULT_VALID p, PAL_FAULT_OVERFLOW p, PAL_FAULT_SLOT p, PAL_FAULT_CODE p]⟩

def PAL_FAULT_WHERE_LINE (p : Nat) : Fld := ⟨0x400058 + 0x200 * p, 32, 32, .ro, .stored 0⟩
def PAL_FAULT_WHERE_TENSOR_ID (p : Nat) : Fld := ⟨0x400058 + 0x200 * p, 0, 32, .ro, .stored 0⟩
/-- PAL_FAULT_WHERE, field map of chapter 10: 8 bytes. -/
def PAL_FAULT_WHERE (p : Nat) : Reg := ⟨0x400058 + 0x200 * p, 8, [PAL_FAULT_WHERE_LINE p, PAL_FAULT_WHERE_TENSOR_ID p]⟩

def PAL_MS_CONN_CONN (p n : Nat) : Fld := ⟨0x400100 + 0x200 * p + 0x40 * n, 0, 32, .rw, .stored 0xffffffff⟩
/-- PAL_MS_CONN, field map of chapter 10: 4 bytes. -/
def PAL_MS_CONN (p n : Nat) : Reg := ⟨0x400100 + 0x200 * p + 0x40 * n, 4, [PAL_MS_CONN_CONN p n]⟩

def PAL_MS_BASE_BASE (p n : Nat) : Fld := ⟨0x400108 + 0x200 * p + 0x40 * n, 9, 55, .rw, .stored 0⟩
/-- PAL_MS_BASE, field map of chapter 10: 8 bytes. -/
def PAL_MS_BASE (p n : Nat) : Reg := ⟨0x400108 + 0x200 * p + 0x40 * n, 8, [PAL_MS_BASE_BASE p n]⟩

def PAL_MS_LOG_BASE (p n : Nat) : Fld := ⟨0x400110 + 0x200 * p + 0x40 * n, 6, 58, .rw, .stored 0⟩
/-- PAL_MS_LOG, field map of chapter 10: 8 bytes. -/
def PAL_MS_LOG (p n : Nat) : Reg := ⟨0x400110 + 0x200 * p + 0x40 * n, 8, [PAL_MS_LOG_BASE p n]⟩

def PAL_MS_DESC_BASE (p n : Nat) : Fld := ⟨0x400118 + 0x200 * p + 0x40 * n, 6, 58, .rw, .stored 0⟩
/-- PAL_MS_DESC, field map of chapter 10: 8 bytes. -/
def PAL_MS_DESC (p n : Nat) : Reg := ⟨0x400118 + 0x200 * p + 0x40 * n, 8, [PAL_MS_DESC_BASE p n]⟩

def PAL_MS_SIZE_LOG_SLOTS (p n : Nat) : Fld := ⟨0x400120 + 0x200 * p + 0x40 * n, 32, 32, .rw, .stored 0⟩
def PAL_MS_SIZE_BASE_LINES (p n : Nat) : Fld := ⟨0x400120 + 0x200 * p + 0x40 * n, 0, 32, .rw, .stored 0⟩
/-- PAL_MS_SIZE, field map of chapter 10: 8 bytes. -/
def PAL_MS_SIZE (p n : Nat) : Reg := ⟨0x400120 + 0x200 * p + 0x40 * n, 8, [PAL_MS_SIZE_LOG_SLOTS p n, PAL_MS_SIZE_BASE_LINES p n]⟩

def PAL_MS_STATUS_STATE (p n : Nat) : Fld := ⟨0x400128 + 0x200 * p + 0x40 * n, 29, 3, .ro, .stored 0⟩
def PAL_MS_STATUS_SOURCE (p n : Nat) : Fld := ⟨0x400128 + 0x200 * p + 0x40 * n, 0, 16, .ro, .stored 0⟩
/-- PAL_MS_STATUS, field map of chapter 10: 4 bytes. -/
def PAL_MS_STATUS (p n : Nat) : Reg := ⟨0x400128 + 0x200 * p + 0x40 * n, 4, [PAL_MS_STATUS_STATE p n, PAL_MS_STATUS_SOURCE p n]⟩

def PAL_MS_VSTEP_STEP (p n : Nat) : Fld := ⟨0x40012C + 0x200 * p + 0x40 * n, 0, 32, .ro, .stored 0⟩
/-- PAL_MS_VSTEP, field map of chapter 10: 4 bytes. -/
def PAL_MS_VSTEP (p n : Nat) : Reg := ⟨0x40012C + 0x200 * p + 0x40 * n, 4, [PAL_MS_VSTEP_STEP p n]⟩

def PAL_MS_APPLIED_SEQ (p n : Nat) : Fld := ⟨0x400130 + 0x200 * p + 0x40 * n, 0, 32, .ro, .stored 0⟩
/-- PAL_MS_APPLIED, field map of chapter 10: 4 bytes. -/
def PAL_MS_APPLIED (p n : Nat) : Reg := ⟨0x400130 + 0x200 * p + 0x40 * n, 4, [PAL_MS_APPLIED_SEQ p n]⟩

end Sys2Proof.Machine
end

