-- ==== Sys2Proof/Machine/RegMap.lean ====
section
/-!
DEFINITION. The register that a BAR0 offset falls in (R23 to R26), found in the blocks' lists of register families.
-/
namespace Sys2Proof.Machine

/-- A single register: it answers for the offsets of its bytes. -/
def loc0 (a : Nat) (r : Reg) : Option Reg :=
  if r.off ≤ a ∧ a < r.off + r.bytes then some r else none

/-- A family with one index: base, size, stride and count. -/
def loc1 (a base by_ st n : Nat) (mk : Nat → Reg) : Option Reg :=
  if base ≤ a ∧ (a - base) / st < n ∧ (a - base) % st < by_ then some (mk ((a - base) / st)) else none

/-- A family with two indices, the outer stride first. -/
def loc2 (a base by_ st n st2 n2 : Nat) (mk : Nat → Nat → Reg) : Option Reg :=
  if base ≤ a ∧ (a - base) / st < n then loc1 a (base + (a - base) / st * st) by_ st2 n2 (mk ((a - base) / st)) else none

/-- A family with three indices. -/
def loc3 (a base by_ st n st2 n2 st3 n3 : Nat) (mk : Nat → Nat → Nat → Reg) : Option Reg :=
  if base ≤ a ∧ (a - base) / st < n then loc2 a (base + (a - base) / st * st) by_ st2 n2 st3 n3 (mk ((a - base) / st)) else none

/-- Register families of GEN_, CLK_, EVT_, LDG_, SEC_. -/
def locsGen (a : Nat) : List (Option Reg) :=
  [loc0 a GEN_DEVID,
   loc0 a GEN_REVISION,
   loc0 a GEN_RESOURCES,
   loc1 a 0x40 4 0x4 10 GEN_TILE_FUSE,
   loc0 a GEN_BUSERR_STATUS,
   loc0 a GEN_BUSERR_ADDR,
   loc0 a CLK_SRC,
   loc0 a CLK_MON_STATUS,
   loc0 a CLK_MON_CFG,
   loc0 a CLK_PLL_STATUS,
   loc0 a CLK_ARITH,
   loc0 a CLK_ARITH_LIMIT,
   loc0 a CLK_DIV,
   loc1 a 0x10020 4 0x4 2 CLK_EN,
   loc1 a 0x10028 4 0x4 2 CLK_LOCK,
   loc1 a 0x10040 4 0x4 5 CLK_TILE_EN,
   loc0 a SEC_STATUS,
   loc0 a SEC_FW,
   loc0 a SEC_FW_VERSION,
   loc0 a SEC_DEVICE_ID,
   loc0 a SEC_CLUSTER_SET,
   loc0 a SEC_ROOT_EN,
   loc0 a SEC_BOOTS,
   loc0 a SEC_LOG_SEQ,
   loc0 a SEC_AUTH_FAIL,
   loc0 a EVT_STATUS,
   loc0 a EVT_MGMT_CFG,
   loc0 a EVT_FATAL,
   loc1 a 0x40010 4 0x4 5 EVT_SEV_COUNT,
   loc1 a 0x40040 4 0x4 5 EVT_ADMIN_TILE,
   loc0 a EVT_ADMIN_UNIT,
   loc1 a 0x40400 4 0x40 16 EVT_P_CFG,
   loc1 a 0x40404 4 0x40 16 EVT_P_STATUS,
   loc1 a 0x40408 8 0x40 16 EVT_P_RING_BASE,
   loc1 a 0x40410 4 0x40 16 EVT_P_PTR,
   loc1 a 0x40414 4 0x40 16 EVT_P_LOST,
   loc1 a 0x40418 4 0x40 16 EVT_P_PENNANT_CONN,
   loc1 a 0x40420 8 0x40 16 EVT_P_PENNANT_ADDR,
   loc1 a 0x41000 8 0x10 1024 EVT_NEXT,
   loc1 a 0x41008 4 0x10 1024 EVT_OVF,
   loc0 a LDG_STATUS,
   loc0 a LDG_CTRL,
   loc0 a LDG_SNAP_SEQ,
   loc0 a LDG_FAULT_SEQ,
   loc0 a LDG_POWER_ON,
   loc0 a LDG_THERMAL,
   loc0 a GEN_RESET_CAUSE,
   loc0 a GEN_BOOT,
   loc0 a GEN_PINS,
   loc0 a GEN_TRIM_STATUS]

/-- Register families of FAB_, HBM_, PWR_. -/
def locsFab (a : Nat) : List (Option Reg) :=
  [loc0 a FAB_STATUS,
   loc0 a FAB_IMAGE_ID,
   loc0 a FAB_IMAGE_VERSION,
   loc0 a FAB_VERSION_FLOOR,
   loc0 a FAB_REJECT,
   loc0 a FAB_PART_STATE,
   loc0 a FAB_RELOAD_TIMEOUT,
   loc0 a FAB_SPARES,
   loc0 a FAB_VIOLATION_STATUS,
   loc0 a FAB_VIOLATION_ADDR,
   loc1 a 0x80100 4 0x4 38 FAB_TILE_ROLE,
   loc1 a 0x200000 4 0x10000 8 HBM_STACK_STATUS,
   loc1 a 0x200010 4 0x10000 8 HBM_REKEY,
   loc2 a 0x200100 4 0x10000 8 0x4 32 HBM_CH_STATUS,
   loc2 a 0x200180 4 0x10000 8 0x4 32 HBM_CH_CE,
   loc2 a 0x200200 4 0x10000 8 0x4 32 HBM_CH_UE,
   loc0 a HBM_CTRL,
   loc0 a HBM_MAPOUT,
   loc0 a HBM_LLC_ECC,
   loc0 a HBM_ERR_STATUS,
   loc0 a HBM_ERR_FIRST,
   loc0 a HBM_ERR_NEXT,
   loc1 a 0x280100 8 0x8 16 HBM_PSPACE,
   loc1 a 0x280200 4 0x4 25 HBM_KEYSTATE,
   loc1 a 0x280300 8 0x8 16 HBM_LLC_STAT,
   loc0 a PWR_STATUS,
   loc0 a PWR_CAP,
   loc0 a PWR_CTRL,
   loc0 a PWR_SLEW,
   loc0 a PWR_INPUT,
   loc0 a PWR_BUDGET,
   loc1 a 0x20018 4 0x4 3 PWR_WIN,
   loc0 a PWR_THERM,
   loc0 a PWR_K,
   loc0 a PWR_AGREE_CFG,
   loc0 a PWR_FURL,
   loc0 a PWR_ENERGY_TOTAL,
   loc0 a PWR_ENERGY_UNATTRIB,
   loc1 a 0x21000 4 0x40 16 PWR_P_SHARE,
   loc1 a 0x21004 4 0x40 16 PWR_P_AGREE,
   loc1 a 0x21008 8 0x40 16 PWR_P_AGREE_BASE,
   loc1 a 0x21010 8 0x40 16 PWR_P_PHASE_BASE,
   loc1 a 0x21018 8 0x40 16 PWR_P_ENERGY,
   loc1 a 0x21020 8 0x40 16 PWR_P_STEP_ENERGY,
   loc1 a 0x21028 4 0x40 16 PWR_P_STEP_NUM,
   loc1 a 0x2102C 4 0x40 16 PWR_P_POWER,
   loc1 a 0x22000 4 0x4 152 PWR_TILE_FMAX,
   loc1 a 0x23000 4 0x4 24 PWR_SENSE,
   loc0 a PWR_INPUT_CURRENT]

/-- Register families of TIL_, LIG_, PAL_. -/
def locsTil (a : Nat) : List (Option Reg) :=
  [loc1 a 0x1000100 4 0x10000 152 TIL_MX_CTRL,
   loc1 a 0x1000104 4 0x10000 152 TIL_MX_RING,
   loc1 a 0x1000108 4 0x10000 152 TIL_MX_HEAD,
   loc1 a 0x100010C 4 0x10000 152 TIL_MX_TAIL,
   loc1 a 0x1000110 4 0x10000 152 TIL_MX_STATUS,
   loc1 a 0x1000114 4 0x10000 152 TIL_MX_FAULT,
   loc1 a 0x1000118 4 0x10000 152 TIL_MX_DONE,
   loc1 a 0x1000120 8 0x10000 152 TIL_MX_BUSYCYC,
   loc1 a 0x1000200 4 0x10000 152 TIL_NB_CTRL,
   loc1 a 0x1000204 4 0x10000 152 TIL_NB_RING,
   loc1 a 0x1000208 4 0x10000 152 TIL_NB_HEAD,
   loc1 a 0x100020C 4 0x10000 152 TIL_NB_TAIL,
   loc1 a 0x1000210 4 0x10000 152 TIL_NB_STATUS,
   loc1 a 0x1000214 4 0x10000 152 TIL_NB_FAULT,
   loc1 a 0x1000218 4 0x10000 152 TIL_NB_DONE,
   loc1 a 0x100021C 4 0x10000 152 TIL_NB_ET5_WINDOW,
   loc2 a 0x1000300 4 0x10000 152 0x20 2 TIL_SM_CTRL,
   loc2 a 0x1000304 4 0x10000 152 0x20 2 TIL_SM_RING,
   loc2 a 0x1000308 4 0x10000 152 0x20 2 TIL_SM_HEAD,
   loc2 a 0x100030C 4 0x10000 152 0x20 2 TIL_SM_TAIL,
   loc2 a 0x1000310 4 0x10000 152 0x20 2 TIL_SM_FAULT,
   loc2 a 0x1000314 4 0x10000 152 0x20 2 TIL_SM_DONE,
   loc1 a 0x1000400 4 0x10000 152 TIL_BL_STATUS,
   loc1 a 0x1000404 4 0x10000 152 TIL_BL_FAULT,
   loc1 a 0x1000408 4 0x10000 152 TIL_BL_DONE,
   loc1 a 0x100040C 4 0x10000 152 TIL_BL_SPILLS,
   loc1 a 0x1000410 4 0x10000 152 TIL_BL_FILLS,
   loc2 a 0x1000440 4 0x10000 152 0x4 21 TIL_BL_MAP,
   loc2 a 0x10004C0 8 0x10000 152 0x8 8 TIL_BL_SLOT,
   loc1 a 0x380000 4 0x80 16 LIG_PCTRL,
   loc1 a 0x380004 4 0x80 16 LIG_PSTATUS,
   loc2 a 0x380008 8 0x80 16 0x10 2 LIG_TT_BASE,
   loc2 a 0x380010 4 0x80 16 0x10 2 LIG_TT_CFG,
   loc1 a 0x380028 8 0x80 16 LIG_JRNL_BASE,
   loc1 a 0x380030 4 0x80 16 LIG_JRNL_LINES,
   loc1 a 0x380034 4 0x80 16 LIG_JRNL_USED,
   loc1 a 0x380038 4 0x80 16 LIG_STEP,
   loc1 a 0x38003C 4 0x80 16 LIG_SLOW_DONE,
   loc1 a 0x380040 4 0x80 16 LIG_SKIPS,
   loc1 a 0x300000 4 0x10000 8 LIG_USTATUS,
   loc1 a 0x300004 4 0x10000 8 LIG_UFAULT,
   loc1 a 0x300008 8 0x10000 8 LIG_UFAULT_WHERE,
   loc1 a 0x300010 8 0x10000 8 LIG_ULINES,
   loc1 a 0x400000 4 0x200 16 PAL_CTRL,
   loc1 a 0x400004 4 0x200 16 PAL_STATUS,
   loc1 a 0x400008 4 0x200 16 PAL_RATE,
   loc1 a 0x40000C 4 0x200 16 PAL_MIRROR_CONN,
   loc1 a 0x400010 8 0x200 16 PAL_DIGEST_BASE,
   loc1 a 0x400018 8 0x200 16 PAL_DIRTY_BASE,
   loc1 a 0x400020 8 0x200 16 PAL_XCHG_BASE,
   loc1 a 0x400028 8 0x200 16 PAL_SPARES_BASE,
   loc1 a 0x400030 4 0x200 16 PAL_VERIFIED,
   loc1 a 0x400034 4 0x200 16 PAL_SLOW_VERIFIED,
   loc1 a 0x400038 4 0x200 16 PAL_SENT_SEQ,
   loc1 a 0x40003C 4 0x200 16 PAL_FORCED_SKIPS,
   loc1 a 0x400040 8 0x200 16 PAL_RECORDS,
   loc1 a 0x400048 4 0x200 16 PAL_REPAIRS,
   loc1 a 0x400050 4 0x200 16 PAL_FAULT,
   loc1 a 0x400058 8 0x200 16 PAL_FAULT_WHERE,
   loc2 a 0x400100 4 0x200 16 0x40 4 PAL_MS_CONN,
   loc2 a 0x400108 8 0x200 16 0x40 4 PAL_MS_BASE,
   loc2 a 0x400110 8 0x200 16 0x40 4 PAL_MS_LOG,
   loc2 a 0x400118 8 0x200 16 0x40 4 PAL_MS_DESC,
   loc2 a 0x400120 8 0x200 16 0x40 4 PAL_MS_SIZE,
   loc2 a 0x400128 4 0x200 16 0x40 4 PAL_MS_STATUS,
   loc2 a 0x40012C 4 0x200 16 0x40 4 PAL_MS_VSTEP,
   loc2 a 0x400130 4 0x200 16 0x40 4 PAL_MS_APPLIED]

/-- Register families of SCH_. -/
def locsSch (a : Nat) : List (Option Reg) :=
  [loc1 a 0x10F000 4 0x40 16 SCH_NW_PCTRL,
   loc1 a 0x10F004 4 0x40 16 SCH_NW_PSTATUS,
   loc1 a 0x10F008 8 0x40 16 SCH_NW_TABLE,
   loc1 a 0x10F010 4 0x40 16 SCH_NW_ENTRIES,
   loc1 a 0x10F018 8 0x40 16 SCH_NW_RING,
   loc1 a 0x10F020 4 0x40 16 SCH_NW_RING_SIZE,
   loc1 a 0x10F024 4 0x40 16 SCH_NW_RING_HEAD,
   loc1 a 0x10F028 4 0x40 16 SCH_NW_RING_TAIL,
   loc1 a 0x10F02C 4 0x40 16 SCH_NW_LAST_STEP,
   loc1 a 0x10F030 4 0x40 16 SCH_NW_DROPPED,
   loc1 a 0x10F034 4 0x40 16 SCH_NW_UNTABLED,
   loc1 a 0x100000 4 0x100 16 SCH_PCTRL,
   loc1 a 0x100004 4 0x100 16 SCH_PSTATUS,
   loc1 a 0x100008 8 0x100 16 SCH_MODEL_BASE,
   loc1 a 0x100010 8 0x100 16 SCH_TSET_BASE,
   loc1 a 0x100018 8 0x100 16 SCH_REGION_BASE,
   loc1 a 0x100020 8 0x100 16 SCH_HOTSET_BASE,
   loc1 a 0x100028 4 0x100 16 SCH_HOTSET_SIZE,
   loc1 a 0x100030 8 0x100 16 SCH_PAGE_FRAMES,
   loc1 a 0x100038 8 0x100 16 SCH_PAGE_CFG,
   loc1 a 0x100040 8 0x100 16 SCH_PAGE_TABLE,
   loc1 a 0x100048 8 0x100 16 SCH_PAGE_HOST,
   loc1 a 0x100050 4 0x100 16 SCH_SPILL_SLOTS,
   loc1 a 0x100054 4 0x100 16 SCH_PREEMPTS,
   loc1 a 0x100058 4 0x100 16 SCH_PAGE_INS,
   loc1 a 0x10005C 4 0x100 16 SCH_DEMAND_FAULTS,
   loc1 a 0x100060 4 0x100 16 SCH_FAULT,
   loc1 a 0x100068 8 0x100 16 SCH_FAULT_TASK,
   loc2 a 0x101000 4 0x400 16 0x4 256 SCH_SIG,
   loc1 a 0x108000 4 0x4 152 SCH_TILE_STATE,
   loc1 a 0x10C000 4 0x100 16 SCH_SQ_CTRL,
   loc1 a 0x10C004 4 0x100 16 SCH_SQ_STATUS,
   loc1 a 0x10C008 8 0x100 16 SCH_SQ_BUNTING,
   loc2 a 0x10C010 8 0x100 16 0x8 2 SCH_SQ_TABLE,
   loc1 a 0x10C020 8 0x100 16 SCH_SQ_PLAN,
   loc1 a 0x10C028 4 0x100 16 SCH_SQ_STEP,
   loc1 a 0x10C02C 4 0x100 16 SCH_SQ_EPOCH,
   loc1 a 0x10C030 4 0x100 16 SCH_SQ_NEXT,
   loc1 a 0x10C034 4 0x100 16 SCH_SQ_POS,
   loc1 a 0x10C038 4 0x100 16 SCH_SQ_INFLIGHT,
   loc1 a 0x10C03C 4 0x100 16 SCH_SQ_MOVED,
   loc1 a 0x10C040 8 0x100 16 SCH_SQ_IDLECYC,
   loc1 a 0x10C048 4 0x100 16 SCH_SQ_FAULT,
   loc1 a 0x10C04C 4 0x100 16 SCH_SQ_FAULT_ENTRY]

/-- Register families of ETH_, ZTX_, HIF_. -/
def locsNet (a : Nat) : List (Option Reg) :=
  [loc1 a 0x800000 4 0x10000 16 ETH_STATUS,
   loc1 a 0x800004 4 0x10000 16 ETH_STICKY,
   loc1 a 0x800008 4 0x10000 16 ETH_CTRL,
   loc1 a 0x80000C 4 0x10000 16 ETH_FLOW,
   loc1 a 0x800010 4 0x10000 16 ETH_EEE,
   loc1 a 0x800014 4 0x10000 16 ETH_PREEMPT,
   loc1 a 0x800018 4 0x10000 16 ETH_CABLE,
   loc2 a 0x800020 8 0x10000 16 0x8 4 ETH_MAC,
   loc2 a 0x800040 4 0x10000 16 0x4 4 ETH_LINK,
   loc3 a 0x800100 4 0x10000 16 0x20 4 0x4 8 ETH_WM,
   loc2 a 0x800200 4 0x10000 16 0x20 32 ETH_Q_CFG,
   loc2 a 0x800208 8 0x10000 16 0x20 32 ETH_Q_BASE,
   loc2 a 0x800210 4 0x10000 16 0x20 32 ETH_Q_PTR,
   loc2 a 0x800600 4 0x10000 16 0x20 4 ETH_TX_CFG,
   loc2 a 0x800608 8 0x10000 16 0x20 4 ETH_TX_BASE,
   loc2 a 0x800610 4 0x10000 16 0x20 4 ETH_TX_PTR,
   loc2 a 0x801000 16 0x10000 16 0x10 64 ETH_FILTER,
   loc0 a ZTX_CTRL,
   loc0 a ZTX_CTX_BASE,
   loc0 a ZTX_TIMERS,
   loc0 a ZTX_RTO,
   loc0 a ZTX_ACK_CFG,
   loc0 a ZTX_RATE_CFG,
   loc0 a ZTX_RATE_STEP,
   loc0 a ZTX_MISSQ,
   loc0 a ZTX_MISS_DROPS,
   loc0 a ZTX_AUTH_FAIL,
   loc0 a ZTX_STALE,
   loc0 a ZTX_RETX,
   loc1 a 0x901000 4 0x100 16 ZTX_P_CTRL,
   loc1 a 0x901008 8 0x100 16 ZTX_P_SQ_BASE,
   loc1 a 0x901010 4 0x100 16 ZTX_P_SQ_CFG,
   loc1 a 0x901014 4 0x100 16 ZTX_P_SQ_HEAD,
   loc1 a 0x901018 4 0x100 16 ZTX_P_SQ_TAIL,
   loc1 a 0x901020 8 0x100 16 ZTX_P_REGION_BASE,
   loc1 a 0x901028 4 0x100 16 ZTX_P_REGION_COUNT,
   loc1 a 0x901030 8 0x100 16 ZTX_P_OPEN_DESC,
   loc1 a 0x901038 4 0x100 16 ZTX_P_OP,
   loc1 a 0x901040 8 0x100 16 ZTX_P_OP_ARG,
   loc1 a 0x901048 4 0x100 16 ZTX_P_OP_STATUS,
   loc1 a 0x901050 8 0x100 16 ZTX_P_OP_RESULT,
   loc1 a 0x901058 8 0x100 16 ZTX_P_CONNS,
   loc1 a 0x901060 4 0x100 16 ZTX_P_FAULT,
   loc1 a 0x901064 4 0x100 16 ZTX_P_FAULT_CONN,
   loc0 a HIF_STATUS,
   loc0 a HIF_BIND,
   loc1 a 0xA00100 8 0x8 17 HIF_WIN,
   loc1 a 0xA01000 4 0x200 16 HIF_P_CTRL,
   loc1 a 0xA01004 4 0x200 16 HIF_P_STATUS,
   loc1 a 0xA01008 8 0x200 16 HIF_P_CPL_BASE,
   loc1 a 0xA01010 4 0x200 16 HIF_P_CPL_CFG,
   loc1 a 0xA01014 4 0x200 16 HIF_P_CPL_HEAD,
   loc1 a 0xA01018 4 0x200 16 HIF_P_CPL_TAIL,
   loc1 a 0xA01020 8 0x200 16 HIF_P_HLQ_BASE,
   loc1 a 0xA01028 4 0x200 16 HIF_P_HLQ_CFG,
   loc1 a 0xA0102C 4 0x200 16 HIF_P_BIAS_ERR,
   loc1 a 0xA01030 4 0x200 16 HIF_P_FAULT,
   loc2 a 0xA01100 8 0x200 16 0x20 8 HIF_P_CR_BASE,
   loc2 a 0xA01108 4 0x200 16 0x20 8 HIF_P_CR_CFG,
   loc2 a 0xA0110C 4 0x200 16 0x20 8 HIF_P_CR_DB,
   loc2 a 0xA01110 4 0x200 16 0x20 8 HIF_P_CR_HEAD]

/-- The register at offset `a`, if one lies there. -/
def regAt (a : Nat) : Option Reg :=
  if a < 0x20000 then (locsGen a).findSome? id
  else if a < 0x30000 then (locsFab a).findSome? id
  else if a < 0x60000 then (locsGen a).findSome? id
  else if a < 0x100000 then (locsFab a).findSome? id
  else if a < 0x200000 then (locsSch a).findSome? id
  else if a < 0x300000 then (locsFab a).findSome? id
  else if a < 0x410000 then (locsTil a).findSome? id
  else if a < 0x1000000 then (locsNet a).findSome? id
  else (locsTil a).findSome? id

end Sys2Proof.Machine
end

