-- ==== Sys2Proof/Machine/Map.lean ====
section
/-!
DEFINITION. Tables as plain data: lists of (key, value) pairs with strictly rising keys, in which no entry holds the value that an
unlisted key reads as. Memories, register fields and per-unit tables are kept so, and equal tables are equal lists.
-/
namespace Sys2Proof.Machine

/-- A table with natural-number keys (a memory is one with byte values: a list of Host.Cell). -/
abbrev NMap (β : Type) := List (Nat × β)

/-- The value at key `k`; `d` where no entry is listed. -/
def mget {β : Type} (d : β) : NMap β → Nat → β
  | [], _ => d
  | (a, v) :: m, k => if a = k then v else mget d m k

/-- `m` without an entry at key `k`. -/
def mdel {β : Type} (m : NMap β) (k : Nat) : NMap β := m.filter (fun e => e.1 != k)

/-- `m` with an entry put at key `k`, in rising order, in place of the one there. -/
def mins {β : Type} : NMap β → Nat → β → NMap β
  | [], k, v => [(k, v)]
  | (a, w) :: m, k, v => if k < a then (k, v) :: (a, w) :: m else if k = a then (k, v) :: m else (a, w) :: mins m k v

/-- `m` with value `v` at key `k`: an entry equal to the default `d` is not listed. -/
def mset {β : Type} [DecidableEq β] (d : β) (m : NMap β) (k : Nat) (v : β) : NMap β :=
  if v = d then mdel m k else mins m k v

/-- `m` with the value at key `k` changed by `f`. -/
def mupd {β : Type} [DecidableEq β] (d : β) (m : NMap β) (k : Nat) (f : β → β) : NMap β := mset d m k (f (mget d m k))

/-- Strictly rising keys. -/
def mrising {β : Type} : NMap β → Bool
  | [] => true
  | [_] => true
  | (a, _) :: (b, w) :: m => decide (a < b) && mrising ((b, w) :: m)

/-- The canonical form: strictly rising keys, and no entry equal to what an unlisted key reads as. -/
def mwf {β : Type} [DecidableEq β] (d : β) (m : NMap β) : Bool :=
  mrising m && m.all (fun e => decide (e.2 ≠ d))

/-- The entry at key `k`, if one is listed. -/
def mfind {β : Type} : NMap β → Nat → Option β
  | [], _ => none
  | (a, v) :: m, k => if a = k then some v else mfind m k

/-- Is an entry listed at `k`? -/
def mhas {β : Type} (m : NMap β) (k : Nat) : Bool := (mfind m k).isSome

/-- The keys listed. -/
def mkeys {β : Type} (m : NMap β) : List Nat := m.map (·.1)

/-- The entry at key `k` changed by `f`, where one is listed. -/
def mmod {β : Type} (m : NMap β) (k : Nat) (f : β → β) : NMap β := m.map (fun e => if e.1 = k then (e.1, f e.2) else e)

/-- A set of numbers: a strictly rising list. -/
abbrev NSet := List Nat

/-- `k` put into the set, in rising order. -/
def sins : NSet → Nat → NSet
  | [], k => [k]
  | a :: m, k => if k < a then k :: a :: m else if k = a then a :: m else a :: sins m k

/-- `k` taken out of the set. -/
def sdel (m : NSet) (k : Nat) : NSet := m.filter (· != k)

end Sys2Proof.Machine
end

