-- ==== Sys2Proof/Machine/Number.lean ====
section
/-!
DEFINITION. The eleven number formats (R57 to R62), rounding (R63, R77) and exact arithmetic on signed dyadic numbers. Everything is
computed exactly and narrowed once, where the spec rounds.
-/
namespace Sys2Proof.Machine

/-- The number formats, in the order of their codes (R57). -/
inductive Fmt where
  | fp32 | fp16 | bf16 | e5m2 | e4m3 | e3m2 | e2m3 | e2m1 | int8 | int4 | acc48
  deriving DecidableEq, Repr

/-- The format of a code; any other code is invalid (R57). -/
def Fmt.ofCode : Nat → Option Fmt
  | 0 => some .fp32 | 1 => some .fp16 | 2 => some .bf16 | 3 => some .e5m2 | 4 => some .e4m3 | 5 => some .e3m2
  | 6 => some .e2m3 | 7 => some .e2m1 | 8 => some .int8 | 9 => some .int4 | 10 => some .acc48 | _ => none

/-- Bits per stored element (R57). -/
def Fmt.bits : Fmt → Nat
  | .fp32 => 32 | .fp16 => 16 | .bf16 => 16 | .e5m2 => 8 | .e4m3 => 8 | .e3m2 => 6 | .e2m3 => 6 | .e2m1 => 4
  | .int8 => 8 | .int4 => 4 | .acc48 => 48

/-- The seven narrow formats. -/
def Fmt.narrow : Fmt → Bool
  | .e5m2 | .e4m3 | .e3m2 | .e2m3 | .e2m1 | .int8 | .int4 => true
  | _ => false

/-- The integer formats. -/
def Fmt.isInt : Fmt → Bool
  | .int8 | .int4 => true
  | _ => false

/-- Exponent bits, fraction bits and bias (R58). -/
def Fmt.efb : Fmt → Nat × Nat × Nat
  | .fp32 => (8, 23, 127) | .fp16 => (5, 10, 15) | .bf16 => (8, 7, 127) | .e5m2 => (5, 2, 15) | .e4m3 => (4, 3, 7)
  | .e3m2 => (3, 2, 3) | .e2m3 => (2, 3, 1) | .e2m1 => (2, 1, 1) | .acc48 => (10, 37, 511) | .int8 => (0, 7, 0) | .int4 => (0, 3, 0)

/-- Formats whose largest exponent field holds infinities and NaNs (R58). -/
def Fmt.ieee : Fmt → Bool
  | .fp32 | .fp16 | .bf16 | .e5m2 | .acc48 => true
  | _ => false

/-- A value: NaN, an infinity, or the dyadic number ±m × 2^e (zero has m = 0 and keeps its sign). -/
inductive Num where
  | nan
  | inf (neg : Bool)
  | fin (neg : Bool) (m : Nat) (e : Int)
  deriving DecidableEq, Repr

/-- Rounding directions: to nearest with ties to even, toward zero, upward, downward. -/
inductive Rnd where
  | ne | tz | up | dn
  deriving DecidableEq, Repr

def Num.zero : Num := .fin false 0 0
def Num.one : Num := .fin false 1 0

/-- Is the value zero (of either sign)? -/
def Num.isZero : Num → Bool
  | .fin _ m _ => m == 0
  | _ => false

def Num.isNan : Num → Bool
  | .nan => true
  | _ => false

/-- Finite, zero included. -/
def Num.isFin : Num → Bool
  | .fin _ _ _ => true
  | _ => false

/-- Is the sign negative (false for NaN)? -/
def Num.neg? : Num → Bool
  | .fin n _ _ => n
  | .inf n => n
  | .nan => false

/-- An integer as a number. -/
def Num.ofInt (i : Int) : Num := .fin (decide (i < 0)) i.natAbs 0

/-- ±m as an integer. -/
def sgn (neg : Bool) (m : Nat) : Int := if neg then -(m : Int) else (m : Int)

/-- Value of an encoding (R58, R60; every encoding is accepted, R59; a subnormal ACC48 encoding reads as zero, R62). -/
def decodeNum (f : Fmt) (v : Nat) : Num :=
  match f with
  | .int8 => .ofInt (toSigned 8 v)
  | .int4 => .ofInt (toSigned 4 v)
  | _ =>
    let (eb, fb, bias) := f.efb
    let s := bitAt v (eb + fb) == 1
    let e := bitsAt v fb eb
    let fr := v % 2 ^ fb
    if f.ieee && e == 2 ^ eb - 1 then (if fr = 0 then .inf s else .nan)
    else if f == .e4m3 && e == 15 && fr == 7 then .nan
    else if e = 0 then
      if f == .acc48 then .fin s 0 0 else .fin s fr (1 - (bias : Int) - fb)
    else .fin s (2 ^ fb + fr) ((e : Int) - bias - fb)

/-- The canonical NaN of a format (R59); 0 where the format has none. -/
def canonNan : Fmt → Nat
  | .fp32 => 0x7FC00000 | .fp16 => 0x7E00 | .bf16 => 0x7FC0 | .e5m2 => 0x7E | .e4m3 => 0x7F | .acc48 => 0x7FF000000000 | _ => 0

/-- The magnitude m × 2^e rounded to at most `prec` significant bits, no bit below 2^emin. -/
def roundMag (r : Rnd) (neg : Bool) (prec : Nat) (emin : Int) (m : Nat) (e : Int) : Nat × Int :=
  if m = 0 then (0, emin) else
  let drop : Int := max ((m.log2 + 1 : Nat) - (prec : Int)) (emin - e)
  if drop ≤ 0 then (m, e) else
  let d := drop.toNat
  let q := m / 2 ^ d
  let rem := m % 2 ^ d
  let upQ := match r with
    | .ne => decide (2 * rem > 2 ^ d) || (decide (2 * rem = 2 ^ d) && q % 2 == 1)
    | .tz => false
    | .up => !neg && decide (rem ≠ 0)
    | .dn => neg && decide (rem ≠ 0)
  (if upQ then q + 1 else q, e + d)

/-- The encoding of an already rounded finite magnitude q × 2^e that the format can hold. -/
def packFin (f : Fmt) (neg : Bool) (q : Nat) (e : Int) : Nat :=
  let (eb, fb, bias) := f.efb
  let s := b2n neg * 2 ^ (eb + fb)
  if q = 0 then s else
  let emin : Int := 1 - (bias : Int) - fb
  -- shift so that the significand has fb + 1 bits, or the exponent is the least
  let up := min ((fb : Int) + 1 - (q.log2 + 1 : Nat)) (e - emin)
  let (q', e') := if up ≥ 0 then (q * 2 ^ up.toNat, e - up) else (q / 2 ^ (-up).toNat, e - up)
  if q' < 2 ^ fb then s + q' else s + ((e' + fb + bias).toNat) * 2 ^ fb + (q' - 2 ^ fb)

/-- Largest finite encoding, without sign. -/
def maxFinite : Fmt → Nat
  | .fp32 => 0x7F7FFFFF | .fp16 => 0x7BFF | .bf16 => 0x7F7F | .e5m2 => 0x7B | .e4m3 => 0x7E | .e3m2 => 0x1F | .e2m3 => 0x1F
  | .e2m1 => 0x7 | .int8 => 127 | .int4 => 7 | .acc48 => 0x7FDFFFFFFFFF

/-- Is magnitude m1 × 2^e1 greater than m2 × 2^e2? -/
def magGt (m1 : Nat) (e1 : Int) (m2 : Nat) (e2 : Int) : Bool :=
  let e := min e1 e2
  decide (m1 * 2 ^ (e1 - e).toNat > m2 * 2 ^ (e2 - e).toNat)

/-- Is the rounded magnitude above the format's largest finite value? -/
def overMax (f : Fmt) (q : Nat) (e : Int) : Bool :=
  match decodeNum f (maxFinite f) with
  | .fin _ m em => magGt q e m em
  | _ => false

/-- The encoding of an infinity. -/
def infEnc (f : Fmt) (neg : Bool) : Nat :=
  let (eb, fb, _) := f.efb
  b2n neg * 2 ^ (eb + fb) + (2 ^ eb - 1) * 2 ^ fb

/-- An encoding with its sign. -/
def signed (f : Fmt) (neg : Bool) (v : Nat) : Nat :=
  let (eb, fb, _) := f.efb
  b2n neg * 2 ^ (eb + fb) + v

/-- rne48 (R63): a value as ACC48. A magnitude that rounds to 2^512 or more gives Inf; one below 2^−510 flushes to zero with its sign. -/
def rne48 : Num → Nat
  | .nan => canonNan .acc48
  | .inf n => infEnc .acc48 n
  | .fin n m e =>
    if m = 0 then packFin .acc48 n 0 0 else
    let (q, e') := roundMag .ne n 38 (e - 64) m e
    if magGt q e' 1 511 && overMax .acc48 q e' then infEnc .acc48 n
    else if magGt 1 (-510) q e' then packFin .acc48 n 0 0
    else packFin .acc48 n q e'

/-- What a conversion reports to the numeric watch (R77, R89). -/
inductive Conv where
  | normal | saturated | flushed
  deriving DecidableEq, Repr

/-- Conversion to a floating-point format (R77): the encoding, and whether the value saturated or was flushed. -/
def toFmt (f : Fmt) (sat rtz : Bool) : Num → Nat × Conv
  | .nan => (canonNan f, .normal)
  | .inf n => (if f == .e4m3 then canonNan f else infEnc f n, .normal)
  | .fin n m e =>
    if m = 0 then (packFin f n 0 0, .normal) else
    let (_, fb, bias) := f.efb
    let (q, e') := roundMag (if rtz then .tz else .ne) n (fb + 1) (1 - (bias : Int) - fb) m e
    if q = 0 then (packFin f n 0 0, .flushed)
    else if overMax f q e' then
      (if sat || rtz then signed f n (maxFinite f) else if f == .e4m3 then canonNan f else infEnc f n, .saturated)
    else (packFin f n q e', .normal)

/-- An IEEE format with a chosen rounding; overflow gives Inf, or the largest finite value where the direction forbids it. -/
def encIeee (f : Fmt) (r : Rnd) : Num → Nat
  | .nan => canonNan f
  | .inf n => infEnc f n
  | .fin n m e =>
    let (_, fb, bias) := f.efb
    let (q, e') := roundMag r n (fb + 1) (1 - (bias : Int) - fb) m e
    if overMax f q e' then
      (if r == .tz || (r == .up && n) || (r == .dn && !n) then signed f n (maxFinite f) else infEnc f n)
    else packFin f n q e'

/-- rne32: a value as FP32, to nearest with ties to even. -/
def rne32 (x : Num) : Nat := encIeee .fp32 .ne x

/-- FP32 bits as a value. -/
def fp32 (v : Nat) : Num := decodeNum .fp32 v

/-- Product, exact; 0 × Inf is NaN. -/
def Num.mul : Num → Num → Num
  | .nan, _ => .nan
  | _, .nan => .nan
  | .inf a, .inf b => .inf (a != b)
  | .inf a, .fin b m _ => if m = 0 then .nan else .inf (a != b)
  | .fin a m _, .inf b => if m = 0 then .nan else .inf (a != b)
  | .fin a m e, .fin b n f => .fin (a != b) (m * n) (e + f)

def Num.negate : Num → Num
  | .nan => .nan
  | .inf n => .inf (!n)
  | .fin n m e => .fin (!n) m e

def Num.abs : Num → Num
  | .nan => .nan
  | .inf _ => .inf false
  | .fin _ m e => .fin false m e

/-- Sum, exact; Inf − Inf is NaN; an exact zero is +0 unless both terms are −0 (R63). -/
def Num.add : Num → Num → Num
  | .nan, _ => .nan
  | _, .nan => .nan
  | .inf a, .inf b => if a = b then .inf a else .nan
  | .inf a, .fin _ _ _ => .inf a
  | .fin _ _ _, .inf b => .inf b
  | .fin a m e, .fin b n f =>
    let k := min e f
    let t := sgn a (m * 2 ^ (e - k).toNat) + sgn b (n * 2 ^ (f - k).toNat)
    if t = 0 then .fin (a && b) 0 0 else .fin (decide (t < 0)) t.natAbs k

def Num.sub (a b : Num) : Num := a.add b.negate

/-- Exact sum of a list (R75 step 3). The empty sum is +0. -/
def Num.sum : List Num → Num
  | [] => .zero
  | x :: xs => xs.foldl Num.add x

/-- Signed comparison a < b of finite or infinite values; false with a NaN. -/
def Num.lt : Num → Num → Bool
  | .nan, _ => false
  | _, .nan => false
  | .inf a, .inf b => a && !b
  | .inf a, .fin _ _ _ => a
  | .fin _ _ _, .inf b => !b
  | .fin a m e, .fin b n f =>
    let k := min e f
    decide (sgn a (m * 2 ^ (e - k).toNat) < sgn b (n * 2 ^ (f - k).toNat))

/-- Equality as numbers: −0 equals +0; NaN equals nothing. -/
def Num.eqv (a b : Num) : Bool := !a.isNan && !b.isNan && !a.lt b && !b.lt a

def Num.le (a b : Num) : Bool := a.lt b || a.eqv b

/-- Quotient with at least `w` significant bits and a sticky last bit: rounding it once to fewer than `w` bits rounds the exact quotient once. -/
def Num.divSticky (w : Nat) : Num → Num → Num
  | .nan, _ => .nan
  | _, .nan => .nan
  | .inf _, .inf _ => .nan
  | .inf a, .fin b _ _ => .inf (a != b)
  | .fin a _ _, .inf b => .fin (a != b) 0 0
  | .fin a m e, .fin b n f =>
    if n = 0 then (if m = 0 then .nan else .inf (a != b))
    else
      let k := w + n.log2 + 2
      let q := m * 2 ^ k / n
      let r := m * 2 ^ k % n
      .fin (a != b) (2 * q + (if r = 0 then 0 else 1)) (e - f - k - 1)

/-- Square root with at least `w` significant bits and a sticky last bit; NaN below zero. -/
def Num.sqrtSticky (w : Nat) : Num → Num
  | .nan => .nan
  | .inf n => if n then .nan else .inf false
  | .fin n m e =>
    if m = 0 then .fin n 0 0 else if n then .nan else
      -- an even exponent with enough bits
      let k := 2 * w + 2
      let (m', e') := if (e - k) % 2 = 0 then (m * 2 ^ k, e - k) else (m * 2 ^ (k + 1), e - k - 1)
      let q := isqrt m'
      .fin false (2 * q + (if q * q = m' then 0 else 1)) (e' / 2 - 1)

/-- ⌊x⌋ of a finite value, as an integer. -/
def Num.floorInt : Num → Int
  | .fin n m e => if e ≥ 0 then sgn n (m * 2 ^ e.toNat) else Int.fdiv (sgn n m) (2 ^ (-e).toNat : Nat)
  | _ => 0

/-- A finite value rounded to an integer: to nearest with ties to even, or toward zero. -/
def Num.roundInt (rtz : Bool) : Num → Int
  | .fin n m e =>
    let (q, e') := roundMag (if rtz then .tz else .ne) n (m.log2 + 1) 0 m e
    sgn n (q * 2 ^ e'.toNat)
  | _ => 0

/-- ACC48 bits as a value. -/
def acc48 (v : Nat) : Num := decodeNum .acc48 v

/-- Is FP32 `v` positive, normal and finite (R64, R66)? -/
def posNormal32 (v : Nat) : Bool := decide (v < 0x7F800000) && decide (0x00800000 ≤ v)

/-- The value 2^(x − 127) of an E8M0 scale, NaN for 0xFF (R60). -/
def e8m0 (x : Nat) : Num := if x = 255 then .nan else .fin false 1 ((x : Int) - 127)

/-- Element k of a packed row held from bit 0 of `bs` (R61). -/
def packedGet (w : Nat) (bs : List Byte) (k : Nat) : Nat := bitsAt (leAt bs (k * w / 8) 7) (k * w % 8) w

/-- Bytes that a packed row of n elements occupies. -/
def packedLen (w n : Nat) : Nat := ceilDiv (n * w) 8

/-- A list of elements packed densely; the unused bits of the last byte are 0 (R61). -/
def packRow (w : Nat) (vs : List Nat) : List Byte :=
  leBytes (packedLen w vs.length) ((vs.reverse).foldl (fun acc v => acc * 2 ^ w + v % 2 ^ w) 0)

end Sys2Proof.Machine
end

