-- ==== Sys2Proof/Machine/State.lean ====
section
/-!
DEFINITION. The machine's state: every register field, memory, table, queue and mode the spec gives the device, as plain data, and the
queue of commands that wait. State.reset is the machine right after reset.
-/
namespace Sys2Proof.Machine

/-- No command of this model ends in a fault but one that names a unit outside the device. -/
inductive Fault where
  /-- Raised by every meaning whose operand names a tile, partition, port, stack, channel, ring or other unit that the device does not
  have (the spec gives such a command no effect). Safe: the model stops where no device could be asked. -/
  | noSuchUnit
  deriving DecidableEq, Repr

/-- Reasons to have no meaning. -/
inductive Refusal where
  /-- Raised by an arm of exec whose command has no meaning yet. Safe. -/
  | notModelled (mnemonic : String)
  deriving DecidableEq, Repr

/-- What was fixed at manufacture (R404, R457) and what straps fix. -/
structure Fuse where
  /-- 1 GLE9-F, 2 GLE9-H (R13). -/
  variant : Nat
  /-- Fused tile states that are not ACTIVE: 1 SPARE, 2 BAD (R15). -/
  tile : NMap Nat
  /-- Fused maximum of the tiles that differ from fmaxUsual, MHz. -/
  fmax : NMap Nat
  fmaxUsual : Nat
  /-- The identity key (R404): private and public, 57 bytes each. -/
  idKey : List Byte
  pubKey : List Byte
  /-- Glalyn's public keys in the mask ROM (R404): firmware keys 0 and 1, and the maker key. -/
  fwKeys : List (List Byte)
  makerKey : List Byte
  cluster : Nat
  /-- SHAKE256 of the setup code, 32 bytes (R404). -/
  setup : List Byte
  /-- First of the base MAC addresses, and the management port's. -/
  mac : Nat
  mgmtMac : Nat
  /-- Strap SMB_ADDR. -/
  smbAddr : Nat
  /-- Input current-sense gain and internal oscillator trim, ppm (R457). -/
  gain : Int
  osc : Int
  /-- Offsets of the temperature sensors that differ from 0, by sensor group: dies A and B, stacks 0 to 7. -/
  sensor : NMap Int
  /-- Transmit equaliser taps (pre, main, post) and receiver offsets of the SerDes lanes that differ from 0. -/
  taps : NMap (List Int)
  rxOff : NMap Int
  /-- Read and write timing centres of the HBM channels that differ from 0. -/
  centre : NMap (Int × Int)
  deriving DecidableEq, Repr

/-- One source's part in the 64-bit access scheme of R11. -/
structure Split where
  /-- Read latch: register offset and the latched high word. -/
  latch : Option (Nat × Nat)
  /-- Held write: register offset and the held low word. -/
  held : Option (Nat × Nat)
  deriving DecidableEq, Repr

/-- An event on its way to delivery (R431 to R435). -/
structure Ev where
  typ : Nat
  sev : Nat
  nmi : Bool
  pennant : Bool
  esc : Bool
  src : Nat
  code : Nat
  /-- Detail for the management path. -/
  detail : Nat
  dpa : Nat
  /-- The partition concerned; none for a device event. -/
  part : Option Nat
  /-- The partitions that receive it, each with its own DETAIL. -/
  parts : List (Nat × Nat)
  time : Nat
  deriving DecidableEq, Repr

/-- The event block's own state (R431 to R437). -/
structure EvtS where
  pend : List Ev
  /-- Severity held in each FIRST slot, by record index. -/
  firstSev : NMap Nat
  /-- SEQ of each partition's ring. -/
  seq : NMap Nat
  /-- Partitions whose interrupt is held while host-lost (R433). -/
  irqHeld : NSet
  deriving DecidableEq, Repr

/-- A partition section in force (R40). -/
structure Sect where
  key : Nat
  prioCeil : Nat
  preFloor : Nat
  pmin : Nat
  pmax : Nat
  onchip : Nat
  host : Nat
  name : List Byte
  tiles : Nat
  waysA : Nat
  waysB : Nat
  chans : Nat
  ports : Nat
  spill : Nat
  routesA : Nat
  routesB : Nat
  d2d : Nat
  dig : List Byte
  deriving DecidableEq, Repr

/-- A shared-region entry (R39). -/
structure Shared where
  chans : Nat
  readers : Nat
  writer : Nat
  key : Nat
  deriving DecidableEq, Repr

/-- A device section (R37). -/
structure DevSect where
  portMode : List Nat
  exch : List (Nat × Nat)
  gate : Nat
  sparePolicy : Nat
  shared : List Shared
  dig : List Byte
  deriving DecidableEq, Repr

/-- An image as parsed: header values, device section and partition sections. -/
structure Image where
  id : Nat
  version : Nat
  keySlot : Nat
  dev : DevSect
  sects : NMap Sect
  deriving DecidableEq, Repr

/-- A load between its acceptance and its last step (R47). -/
structure LoadJob where
  full : Bool
  part : Nat
  img : Image
  bytes : List Byte
  /-- Partitions that still drain or scrub. -/
  left : NSet
  deriving DecidableEq, Repr

/-- An image load that came while the device was furled (R52): its session and tag, its mode and the image. -/
structure LoadReq where
  sess : Nat
  tag : Nat
  cred : Nat
  full : Bool
  bytes : List Byte
  deriving DecidableEq, Repr

/-- The fabric image and the tile roles (R33 to R56). -/
structure FabS where
  /-- First 32 bytes of SHAKE256 over the image in force (R417); none while LOADED is 0. -/
  meas : List Byte
  /-- The image in force; none while LOADED is 0. -/
  image : Option Image
  /-- Live tile roles that are not unassigned, as the register byte of FAB_TILE_ROLEn. -/
  roles : NMap Nat
  job : Option LoadJob
  /-- The accepted image that is being written to flash, with its VERSION. -/
  store : Option (List Byte × Nat)
  waits : List LoadReq
  deriving DecidableEq, Repr

/-- A watch summary on its way to the collector (R91). -/
structure Summary where
  entry : Nat
  total : Nat
  sat : Nat
  flush : Nat
  nonfin : Nat
  /-- Largest |v| among finite elements. -/
  amax : Num
  /-- Output format code. -/
  fmt : Nat
  rerun : Bool
  /-- Shadow bins of R97: bin and count. -/
  bins : NMap Nat
  /-- R99: this descriptor's squared norm, as FP32 bits, when it drained into the blotter. -/
  sumsq : Option Nat
  /-- The micro-batch of the task that ran the descriptor. -/
  mb : Nat
  deriving DecidableEq, Repr

/-- A sampled descriptor between its drain and the end of its recomputation (R96 to R98). -/
structure Shadow where
  desc : List Byte
  row : Nat
  sum : Summary
  deriving DecidableEq, Repr

/-- A cache tag of a physical inkwell page (R192). -/
structure CTag where
  src : Nat
  step : Nat
  used : Nat
  deriving DecidableEq, Repr

/-- A blotter region on its tile (R143, TIL_BL_SLOTn): 1 resident, 2 SPILLED, 3 folded, 4 drained. -/
structure Region where
  tensor : Nat
  state : Nat
  /-- First view block. -/
  vb : Nat
  /-- Physical blocks, in order of the view, while resident. -/
  blocks : List Nat
  /-- A FILL or FOLD stopped at code 0x05: the region is not drained (R157). -/
  stopped : Bool
  /-- The step in which it was opened (R152). -/
  step : Nat
  deriving DecidableEq, Repr

/-- An operation of the blotter engine (R144): 1 OPEN, 2 SPILL, 3 FILL, 4 FOLD, 5 DRAIN, 6 CLOSE. -/
structure BlOp where
  op : Nat
  region : Nat
  deriving DecidableEq, Repr

/-- What a tile holds beside its registers, inkwell, accumulators and blotter elements. -/
structure Tile where
  /-- Page map (R189): physical page of each task page; empty is the identity. -/
  pmap : List Nat
  tags : NMap CTag
  /-- Tags that the running task's LOADs with REUSE leave at its completion (R192). -/
  cand : NMap CTag
  /-- Physical pages that a ZERO or LOAD filled, or that any unit wrote, since the launch (R206). -/
  wr : NSet
  /-- ET5 flag of the latest accumulation (R101). -/
  mxEt5 : Bool
  /-- Eligible descriptors since the partition's watch was enabled (R96). -/
  eligible : Nat
  shadow : Option Shadow
  /-- The nib ring's WAIT: unit and count (R106). -/
  nbWait : Option (Nat × Nat)
  /-- The movers' WAITs. -/
  smWait : NMap (Nat × Nat)
  /-- Movers halted by a fault (R135; the movers have no STATUS register). -/
  smHalt : NSet
  blQueue : List BlOp
  /-- The operation that the engine runs, once its effect is there. -/
  blCur : Option BlOp
  /-- The operation that the engine has started and that waits for pages (R204). -/
  blStall : Option BlOp
  regions : NMap Region
  deriving DecidableEq, Repr

/-- A tile after reset. -/
def Tile.init : Tile := ⟨[], [], [], [], false, 0, none, none, [], [], [], none, none, []⟩

/-- Running counts of one watch entry in the current step (R86 ACCUM, R89 to R99). -/
structure NwAcc where
  total : Nat
  sat : Nat
  flush : Nat
  nonfin : Nat
  amax : Num
  rerun : Bool
  mismatch : Bool
  bins : NMap Nat
  /-- Micro-batches that contributed (MB_COUNT). -/
  mbs : NSet
  sumsqMb : Num
  sumsqAcc : Nat
  deriving DecidableEq, Repr

def NwAcc.init : NwAcc := ⟨0, 0, 0, 0, Num.zero, false, false, [], [], Num.zero, 0⟩

/-- A partition's numeric watch (R85 to R104). -/
structure NwP where
  flight : List Summary
  acc : NMap NwAcc
  /-- PARTIAL of the step in progress. -/
  partialStep : Bool
  /-- Entries treated as R467 says for the step in progress. -/
  dead : NSet
  /-- The first step whose boundary update is still to come (R95): the one in progress when the watch or the sequencer was enabled, then one past the
  last update. -/
  due : Nat
  deriving DecidableEq, Repr

def NwP.init : NwP := ⟨[], [], false, [], 0⟩

/-- A channel (R267, HBM_CHn_STATUS): STATE 0 in service, 1 mapped out, 2 FAILED, 3 waiting for map-out, 4 RETRAINING; OWNER; SLOT. -/
structure Chan where
  state : Nat
  owner : Nat
  slot : Nat
  /-- Key tag of its pages, but for those listed in HbmS.tags: 0–7, or 8 for FREE (R285). -/
  tag : Nat
  deriving DecidableEq, Repr

/-- A free channel in service. -/
def Chan.init : Chan := ⟨0, 0x18, 0, 8⟩

/-- An owner of channels: partition 0–15 or shared region 16 + r (R269, R279, R284). -/
structure Owner where
  /-- Global channels by slot. -/
  chs : List Nat
  /-- Slots mapped out since the section took effect. -/
  lost : NSet
  /-- SPILL_MIB. -/
  spill : Nat
  /-- Current key index. -/
  cur : Nat
  deriving DecidableEq, Repr

/-- One line held by the last-level cache (R271), in its set's order of use. -/
structure LlcLine where
  way : Nat
  part : Nat
  line : Nat
  dirty : Bool
  deriving DecidableEq, Repr

/-- The memory controllers and the last-level cache (R267 to R288). -/
structure HbmS where
  chan : NMap Chan
  own : NMap Owner
  /-- Key tags of the 2 MiB channel pages that differ from their channel's, by channel × 1,024 + page (R285). -/
  tags : NMap Nat
  /-- Cache sets, by half × 8,192 + set, most recently used line first. -/
  llc : NMap (List LlcLine)
  /-- Uncorrectable lines found, with their time, newest first, by channel (R278). -/
  ues : NMap (List (Nat × Nat))
  /-- Next line of the patrol scrubber, by channel (R275). -/
  scrub : NMap Nat
  /-- Lines (DPA / 512) of relocated granules' homes that hold data; the other lines of such homes read as poison (R279). -/
  homes : NSet
  /-- The channel whose map-out has assigned homes and waits for the switch (R279). -/
  mapJob : Option Nat
  /-- Lines written since the trigger of a map-out whose accesses wait for its switch, by owner × 2^30 + line (R279). -/
  late : NMap (List Byte)
  /-- Read and write timing centres that each trained channel runs with: the fused ones plus the trims (R457, R459). -/
  centre : NMap (Int × Int)
  deriving DecidableEq, Repr

/-- A command ring's progress (R350, R351): when its slot first failed to match, and the next descriptor of a TASK_REF. -/
structure Cr where
  mism : Option Nat
  item : Nat
  deriving DecidableEq, Repr

def Cr.init : Cr := ⟨none, 0⟩

/-- The host side of one partition (R352 to R360). -/
structure HifP where
  /-- Attached at least once since device reset (R357). -/
  attached : Bool
  losses : Nat
  cause : Nat
  /-- Records from TAIL up to HEAD, oldest first. -/
  unread : List (List Byte)
  /-- Records produced and not yet written to the ring. -/
  waiting : List (List Byte)
  /-- Records produced since device reset, which give each its place in the host-lost queue. -/
  made : Nat
  /-- Places reserved for tasks that hold tiles. -/
  reserved : Nat
  /-- Time of the last completion interrupt. -/
  lastIrq : Option Nat
  deriving DecidableEq, Repr

def HifP.init : HifP := ⟨false, 0, 0, [], [], 0, 0, none⟩

/-- The host interface (R337 to R361). -/
structure HifS where
  part : NMap HifP
  /-- Command rings by 8 × partition + ring. -/
  cr : NMap Cr
  /-- Pages that are not DEVICE, by owner × 2^18 + page: 1 SHARED, 2 FLIPPING (R344). -/
  bias : NMap Nat
  /-- Functions whose Bus Master Enable is 1. -/
  bme : NSet
  /-- The functions answer configuration requests (R461). -/
  present : Bool
  /-- Functions whose MSI-X enable is 0; vectors that their MSI-X table masks, and the pending-bit arrays, by 2,048 × function + vector (R338; log
  entry 204). -/
  msixOff : NSet
  masked : NSet
  pba : NSet
  deriving DecidableEq, Repr

/-- A BAR0 access that waits (R369), with the modified lines that the host returns for a write of HIF_BIND (R346). -/
structure BusOp where
  src : Src
  off : Nat
  width : Nat
  data : Nat
  write : Bool
  dirty : HostStores
  deriving DecidableEq, Repr

/-- A host access that waits for the end of a relock (R369) or of a wake (R402). -/
inductive HostOp where
  | bus (b : BusOp)
  /-- A BAR0 access to a block whose clock enable was cleared while the access waited: it completes normally (R31). -/
  | early (b : BusOp)
  /-- BAR2 by CXL.io: function, offset, and bytes to read or data. -/
  | ioRead (fn off n : Nat)
  | ioWrite (fn off : Nat) (data : List Byte)
  /-- BAR2 of function 0 by CXL.mem. -/
  | memRead (off n : Nat)
  | memWrite (off : Nat) (data : List Byte)
  deriving DecidableEq, Repr

/-- The clock monitor and the PLLs beside their registers (R362 to R372). -/
structure ClkS where
  /-- A missing edge fell in the window in progress: REFCLK, recovered clock. -/
  refMiss : Bool
  recMiss : Bool
  /-- Consecutive windows within tolerance since the last failure: REFCLK, recovered clock. -/
  refGood : Nat
  recGood : Nat
  /-- Has the clock failed and not yet passed again? -/
  refFailed : Bool
  recFailed : Bool
  /-- The oscillator has failed: no frequency is checked until a device reset (R365). -/
  oscBad : Bool
  /-- The source the PLL is relocking to, and whether a failure caused it. -/
  relock : Option (Nat × Bool)
  /-- The dividers are relocking (R369). -/
  divBusy : Bool
  /-- Gates whose enable has been written 0 and whose units have not stopped yet (R31). -/
  offs : NSet
  waiting : List HostOp
  /-- The source in use has failed in the window in progress (R367). -/
  failWin : Bool
  deriving DecidableEq, Repr

/-- A task descriptor (R187). -/
structure TaskDesc where
  kind : Nat
  level : Nat
  phase : Nat
  notify : Bool
  early : Bool
  idem : Bool
  slowRead : Bool
  tiles : Nat
  tset : Nat
  model : Nat
  taskId : Nat
  step : Nat
  mb : Nat
  epoch : Nat
  launch : Nat
  w0 : Nat
  w1 : Nat
  v0 : Nat
  v1 : Nat
  postSig : Nat
  postInc : Nat
  regions : List Nat
  user : List Byte
  deriving DecidableEq, Repr

/-- Where a task stands. -/
inductive TSt where
  /-- Fetched, not placed (ready or not, R194). -/
  | queued
  /-- Placed; page loads in progress (R191 steps 1 to 3). -/
  | launching
  /-- Rings enabled. -/
  | running
  /-- WAITING_REMOTE (R197). -/
  | remote
  /-- Victim whose tiles are being spilled (R206). -/
  | spilling
  /-- All its tiles are spilled. -/
  | spilled
  /-- Tiles returned, restore in progress (R207). -/
  | restoring
  /-- POISONED and IDEMPOTENT: waits for its line to be rebuilt (R202). -/
  | retry
  deriving DecidableEq, Repr

/-- The control record of a spilled tile (R206): its units' state and its registers' values, in the order of savedFlds. -/
structure TileSave where
  x : Tile
  flds : List Nat
  deriving DecidableEq, Repr

/-- A task in the scheduler. -/
structure Task where
  d : TaskDesc
  /-- The launch record, as read when the descriptor was fetched (R209). -/
  rcd : List Byte
  /-- Effective level (R187). -/
  level : Nat
  /-- Command ring 0–7, or 8 for the sequencer. -/
  src : Nat
  /-- Table entry of the sequencer, for src 8. -/
  entry : Nat
  st : TSt
  /-- Its readiness conditions have been met (R194). -/
  ready : Bool
  /-- Its tiles in rank order. -/
  tiles : List Nat
  /-- Tiles whose loads (or spill, or restore) are complete. -/
  done : NSet
  /-- Tiles whose rings have been started (R191 steps 4 and 5). -/
  started : NSet
  /-- Spill slot of each spilled tile. -/
  slots : NMap Nat
  /-- Where it stood when its spill began. -/
  was : TSt
  /-- The tiles whose loads were complete when its spill began. -/
  wasDone : NSet
  /-- Control records of its spilled tiles. -/
  saved : NMap TileSave
  retried : Nat
  /-- PMS address of a poisoned line that it read. -/
  bad : Option Nat
  /-- Software has aborted one of its rings (R193). -/
  aborted : Bool
  /-- Tile, unit and code of a ring fault. -/
  fault : Option (Nat × Nat × Nat)
  /-- Dispatch order. -/
  disp : Nat
  deriving DecidableEq, Repr

/-- The scheduler's state of one partition (R186 to R210). -/
structure SchP where
  /-- Tasks by arrival number. -/
  tasks : NMap Task
  nextArr : Nat
  nextDisp : Nat
  /-- Last dispatch of each model (R201), and its place while loading. -/
  modelUse : NMap Nat
  /-- Pins by page of the paged window (R204). -/
  pins : NMap Nat
  /-- Last use of each frame. -/
  frameUse : NMap Nat
  /-- Pages in transit: page and frame. -/
  transit : NMap Nat
  /-- Resident pages by frame. -/
  frames : NMap Nat
  /-- Pages lost with host memory (R360). -/
  lost : NSet
  /-- Demand accesses that wait: tile and page. -/
  demand : List (Nat × Nat)
  /-- Those of them that SCH_DEMAND_FAULTS has counted. -/
  counted : List (Nat × Nat)
  /-- Descriptors handed to the scheduler and not yet fetched: source (command ring, or 8), arrival number and entry for the sequencer,
  and the descriptor. -/
  inq : List (Nat × Nat × Nat × List Byte)
  /-- Next command ring to fetch from (R186). -/
  turn : Nat
  deriving DecidableEq, Repr

def SchP.init : SchP := ⟨[], 0, 0, [], [], [], [], [], [], [], [], [], 0⟩

/-- A reduction in progress (R225 to R229), for a REDUCE entry. -/
structure Red where
  group : Nat
  /-- Positions whose contribution to this member's segment has landed. -/
  conts : NSet
  /-- Positions whose reduced segment is present in GRAD_BASE. -/
  results : NSet
  /-- This member has summed its segment and sent it. -/
  summed : Bool
  /-- SLOW: records received for this member's lines, by sender's position. -/
  recsIn : NMap (List (List Byte))
  /-- SLOW: summed records, by owner's position. -/
  recsSum : NMap (List (List Byte))
  deriving DecidableEq, Repr

/-- The stage sequencer's state of one partition (R211 to R236). -/
structure SqP where
  /-- This member's non-finite flag of the step in progress (R156, R226, R261). -/
  flag : Bool
  /-- It has forced the skip of the step in progress (R261). -/
  forced : Bool
  /-- Members whose join record has landed, this one included. -/
  joined : NSet
  /-- Entries released in the step. -/
  rel : NSet
  /-- Entries complete in the step. -/
  fin : NSet
  /-- Micro-batches in flight (R220). -/
  mbs : NSet
  /-- Blotter operations that DRAIN and FOLD entries wait for: entry, tile, operation, region. -/
  bl : List (Nat × Nat × Nat × Nat)
  /-- By 2^21 × (step mod 2) + entry. -/
  reds : NMap Red
  /-- Member 0: members whose close record has landed, and whose frequency report has, by 128 × (step mod 2) + member. -/
  closes : NSet
  reports : NSet
  /-- Member 0 has sent the frequency decision of the step. -/
  decided : Bool
  /-- The combined record of the step has arrived; its non-finite flag. -/
  combined : Option Bool
  /-- REQ_EPOCH of a combined record that carried EPOCH_REQ (R234). -/
  agreed : Option Nat
  /-- Lines of the new shards that a migration still lacks: tensor and line (R235). -/
  missing : List (Nat × Nat)
  /-- Lines of the MIGRATE list that have not been sent: tensor, line and member. -/
  toSend : List (Nat × Nat × Nat)
  /-- The slow-tier tensors migrate too (R235 step 5). -/
  slowMig : Bool
  /-- Slot and epoch that this member asked for in its close record of the step: what an agreed switch goes to (R234). -/
  asked : Option (Nat × Nat)
  /-- The bunting table as last read at JOIN or ENABLE, with what this member has written since: it stands in for lines that read poisoned (R467; log
  entry 199). -/
  bt : List Byte
  deriving DecidableEq, Repr

def SqP.init : SqP := ⟨false, false, [], [], [], [], [], [], [], [], false, none, none, [], [], false, none, []⟩

/-- What the sequencer does when a Zheris request of an internal client has been acknowledged. -/
inductive ZCb where
  | none
  /-- Entry `idx` of step `step` completes (R218). -/
  | entry (step idx : Nat)
  /-- The mirror has COMMIT and VERIFY of the step (R245). -/
  | verify (slow : Bool) (step : Nat)
  deriving DecidableEq, Repr

/-- A Zheris send request: the fields of R320. -/
structure ZReq where
  part : Nat
  conn : Nat
  /-- 0 the send ring, 1 sequencer, 2 palimpsest streamer, 3 ligature units, 4 watch collector, 5 event block. -/
  client : Nat
  flags : Nat
  rsig : Nat
  lsig : Nat
  locAddr : Nat
  /-- Destination; none where the spec gives an internal message no address. -/
  remote : Option Nat
  bytes : Nat
  imm : Nat
  rinc : Nat
  linc : Nat
  tag : Nat
  /-- Bytes that a client supplies itself; none: read from the partition's memory space. -/
  data : Option (List Byte)
  cb : ZCb
  deriving DecidableEq, Repr

/-- The verification of a step in progress (R243 to R254), of the fast or the slow tier. -/
structure PalV where
  step : Nat
  /-- The class has been decided from the D messages (R244). -/
  decided : Bool
  /-- Tensors that do not agree yet. -/
  left : NSet
  /-- Bits that the full scan after the step has still to pass (R254). -/
  scan : Nat
  scrubbed : Bool
  commitSent : Bool
  verifySent : Bool
  acked : Bool
  /-- Record lists of a slow step: address and count by tensor (R246). -/
  lists : NMap (Nat × Nat)
  deriving DecidableEq, Repr

/-- A repair of a tensor in progress: 0 from the majority (R247), 1 restore and replay (R248), 2 a takeover from the mirror, 3 a takeover from a replica
(R265). -/
structure PalFix where
  mode : Nat
  slow : Bool
  /-- Lines that have not come. -/
  left : NSet
  /-- The ENTRY record has come. -/
  entry : Bool
  deriving DecidableEq, Repr

/-- A mirror slot (R255, R256). -/
structure MSlot where
  /-- Lines described so far, and the tensors. -/
  lines : Nat
  desc : NSet
  /-- Logged records: SEQ, KIND and SLOW. -/
  recs : List (Nat × Nat × Bool)
  /-- SEQ of the last COMMIT, and STEP of the last fast-tier one. -/
  commit : Option Nat
  cstep : Option Nat
  /-- The moves to be done, oldest first: SEQ, class and STEP of their VERIFY. -/
  moving : List (Nat × Bool × Nat)
  /-- COUNT of the lines in the base that have fewer than 32 elements, by tensor × 2^32 + line (R252). -/
  counts : NMap Nat
  /-- A channel map-out took its areas: records are dropped until the source reseeds (R258, R262). -/
  lost : Bool
  /-- Repair requests that wait for the move: connection and tensor. -/
  waits : List (Nat × Nat)
  /-- Layout epoch of the source's coordinates (R252). -/
  epoch : Nat
  /-- STEP of the last slow-tier COMMIT and of the last slow-tier move into the base. -/
  scommit : Option Nat
  sverified : Nat
  deriving DecidableEq, Repr

def MSlot.init : MSlot := ⟨0, [], [], none, none, [], [], false, [], 0, none, 0⟩

/-- The palimpsest streamer's state of one partition (R237 to R266). -/
structure PalP where
  /-- A seal is in progress (R241). -/
  sealing : Bool
  /-- The seal ends a takeover, and the sequencer is enabled after it (R265). -/
  takeover : Bool
  /-- Next bit of the cyclic scan. -/
  next : Nat
  /-- Bits that the first full scan of a reseed has still to pass (R258). -/
  reseed : Option Nat
  fast : Option PalV
  slow : Option PalV
  /-- Steps of an unmirrored member that were verified before their marks left, with their class (R254). -/
  late : List (Bool × PalV)
  /-- The mirror's APPLIED as last reported (R253). -/
  applied : Nat
  /-- Items of the digest messages that have landed (tensor and digest), by 512 × class + 256 × (step mod 2) + replica. -/
  msgs : NMap (List (Nat × Nat))
  /-- Digests of tensors sent again after a replay, by 128 × tensor + replica. -/
  fresh : NMap Nat
  fix : NMap PalFix
  slots : NMap MSlot
  /-- Tensors whose DESCRIBE record a reseed has still to send (R253, R258). -/
  describe : List Nat
  /-- The seal in progress starts the reseed when it ends: the lines that a map-out took are rebuilt from the mirror first (R262). -/
  thenReseed : Bool
  deriving DecidableEq, Repr

def PalP.init : PalP := ⟨false, false, 0, none, none, none, [], 0, [], [], [], [], [], false⟩

/-- A Zheris frame (R311): the port side, then IP and UDP, then the common header, whether the body is encrypted, the body as it is sent and its GCM
tag. `ident` and `dontFragment` belong to IPv4 alone; `checksum` is UDP's. -/
structure ZFrame where
  port : Nat
  sub : Nat
  dstMac : List Byte
  srcMac : Nat
  /-- PCP and VID of the tag. -/
  tag : Option (Nat × Nat)
  ipv6 : Bool
  ihl : Nat
  dscp : Nat
  ecn : Nat
  ttl : Nat
  ident : Nat
  dontFragment : Bool
  srcIp : List Byte
  dstIp : List Byte
  srcPort : Nat
  dstPort : Nat
  checksum : Nat
  header : List Byte
  sealed : Bool
  body : List Byte
  gcm : List Byte
  express : Bool
  deriving DecidableEq, Repr

/-- What the device sends out, newest first. -/
inductive Out where
  /-- A BAR0 read completes with data. -/
  | readData (src : Src) (data : Nat)
  /-- A BAR0 access ended in a bus error, with its CAUSE (R28). -/
  | busError (src : Src) (cause : Nat)
  /-- MSI-X vector of a function. -/
  | msix (fn vec : Nat)
  /-- A back-invalidate snoop of a line of a SHARED page: BISnpInv or BISnpData (R345). -/
  | snoop (inv : Bool) (line : Nat)
  /-- A Jexrex response: session, operation, status, tag and body (R420). -/
  | jex (sess op status tag : Nat) (body : List Byte)
  /-- A Jexrex event frame to a session (R433). -/
  | jexEvent (sess : Nat) (body : List Byte)
  /-- The device closes a session's TLS connection. -/
  | tlsClose (sess : Nat)
  /-- The answer of the SMBus target (R456). -/
  | smb (data : List Byte)
  /-- A raw frame leaves sub-port `k` of port `j`, without its FCS (R309). -/
  | frame (j k : Nat) (bytes : List Byte)
  /-- Fragment `n` of a raw frame that an express frame has cut into (R301), and whether it is the last. -/
  | fragment (j k n : Nat) (last : Bool) (bytes : List Byte)
  /-- A pause (PFC false) or PFC frame: priorities and times (R296). -/
  | pause (j k : Nat) (pfc : Bool) (times : List (Nat × Nat))
  /-- A verify (false) or respond frame (R299). -/
  | verify (j k : Nat) (respond : Bool)
  /-- An LLDPDU: Chassis ID, Port ID, TTL, receive wake time of the EEE TLV if offered, and whether the Additional Ethernet Capabilities
  TLV is there (R306). -/
  | lldp (j k chassis port ttl : Nat) (eee : Option Nat) (preempt : Bool)
  /-- A Zheris packet (R311): connection index, and the frame. -/
  | zheris (idx : Nat) (f : ZFrame)
  /-- CXL.mem answer: data and poison (R342). -/
  | memData (data : List Byte) (poison : Bool)
  /-- Completion of a CXL.io request through BAR2: data and EP; none is Unsupported Request (R338, R342). -/
  | cpl (fn : Nat) (data : Option (List Byte)) (ep : Bool)
  deriving DecidableEq, Repr

/-- The raw frame that a sub-port is sending (R301, R309): its bytes, those sent in earlier fragments, and how many fragments those were. -/
structure TxNow where
  bytes : List Byte
  sent : Nat
  frags : Nat
  deriving DecidableEq, Repr

/-- A frame that holds cells of a receive buffer until the Zheris engine has taken it (R295). -/
structure RxHeld where
  port : Nat
  sub : Nat
  prio : Nat
  cells : Nat
  deriving DecidableEq, Repr

/-- The Ethernet ports beside their registers (R289 to R310). Sub-ports are numbered 4 × port + sub-port. -/
structure EthS where
  /-- Held words 1 to 3 of filter entries, by 64 × port + entry: word and value (R293). -/
  held : NMap (List (Nat × Nat))
  /-- Frames delivered to each queue since it was enabled, by 32 × port + queue. -/
  seq : NMap Nat
  /-- Time of each queue's last receive event, plus 1. -/
  evT : NMap Nat
  /-- Frames in the buffers, oldest first. -/
  buf : List RxHeld
  /-- Priorities whose XOFF has been sent and not yet followed by time 0, by 8 × sub-port + priority (R296). -/
  xoff : NSet
  /-- Priorities stopped by a received pause, by 8 × sub-port + priority (R297). -/
  paused : NSet
  /-- The partner's last LLDPDU and the receive wake time of its EEE TLV, by sub-port (R306). -/
  lldp : NMap (List Byte)
  wake : NMap Nat
  /-- Verify frames sent in the verification in progress (R299). -/
  tries : NMap Nat
  /-- The addFragSize that the partner advertises (R299). -/
  frag : NMap Nat
  /-- The raw frame being sent, by sub-port (R301). -/
  now : NMap TxNow
  /-- Frames of the MAC itself that wait for the end of that frame or for the wake from LPI, by sub-port, oldest first (R301, R302). -/
  wait : NMap (List Out)
  /-- Equaliser taps that each trained lane runs with: the fused ones plus the trims (R457, R459). -/
  taps : NMap (List Int)
  /-- Ports whose current link state holds an uncorrectable FEC codeword (R441). -/
  fecBad : NSet
  deriving DecidableEq, Repr

/-- A ratio in lowest terms, for the rate control of R329. -/
structure Ratio where
  num : Nat
  den : Nat
  deriving DecidableEq, Repr

/-- A send request that a connection holds (R321, R322). -/
structure ZTx where
  r : ZReq
  /-- Messages cut so far. -/
  cut : Nat
  /-- Of those, the messages that are not acknowledged. -/
  left : NSet
  /-- The receiver refused a message; nothing more is cut. -/
  refused : Bool
  poisoned : Bool
  /-- A field is out of range or LOCAL outside: it completes INVALID. -/
  invalid : Bool
  deriving DecidableEq, Repr

/-- A message sent and not acknowledged whole (R321): its request's place among the messages, its part and the segments not acknowledged. -/
structure ZMsg where
  part : Nat
  bytes : Nat
  req : ZReq
  final : Bool
  segs : NSet
  deriving DecidableEq, Repr

/-- A message in progress at the receiver (R324). -/
structure ZRec where
  len : Nat
  imm : Nat
  addr : Nat
  mflags : Nat
  sig : Nat
  inc : Nat
  refused : Bool
  poisoned : Bool
  segs : NSet
  deriving DecidableEq, Repr

/-- A connection context that is not FREE (R317 to R333). -/
structure Conn where
  part : Nat
  /-- 1 WAIT_HELLO, 2 HELLO_SENT, 3 OPEN, 4 UNREACHABLE, 5 CLOSED. -/
  state : Nat
  /-- The open descriptor (R318). -/
  desc : List Byte
  /-- 2^seg is the segment size in use. -/
  seg : Nat
  /-- Nonces of the initiator and the responder, and the 72 bytes of key material (R315). -/
  nonceI : List Byte
  nonceR : List Byte
  keys : List Byte
  /-- Signature of this side's HELLO or HELLO_ACK. -/
  sign : List Byte
  resident : Bool
  /-- Order of use, for eviction. -/
  used : Nat
  -- sender
  nextSeq : Nat
  nextPn : Nat
  reqs : List ZTx
  msgs : NMap ZMsg
  /-- Transmissions not acknowledged: PN, and message and segment. -/
  flight : NMap (Nat × Nat)
  /-- Segments to be sent again, and segments not sent yet: message and segment. -/
  resend : List (Nat × Nat)
  fresh : List (Nat × Nat)
  /-- Transmissions taken as lost whose segments have not been sent again: an ACK of one still acknowledges its segment (R322). -/
  late : NMap (Nat × Nat)
  /-- The next segment's source page is away. -/
  away : Bool
  /-- Largest PN acknowledged; the receiver's last reported RCV_DONE. -/
  maxAck : Nat
  peerDone : Nat
  /-- SRTT, RTTVAR and RTO in 1/256 of 10 ns; none before the first sample. -/
  srtt : Option (Nat × Nat)
  rto : Nat
  /-- R in bytes per second, A and I (R329), and RX_PKTS and RX_CE: newest, and at the last update. -/
  rate : Ratio
  cong : Ratio
  goodN : Nat
  rxNow : Nat × Nat
  rxLast : Nat × Nat
  closeTries : Nat
  closeReason : Nat
  /-- Status with which its requests complete once it is CLOSED (R322). -/
  endStatus : Nat
  /-- A PROBE could not be sent yet. -/
  probeDue : Bool
  -- receiver
  rcvDone : Nat
  recs : NMap ZRec
  /-- PNs received and acknowledgeable, as ranges in decreasing order, and the largest PN received. -/
  pns : List (Nat × Nat)
  largest : Nat
  rxPkts : Nat
  rxCe : Nat
  /-- DATA packets since the last ACK, and the time of arrival of the largest PN that may be acknowledged. -/
  unacked : Nat
  lastArr : Nat
  /-- Refused messages that no ACK has told the sender. -/
  tell : List Nat
  ackDue : Bool
  deriving DecidableEq, Repr

/-- The Zheris engine (R311 to R336). -/
structure ZtS where
  /-- Requests of the internal clients that the engine has not taken, oldest first. -/
  int : List ZReq
  /-- Contexts that are not FREE, by index, and each index's generation (R319). -/
  ctx : NMap Conn
  gens : NMap Nat
  /-- Contexts with a fetch in progress; the miss queue: context and packet (R334). -/
  fetch : NSet
  miss : List (Nat × ZPkt)
  useN : Nat
  /-- Partitions whose OPEN waits for a slot while the host is lost (R335). -/
  opens : NSet
  deriving DecidableEq, Repr

def ZtS.init : ZtS := ⟨[], [], [], [], [], 0, []⟩
def EthS.init : EthS := ⟨[], [], [], [], [], [], [], [], [], [], [], [], [], []⟩

/-- A notification of R170: a tensor whose reduced gradient is present. -/
structure LNote where
  tensor : Nat
  epoch : Nat
  step : Nat
  /-- NORM_PEERS when NORM_XCHG is 1 (R228). -/
  peers : Nat
  deriving DecidableEq, Repr

/-- The update of a fast-tier tensor shard in the step in progress (R170 to R176), with its entry's snapshot (R163). -/
structure LUpd where
  note : LNote
  ent : List Byte
  /-- Address of the entry. -/
  addr : Nat
  /-- This member's shard sum, FP32 bits (R168). -/
  own : Nat
  /-- SUMSQ, NORM and FACTOR once formed. -/
  norm : Option (Nat × Nat × Nat)
  frozen : Bool
  /-- Every line of the shard holds the step. -/
  done : Bool
  deriving DecidableEq, Repr

/-- A slow-tier update (R178 to R180): its record list, and its update once started. -/
structure LSlow where
  note : LNote
  list : Nat
  count : Nat
  upd : Option LUpd
  deriving DecidableEq, Repr

/-- The ligature units' state of one partition (R158 to R185). -/
structure LigP where
  /-- ENABLE in force; a clear takes effect at the next step boundary (R185). -/
  on : Bool
  notes : List LNote
  /-- The step in progress. -/
  cur : Option Nat
  upds : List LUpd
  /-- Tensor and line of each occupied journal slot (R173). -/
  jlines : List (Nat × Nat)
  /-- The flag of the step in progress, once it has arrived (R172). -/
  flag : Option Bool
  /-- Rollback of the skipped step has restored its lines, and LIG_STEP is still to move (R177). -/
  rolling : Bool
  /-- Last step committed or skipped since reset. -/
  last : Option Nat
  /-- Shard sums received: tensor × 128 + member (R228). -/
  sums : NMap Nat
  slow : List LSlow
  /-- Skipped steps whose slow-tier updates are to be discarded (R180). -/
  skipped : NSet
  /-- The journal slots already written back in this rollback (R176). -/
  back : NSet
  /-- Lines with a fault in force (R181, R441): unit, tensor, line. -/
  bad : List (Nat × Nat × Nat)
  deriving DecidableEq, Repr

def LigP.init : LigP := ⟨false, [], none, [], [], none, false, none, [], [], [], [], []⟩

/-- A firmware image as the ROM sees it (R410): header values, FW_MEASURE, whether it passes R411 but for its key and the floor, and the bytes that FW_END
wrote (none for the image from manufacture, log entry 4). -/
structure FwImg where
  svn : Nat
  version : Nat
  key : Nat
  good : Bool
  measure : List Byte
  bytes : List Byte
  deriving DecidableEq, Repr

/-- A key slot: 0 EMPTY, 1 ENROLLED, 2 REVOKED, and its key (R414). -/
structure KSlot where
  state : Nat
  key : List Byte
  deriving DecidableEq, Repr

def KSlot.empty : KSlot := ⟨0, List.replicate 57 0⟩

/-- An entry of the credential table: role 1 operator, 2 installer (R421). -/
structure Cred where
  key : List Byte
  role : Nat
  name : List Byte
  deriving DecidableEq, Repr

/-- The counts and facts of the life ledger (R443, R444). Counts of channels, energy and time are those carried from earlier boots. -/
structure Ledger where
  failed : NSet
  mapped : NSet
  /-- AGED of the tiles whose lowest measured maximum is below their fused one. -/
  aged : NMap Nat
  /-- Measurements of each tile, and its last drift from FUSED as 32 bits. -/
  meas : NMap Nat
  drift : NMap Nat
  powerOn : Nat
  energy : Nat
  cycles : Nat
  furls : Nat
  exceeded : Nat
  /-- Milliseconds of throttling. -/
  throttle : Nat
  peak : Nat
  ce : NMap Nat
  ue : NMap Nat
  /-- Histograms by lane × 16 + bin, port × 16 + bin, sub-port, and group × 32 + band in 10 ms. -/
  eye : NMap Nat
  fec : NMap Nat
  linkDown : NMap Nat
  temp : NMap Nat
  deriving DecidableEq, Repr

def Ledger.init : Ledger := ⟨[], [], [], [], [], 0, 0, 0, 0, 0, 0, 0, [], [], [], [], [], []⟩

/-- A snapshot in flash (R444). -/
structure Snap where
  seq : Nat
  boots : Nat
  reason : Nat
  led : Ledger
  deriving DecidableEq, Repr

/-- The older copies of the dual flash areas (R409), and the sequence number of each area's newest copy: 1 stored fabric image and floor, 2 key slots,
credentials, network settings and root-index enables, 3 user trim, 4 device certificate. -/
structure NvOld where
  image : Option (List Byte)
  floor : Nat
  slots : NMap KSlot
  creds : NMap Cred
  net : Option (List Byte)
  rootEn : Nat
  trim : Option (List Byte)
  cert : List Byte
  seq : NMap Nat
  deriving DecidableEq, Repr

/-- What the flash and the one-time fuses hold (R409). It survives a device reset. -/
structure NvS where
  boots : Nat
  /-- READY_OFF was reached, a thermal trip, a rail fault, before the next reset. -/
  orderly : Bool
  trip : Bool
  railFault : Bool
  fw : FwImg
  fwFloor : Nat
  key0Revoked : Bool
  /-- The stored fabric image (R53). -/
  image : Option (List Byte)
  /-- FAB_VERSION_FLOOR. -/
  floor : Nat
  slots : NMap KSlot
  creds : NMap Cred
  /-- Stored network settings; none until NET_CONFIG. -/
  net : Option (List Byte)
  rootEn : Nat
  /-- The stored user trim record (R458). -/
  trim : Option (List Byte)
  cert : List Byte
  /-- Logbook records, newest first, and the SEQ of the next (R427). -/
  log : List (List Byte)
  logSeq : Nat
  /-- The ring of ledger snapshots, newest first, at most 256 (R444). -/
  snaps : List Snap
  /-- Fault records, newest first, and the SEQ of the next (R445). -/
  faults : List (List Byte)
  faultSeq : Nat
  old : NvOld
  deriving DecidableEq, Repr

/-- Where the newest copy of a dual area stands in flash, for the sequence number of that copy (R409): the copies are written alternately. -/
def flashCopy (area seq : Nat) : Nat :=
  match area with
  | 1 => 0x1000000 + 0x100000 * (seq % 2)
  | 2 => 0x1200000 + 0x10000 * (seq % 2)
  | 3 => 0x1220000 + 0x10000 * (seq % 2)
  | _ => 0x1240000 + 0x40000 * (seq % 2)

/-- The newest snapshot. -/
def NvS.snap (n : NvS) : Option Snap := n.snaps.head?

/-- A write of dual area `area` that turns flash `n` into `new`: the older copy is overwritten, so the copy in force so far becomes the older one (R409). -/
def NvS.rewrite (n : NvS) (area : Nat) (new : NvS) : NvS :=
  let o := { n.old with seq := mupd 0 n.old.seq area (· + 1) }
  { new with old :=
    match area with
    | 1 => { o with image := n.image, floor := n.floor }
    | 2 => { o with slots := n.slots, creds := n.creds, net := n.net, rootEn := n.rootEn }
    | 3 => { o with trim := n.trim }
    | _ => { o with cert := n.cert } }

/-- An open Jexrex session (R419 to R425). -/
structure Sess where
  key : List Byte
  /-- Its credential; none during setup. -/
  cred : Option Nat
  subscribed : Bool
  /-- Maker functions granted. -/
  maker : Nat
  /-- It answers 0x0008 to everything and performs nothing. -/
  closing : Bool
  deriving DecidableEq, Repr

/-- The shared record of READ_REG, LOG_READ and LEDGER_READ operations that is still open (R427): its session, and the record. -/
structure OpenRec where
  sess : Nat
  bytes : List Byte
  deriving DecidableEq, Repr

/-- The security block's volatile state (R408 to R428). -/
structure SecS where
  /-- The running firmware; none before stage 3 and in recovery. -/
  run : Option FwImg
  sess : NMap Sess
  /-- Mask and session of the challenge in force, and its 64 bytes. -/
  challenge : Option (Nat × Nat × List Byte)
  challenges : Nat
  wrong : Nat
  /-- Failed handshakes of the last 60 s: source address and time; addresses refused. -/
  fails : List (Nat × Nat)
  refused : NSet
  /-- The firmware path: its session, LENGTH and the staged bytes. -/
  fw : Option (Nat × List Byte)
  openRec : Option OpenRec
  /-- Operator records not yet in flash, oldest first. -/
  held : List (List Byte)
  /-- The firmware floor before the newest FW_COMMIT, and its time (R411). -/
  commit : Option (Nat × Nat)
  deriving DecidableEq, Repr

/-- Pins, supplies and reset (R448 to R456). -/
structure GenS where
  perst : Bool
  sysReset : Bool
  prsnt : Nat
  /-- 0 below the lockout, 1 operating, 2 over-voltage. -/
  vin : Nat
  /-- The rails other than point 23 are on. -/
  rails : Bool
  /-- Sources of the device reset in progress. -/
  causes : List Nat
  /-- PREPARE_OFF or a Jexrex RESET has begun the shutdown of R453. -/
  prepare : Bool
  readyOff : Bool
  /-- The shutdown ends in a device reset. -/
  resetAfter : Bool
  alert : Bool
  /-- CAUSE of the last device reset, and what preceded it. -/
  cause : Nat
  orderly : Bool
  trip : Bool
  railFault : Bool
  /-- ms from the start of stage 0 to READY, once READY. -/
  readyMs : Option Nat
  /-- The trim record in force (R460). -/
  trim : Option (List Byte)
  /-- Reason codes of the snapshots that wait to be written. -/
  snaps : List Nat
  /-- The last ledger write failed and waits for its retry; fault records that wait with it, oldest first (R443). -/
  flashBad : Bool
  recs : List (List Byte)
  /-- What the module maps of the modules present declare (R304), by port: MEDIUM, REACH_DM, MAX_POWER. -/
  modules : NMap (Nat × Nat × Nat)
  /-- µs with PWR_GOOD released that the ledger's power-on time does not hold yet (R444). -/
  onUs : Nat
  deriving DecidableEq, Repr

/-- The power and frequency controller (R379 to R402). Powers are mW and energies nJ. -/
structure PwrS where
  /-- Input energy of each µs, newest first, up to the last second. -/
  hist : List Nat
  /-- Ticks since each limit of R379 last fell; none while it has not. -/
  ages : List (Option Nat)
  /-- Issue cycles of each tile in the last µs, ballast included. -/
  prev : NMap Nat
  /-- Non-issue power of the last µs. -/
  nonIssue : Nat
  /-- Energy in nJ that the last µs attributed outside the tile cores: partition, energy. -/
  other : List (Nat × Nat)
  /-- m of each partition in the last 1,000 µs in which it issued. -/
  mHist : NMap (List Nat)
  /-- Energy attributed to each partition in the last 1,000 µs. -/
  pHist : NMap (List Nat)
  /-- Fractions of a µJ carried, by partition; 16 is the total's. -/
  frac : NMap Nat
  /-- Fractions of a µJ carried for the phase entries, by partition × 64 + entry. -/
  phaseFrac : NMap Nat
  /-- Measured power of the eight tile-core groups and of the non-tile points in the last µs. -/
  groups : List Nat
  nonTile : Nat
  /-- PWR_Pp_ENERGY at the last step entry. -/
  stepE : NMap Nat
  /-- Tiles that the maximum-frequency measurement has run on since reset, with the time. -/
  measured : NMap Nat
  /-- A raised target that waits for tile exchanges (R396). -/
  kWait : Option Nat
  /-- K_PROP of the partitions without an enabled sequencer. -/
  kProp : NMap Nat
  hotDie : Nat
  hotStack : Nat
  /-- Last peak of the hottest die; its lowest since, once it has fallen 20 °C below (R444). -/
  peak : Nat
  low : Option Nat
  /-- A wake was triggered while the device was furling. -/
  wake : Bool
  /-- GUARD_W, TAPER_US and THROTTLE_C as they stood when the device furled: what is written while it is furled takes effect on wake (R401). -/
  held : Nat × Nat × Nat
  deriving DecidableEq, Repr

def PwrS.init : PwrS := ⟨[], [none, none, none], [], 0, [], [], [], [], [], [], 0, [], [], none, [], 0, 0, 0, none, false, (20, 200, 95)⟩

structure State where
  /-- µs since device reset. -/
  now : Nat
  /-- Stored register fields, by 128 × offset + lowest bit. -/
  fields : NMap Nat
  fuse : Fuse
  /-- R11 state of each source, by source number. -/
  split : NMap Split
  /-- Device memory, by device physical address. -/
  mem : NMap Byte
  /-- Poisoned lines, by device physical address / 512. -/
  poison : NSet
  /-- Host memory, by host address. -/
  host : NMap Byte
  /-- Inkwells: tile × 0x30_0000 + physical address. -/
  ink : NMap Byte
  /-- Accumulator banks: tile × 32,768 + bank × 16,384 + row × 128 + column, ACC48. -/
  acc : NMap Nat
  /-- Blotter elements: (tile × 84 + physical block) × 4,096 + row of block × 128 + column, ACC48. -/
  blot : NMap Nat
  tiles : NMap Tile
  nw : NMap NwP
  sch : NMap SchP
  sq : NMap SqP
  lig : NMap LigP
  pal : NMap PalP
  zt : ZtS
  eth : EthS
  evt : EvtS
  fab : FabS
  hbm : HbmS
  hif : HifS
  clk : ClkS
  pwr : PwrS
  nv : NvS
  led : Ledger
  sec : SecS
  gen : GenS
  out : List Out
  /-- Free values used so far (log entry 6). -/
  freeN : Nat
  pending : List Instr
  deriving DecidableEq, Repr

/-- The fused tile states that are not ACTIVE on the modelled part: the last four of each die SPARE (log entry 3). -/
def spareTiles : List Nat := [72, 73, 74, 75, 148, 149, 150, 151]

/-- The public key of a private key of 57 zero bytes. -/
def idPublic : List Byte :=
  leBytes 57 0x80C4321CB2699166F1A829259D8F503743F0CFCECA127354D652FE62B9657F9AFD7DEFAC07F809E1BDAE42A4F1D43282B2498A8703FE3A5B

/-- The manufactured part that is modelled from reset (log entry 3). -/
def Fuse.part : Fuse :=
  { variant := 1, tile := spareTiles.map (fun t => (t, 1)), fmax := [], fmaxUsual := 3000, idKey := List.replicate 57 0, pubKey := idPublic,
    fwKeys := [List.replicate 57 0, List.replicate 57 0], makerKey := List.replicate 57 0, cluster := 0,
    setup := List.replicate 32 0, mac := 0, mgmtMac := 0, smbAddr := 0, gain := 0, osc := 0, sensor := [], taps := [], rxOff := [], centre := [] }

/-- The device certificate of that part (R415); its SERIAL, its ISSUER and the signature of Glalyn are zero bytes (log entry 4). -/
def certificate : List Byte :=
  [0x43, 0x52, 0x54, 0x39] ++ leBytes 2 1 ++ leBytes 2 0x0E09 ++ leBytes 1 1 ++ List.replicate 7 0 ++ leBytes 8 0x83D725A0F5CEE761 ++
    leBytes 8 0 ++ List.replicate 16 0 ++ idPublic ++ List.replicate 265 0

/-- The flash of a part fresh from manufacture, after its first power-on (log entry 4). -/
def NvS.fresh : NvS :=
  { boots := 1, orderly := false, trip := false, railFault := false, fw := ⟨0, 0, 0, true, List.replicate 32 0, []⟩, fwFloor := 0,
    key0Revoked := false, image := none, floor := 0, slots := [], creds := [], net := none, rootEn := 255, trim := none,
    cert := certificate, log := [], logSeq := 0, snaps := [], faults := [], faultSeq := 0,
    old := { image := none, floor := 0, slots := [], creds := [], net := none, rootEn := 255, trim := none, cert := certificate, seq := [] } }

/-- The state that a device reset leaves, but for what the fuses, the flash and the pins hold (R452). -/
def State.after (fuse : Fuse) (nv : NvS) (gen : GenS) (led : Ledger) : State :=
  { now := 0, fields := [], fuse, split := [], mem := [], poison := [], host := [], ink := [], acc := [], blot := [],
    tiles := [], nw := [], sch := [], sq := [], lig := [], pal := [], zt := ZtS.init, eth := EthS.init,
    evt := { pend := [], firstSev := [], seq := [], irqHeld := [] },
    fab := { meas := List.replicate 32 0, image := none,
             roles := ((List.range 152).filterMap (fun t =>
               if led.failed.contains t then some (t, 96)
               else match mget 0 fuse.tile t with | 1 => some (t, 64) | 2 => some (t, 160) | _ => none)),
             job := none, store := none, waits := [] },
    hbm := { chan := led.mapped.map (fun c => (c, { Chan.init with state := 1 })), own := [], tags := [], llc := [], ues := [], scrub := [],
             homes := [], mapJob := none, late := [], centre := [] },
    hif := { part := [], cr := [], bias := [], bme := [], present := false, msixOff := List.range 17, masked := [], pba := [] },
    clk := { refMiss := false, recMiss := false, refGood := 0, recGood := 0, refFailed := false, recFailed := false, oscBad := false, relock := none,
             divBusy := false, offs := [], waiting := [], failWin := false },
    pwr := PwrS.init, nv, led,
    sec := { run := none, sess := [], challenge := none, challenges := 0, wrong := 0, fails := [], refused := [], fw := none, openRec := none,
             held := [], commit := none },
    gen, out := [], freeN := 0, pending := [] }

/-- The pins and supplies after the power-on reset: input in range, PERST# and SYS_RESET_N as log entry 4 says. -/
def GenS.powerOn : GenS :=
  { perst := false, sysReset := true, prsnt := 0, vin := 1, rails := true, causes := [], prepare := false, readyOff := false,
    resetAfter := false, alert := false, cause := 1, orderly := false, trip := false, railFault := false, readyMs := none, trim := none,
    snaps := [], flashBad := false, recs := [], modules := [], onUs := 0 }

/-- The machine right after device reset. -/
def State.reset : State := State.after Fuse.part NvS.fresh GenS.powerOn Ledger.init

end Sys2Proof.Machine
end

