-- ==== Sys2Proof/Machine/Views.lean ====
section
/-!
DEFINITION. Reading and writing one register field (R9, R466), and the fields that are views of the fuses, the flash, the ledger, the
pins and other tables.
-/
namespace Sys2Proof.Machine

/-- Where a stored field is kept. -/
def Fld.key (f : Fld) : Nat := 128 * f.off + f.lo

/-- A stored field's reset value. -/
def Fld.rst (f : Fld) : Nat :=
  match f.src with
  | .stored r => r
  | .view _ => 0

/-- A stored field's value, within its bits. -/
def State.raw (s : State) (f : Fld) : Nat := mget f.rst s.fields f.key % 2 ^ f.width

/-- The fused state of tile `t`: 0 ACTIVE, 1 SPARE, 2 BAD (R15, R16). -/
def State.tileFuse (s : State) (t : Nat) : Nat := mget 0 s.fuse.tile t

/-- The die of a tile: 0 for A, 1 for B (R14). -/
def dieOf (t : Nat) : Nat := if t < 76 then 0 else 1

/-- The role byte of a tile (FAB_TILE_ROLEn). -/
def State.roleByte (s : State) (t : Nat) : Nat := mget 0 s.fab.roles t

/-- ROLE of a tile: 0 unassigned, 1 assigned, 2 SPARE, 3 FAILED, 4 SLOW, 5 BAD. -/
def State.role (s : State) (t : Nat) : Nat := s.roleByte t / 32

/-- Tiles of one die whose ROLE is `r`. -/
def State.roleCount (s : State) (die r : Nat) : Nat :=
  ((List.range 152).filter (fun t => dieOf t == die && s.role t == r)).length

/-- The partition that a tile is assigned to. -/
def State.tilePart (s : State) (t : Nat) : Option Nat := if s.role t = 1 then some (s.roleByte t % 16) else none

/-- The section in force of partition `p`. -/
def State.sect (s : State) (p : Nat) : Option Sect := s.fab.image.bind (fun i => mfind i.sects p)

/-- Tiles that partition `p` holds live. -/
def State.partTiles (s : State) (p : Nat) : List Nat := (List.range 152).filter (fun t => s.tilePart t == some p)

/-- The owner record of a partition (0–15) or shared region (16 + r), if it holds channels. -/
def State.owner (s : State) (o : Nat) : Option Owner := mfind s.hbm.own o

/-- A channel's state. -/
def State.chan (s : State) (c : Nat) : Chan := mget Chan.init s.hbm.chan c

/-- SIZE of an owner's interleaved range in bytes (R268): 2 GiB for each channel in service. -/
def Owner.size (o : Owner) : Nat := (o.chs.length - o.lost.length) * 2 ^ 31

/-- Is the channel's stack populated (R2, R3)? -/
def State.stackThere (s : State) (k : Nat) : Bool := s.fuse.variant != 2 || k == 0 || k == 1 || k == 4 || k == 5

/-- Is Ethernet port `j` present (R2)? -/
def State.portThere (s : State) (j : Nat) : Bool := s.fuse.variant != 2 || j % 8 < 4

/-- Is clock gate `g` on (R373)? -/
def State.gateOn (s : State) (g : Nat) : Bool := (s.raw (CLK_EN_EN (g / 32))).testBit (g % 32)

/-- Pages of one channel whose key tag is `i` (R285). -/
def State.tagCount (s : State) (c i : Nat) : Nat :=
  let ex := s.hbm.tags.filter (fun e => e.1 / 1024 == c)
  (ex.filter (fun e => e.2 == i)).length + (if (s.chan c).tag = i then 1024 - ex.length else 0)

/-- The key tag of page `q` of channel `c`. -/
def State.tagOf (s : State) (c q : Nat) : Nat := (mfind s.hbm.tags (c * 1024 + q)).getD (s.chan c).tag

/-- Channels of an owner that are in service. -/
def Owner.live (o : Owner) : List Nat :=
  ((List.range o.chs.length).filter (fun k => !o.lost.contains k)).map (fun k => o.chs.getD k 0)

/-- The state of a partition's scheduler. -/
def State.sp (s : State) (p : Nat) : SchP := mget SchP.init s.sch p

/-- Does the task hold its tiles now (R205 to R207)? -/
def Task.holds (k : Task) : Bool :=
  match k.st with
  | .launching | .running | .remote | .spilling | .restoring => true
  | _ => false

/-- The task that tile `t` is working for: the latest dispatched of those that hold it. -/
def State.tileTask (s : State) (t : Nat) : Option Task :=
  (s.tilePart t).bind (fun p => maxBy (·.disp) (((s.sp p).tasks.map (·.2)).filter (fun k => k.holds && k.tiles.contains t)))

/-- Is a victim of tile `t` held in a spill slot, and in which? -/
def State.tileSlot (s : State) (t : Nat) : Option Nat :=
  (s.tilePart t).bind (fun p => (((s.sp p).tasks.map (·.2)).filter (fun k => mhas k.slots t)).getLast?.bind (fun k => mfind k.slots t))

/-- STATE of SCH_TILE_STATEi. -/
def State.tileSt (s : State) (t : Nat) : Nat :=
  match s.tileTask t with
  | none => 0
  | some k =>
    match k.st with
    | .launching => if k.started.contains t then 2 else if k.done.contains t && k.d.early then 3 else if (s.tileSlot t).isSome then 5 else 1
    | .running => 2
    | .remote => 3
    | .spilling => 4
    | .restoring => 6
    | _ => 0

/-- The work of ligature unit `u` that lasts beyond a command (R185): a rollback of a partition with channels at its stack (OP 3), or a slow-tier update
that waits there for a page (OP 2, R204); the partition and OP. -/
def State.ligWork (s : State) (u : Nat) : Option (Nat × Nat) :=
  (List.range 16).findSome? (fun p =>
    let here := match s.owner p with | some o => o.chs.any (fun c => c / 32 == u) | none => false
    if (mget LigP.init s.lig p).rolling && here then some (p, 3)
    else if (s.sp p).demand.any (fun e => e.1 == 152 + u) then some (p, 2) else none)

/-- Is tile `t` free for a task of its partition: assigned, enabled by management (R442) and not held? -/
def State.tileFree (s : State) (t : Nat) : Bool :=
  (s.tileTask t).isNone && bitAt (mget 0 s.fields (EVT_ADMIN_TILE_DISABLE (t / 32)).key) (t % 32) == 0

/-- Spill slots of partition `p` in use. -/
def State.slotsUsed (s : State) (p : Nat) : List Nat := (s.sp p).tasks.flatMap (fun e => e.2.slots.map (·.2))

/-- Host-side state of partition `p`. -/
def State.hp (s : State) (p : Nat) : HifP := mget HifP.init s.hif.part p

/-- Pages of stack `k` whose tag differs from their owner's current index (R286). -/
def State.rekeyLeft (s : State) (k : Nat) : Nat :=
  ((List.range 32).map (fun n =>
    let c := s.chan (32 * k + n)
    if c.state ≠ 1 ∧ c.owner < 24 then ((s.owner c.owner).map (fun w => 1024 - s.tagCount (32 * k + n) w.cur)).getD 0 else 0)).sum

/-- Signed byte `o` of the trim record in force (R458); 0 with none. -/
def State.trimByte (s : State) (o : Nat) : Int := match s.gen.trim with | some b => toSigned 8 (leAt b o 1) | none => 0

/-- FUSED of tile `t`, MHz (R392); 0 for a BAD tile. -/
def State.fusedMhz (s : State) (t : Nat) : Nat := if s.tileFuse t = 2 then 0 else mget s.fuse.fmaxUsual s.fuse.fmax t

/-- AGED of tile `t`, MHz. -/
def State.agedMhz (s : State) (t : Nat) : Nat := (mfind s.led.aged t).getD (s.fusedMhz t)

/-- FMAX_DERATE of the trim in force (R459). -/
def State.derate (s : State) : Nat := match s.gen.trim with | some b => leAt b 0x18 2 | none => 0

/-- The frequency step limit k_t of a tile (R392, R459). -/
def State.tileK (s : State) (t : Nat) : Nat := min 70 ((min (s.fusedMhz t) (s.agedMhz t) - s.derate) * 128 / 6000)

/-- K_MAX and K_MIN in effect (R372). -/
def State.kMax (s : State) : Nat := clamp 43 70 (s.raw CLK_ARITH_LIMIT_K_MAX)
def State.kMin (s : State) : Nat := min (clamp 43 70 (s.raw CLK_ARITH_LIMIT_K_MIN)) s.kMax

/-- SPARE_POLICY bit 0 of the image in force. -/
def State.sparePolicy (s : State) : Bool := match s.fab.image with | some i => i.dev.sparePolicy.testBit 0 | none => false

/-- K_TILES (R393). -/
def State.kTiles (s : State) : Nat :=
  let asg := (List.range 152).filter (fun t => s.role t == 1)
  if s.sparePolicy then
    let fits := fun k => [0, 1].all (fun d =>
      decide ((asg.filter (fun t => dieOf t == d && decide (s.tileK t < k))).length ≤
        ((List.range 152).filter (fun t => dieOf t == d && s.role t == 2 && decide (k ≤ s.tileK t))).length))
    ((List.range 71).filter fits).foldl max 0
  else asg.foldl (fun a t => min a (s.tileK t)) 70

/-- K_DEV (R393). -/
def State.kDev (s : State) : Nat := max s.kMin (min s.kTiles s.kMax)

/-- DEVICE_ID (R406). -/
def State.deviceId (s : State) : Nat :=
  leNat (shake256 ([0x45, 0x54, 0x39, 0x2D, 0x44, 0x45, 0x56, 0x49, 0x44] ++ s.fuse.pubKey) 8)

/-- The value of a view now. -/
def State.viewVal (s : State) : View → Nat
  | .GEN_DEVID_VARIANT => s.fuse.variant
  | .GEN_RESOURCES_HBM_SITES => if s.fuse.variant = 2 then 0x33 else 0xFF
  | .GEN_RESOURCES_ETH_PORTS => if s.fuse.variant = 2 then 0x0F0F else 0xFFFF
  | .GEN_RESOURCES_ACTIVE_TILES => 0x90
  | .GEN_TILE_FUSE_TILE n x => if 16 * n + x < 152 then s.tileFuse (16 * n + x) else 0
  | .FAB_SPARES_SLOW_B => s.roleCount 1 4
  | .FAB_SPARES_SLOW_A => s.roleCount 0 4
  | .FAB_SPARES_FAILED_B => s.roleCount 1 3
  | .FAB_SPARES_FAILED_A => s.roleCount 0 3
  | .FAB_SPARES_SPARE_B => s.roleCount 1 2
  | .FAB_SPARES_SPARE_A => s.roleCount 0 2
  | .FAB_TILE_ROLE_TILE n x => s.roleByte (4 * n + x)
  | .TIL_BL_STATUS_FREE_BLOCKS t => 84 - ((mget Tile.init s.tiles t).regions.flatMap (fun e => e.2.blocks)).length
  | .HBM_STACK_STATUS_IN_SERVICE k =>
    if s.stackThere k && s.raw (HBM_STACK_STATUS_TRAINED k) == 1 then ((List.range 32).filter (fun n => (s.chan (32 * k + n)).state == 0)).length else 0
  | .HBM_REKEY_BUSY k => b2n (decide (0 < s.rekeyLeft k))
  | .HBM_REKEY_PAGES_LEFT k => s.rekeyLeft k
  | .HBM_CH_STATUS_STATE k n => (s.chan (32 * k + n)).state
  | .HBM_CH_STATUS_OWNER k n => (s.chan (32 * k + n)).owner
  | .HBM_CH_STATUS_SLOT k n => (s.chan (32 * k + n)).slot
  | .HBM_ERR_STATUS_OVERFLOW => min 0xFF (s.raw (EVT_OVF_COUNT 2))
  | .HBM_PSPACE_SLOTS p => ((s.owner p).map (fun o => o.chs.length % 256)).getD 0
  | .HBM_PSPACE_MAPPED_OUT p => ((s.owner p).map (fun o => o.lost.length)).getD 0
  | .HBM_PSPACE_SIZE_GIB p => ((s.owner p).map (fun o => o.size / 2 ^ 30)).getD 0
  | .HBM_KEYSTATE_CURRENT o => ((s.owner o).map (·.cur)).getD 0
  | .HBM_KEYSTATE_INUSE o =>
    ((s.owner o).map (fun w => (List.range 8).foldl (fun a i => if w.live.any (fun c => s.tagCount c i > 0) then a + 2 ^ i else a) 0)).getD 0
  | .HBM_KEYSTATE_REMAINING o => ((s.owner o).map (fun w => (w.live.map (fun c => 1024 - s.tagCount c w.cur)).sum)).getD 0
  | .SCH_PSTATUS_IDLE p => b2n ((s.sp p).tasks.isEmpty && (s.sp p).transit.isEmpty)
  | .SCH_PSTATUS_HOTSET p => ((s.sect p).map (fun c => b2n (decide (popcount c.tiles 152 ≤ 48)))).getD 0
  | .SCH_PSTATUS_TILES_FREE p => ((s.partTiles p).filter s.tileFree).length
  | .SCH_PSTATUS_RUNNING p => ((s.sp p).tasks.filter (fun e => e.2.holds && !e.2.tiles.isEmpty)).length
  | .SCH_PSTATUS_SPILLED p => ((s.sp p).tasks.filter (fun e => e.2.st == .spilled)).length
  | .SCH_SPILL_SLOTS_USED p => (s.slotsUsed p).length
  | .SCH_SPILL_SLOTS_TOTAL p => ((s.sect p).map (fun c => c.spill / 5)).getD 0
  | .SCH_TILE_STATE_STATE i => s.tileSt i
  | .SCH_TILE_STATE_PARTITION i => if (s.tileTask i).isSome then s.roleByte i % 16 else 0
  | .SCH_TILE_STATE_LEVEL i => ((s.tileTask i).map (·.level)).getD 0
  | .SCH_TILE_STATE_PHASE i =>
    ((s.tileTask i).map (fun k => match k.st with | .spilling | .restoring => 63 | _ => k.d.phase)).getD 0
  | .SCH_TILE_STATE_SLOT i => (s.tileSlot i).getD 0xFFFF
  | .LIG_USTATUS_BUSY u => b2n (s.ligWork u).isSome
  | .LIG_USTATUS_OP u => ((s.ligWork u).map (·.2)).getD 0
  | .LIG_USTATUS_PARTITION u => ((s.ligWork u).map (·.1)).getD 0
  | .ZTX_MISSQ_USED => s.zt.miss.length
  | .ZTX_P_CONNS_HELD p => (s.zt.ctx.filter (fun e => e.2.part == p)).length
  | .ZTX_P_CONNS_RESIDENT p => (s.zt.ctx.filter (fun e => e.2.part == p && e.2.resident)).length
  | .HIF_P_STATUS_HALTED p => (List.range 8).foldl (fun a r => a + s.raw (HIF_P_CR_CFG_HALTED p r) * 2 ^ r) 0
  | .HIF_P_HLQ_CFG_USED p => (s.hp p).unread.length + (s.hp p).waiting.length + (s.hp p).reserved
  | .FAB_VERSION_FLOOR_FLOOR => s.nv.floor
  | .ETH_STATUS_HELD j =>
    (match s.fab.image with | some i => i.sects | none => []).foldl (fun a (e : Nat × Sect) => a ||| bitsAt e.2.ports (4 * j) 4) 0
  | .ETH_MAC_ADDR j k => (s.fuse.mac + 4 * j + k) % 2 ^ 48
  | .PWR_K_K_TILES => s.kTiles
  | .PWR_K_K_DEV => s.kDev
  | .PWR_TILE_FMAX_FUSED_MHZ i => s.fusedMhz i
  | .PWR_TILE_FMAX_AGED_MHZ i => s.agedMhz i
  | .SEC_STATUS_SETUP_OPEN => b2n s.nv.creds.isEmpty
  | .SEC_STATUS_FW_KEY0_REVOKED => b2n s.nv.key0Revoked
  | .SEC_STATUS_SESSIONS => s.sec.sess.length
  | .SEC_STATUS_KEYSLOTS => (List.range 4).foldl (fun a k => a + (mget KSlot.empty s.nv.slots k).state * 4 ^ k) 0
  | .SEC_FW_SVN => (s.sec.run.map (·.svn)).getD 0
  | .SEC_FW_FLOOR => s.nv.fwFloor
  | .SEC_FW_VERSION_VERSION => (s.sec.run.map (·.version)).getD 0
  | .SEC_DEVICE_ID_ID => s.deviceId
  | .SEC_CLUSTER_SET_ID => s.fuse.cluster
  | .SEC_ROOT_EN_EN => s.nv.rootEn
  | .SEC_BOOTS_COUNT => s.nv.boots
  | .SEC_LOG_SEQ_SEQ => s.nv.logSeq
  | .LDG_SNAP_SEQ_SEQ => (s.nv.snap.map (·.seq)).getD 0
  | .LDG_FAULT_SEQ_SEQ => s.nv.faultSeq
  | .LDG_POWER_ON_SECONDS => s.led.powerOn + s.gen.onUs / 1000000
  | .LDG_THERMAL_CYCLES => min (2 ^ 24 - 1) s.led.cycles
  | .LDG_THERMAL_PEAK_C => s.led.peak
  | .GEN_RESET_CAUSE_ORDERLY => b2n s.gen.orderly
  | .GEN_RESET_CAUSE_THERMAL => b2n s.gen.trip
  | .GEN_RESET_CAUSE_RAIL => b2n s.gen.railFault
  | .GEN_RESET_CAUSE_CAUSE => s.gen.cause
  | .GEN_BOOT_ELAPSED_MS => min 0xFFFF (s.gen.readyMs.getD (s.now / 1000))
  | .GEN_PINS_PERST_N => b2n s.gen.perst
  -- a snapshot that is due is being written, until its write fails (log entry 209)
  | .LDG_STATUS_BUSY => b2n (!s.gen.snaps.isEmpty && !s.gen.flashBad)
  | .GEN_PINS_SYS_RESET_N => b2n s.gen.sysReset
  | .GEN_PINS_SMB_ADDR => s.fuse.smbAddr
  | .GEN_PINS_MOD_PRSNT => s.gen.prsnt
  | .EVT_STATUS_RING_FULL => (List.range 16).foldl (fun a p => a + s.raw (EVT_P_STATUS_RING_FULL p) * 2 ^ p) 0

/-- A field's value now. -/
def State.fget (s : State) (f : Fld) : Nat :=
  match f.src with
  | .stored _ => s.raw f
  | .view v => s.viewVal v

/-- `s` with a stored field set, within its bits; a view has no value of its own and stays. -/
def State.fset (s : State) (f : Fld) (v : Nat) : State :=
  match f.src with
  | .stored r => { s with fields := mset r s.fields f.key (v % 2 ^ f.width) }
  | .view _ => s

/-- Is a one-bit field 1? -/
def State.fbit (s : State) (f : Fld) : Bool := s.fget f == 1

/-- A counter field plus `d`, wrapping at its width. -/
def State.finc (s : State) (f : Fld) (d : Nat) : State := s.fset f (s.fget f + d)

/-- A counter field plus `d`, saturating at its width. -/
def State.fsat (s : State) (f : Fld) (d : Nat) : State := s.fset f (satAdd f.width (s.fget f) d)

/-- Several fields set. -/
def State.fsets (s : State) (l : List (Fld × Nat)) : State := l.foldl (fun s e => s.fset e.1 e.2) s

end Sys2Proof.Machine
end

