-- ==== Sys2Proof/Machine/Ops.lean ====
section
/-!
DEFINITION. The operations every unit shares: outcomes, what is sent out, events and error records (R431 to R438), isolation violations
(R56), inkwell access through the page map (R189) and effective field values (R466).
-/
namespace Sys2Proof.Machine

/-- The outcome of a command whose unit numbers are all of the device's: the next state; otherwise the fault noSuchUnit. -/
def onUnit (ok : Bool) (s : State) : Host.Outcome State Fault Refusal :=
  if ok then .next s else .fault .noSuchUnit

/-- `s` with one more thing sent out. -/
def State.emit (s : State) (o : Out) : State := { s with out := o :: s.out }

/-- A free value of `w` bits at most 64, and the state that has used it (log entry 6). -/
def State.free (s : State) (w : Nat) : Nat × State := ((Config.fresh s.freeN).toNat % 2 ^ w, { s with freeN := s.freeN + 1 })

/-- `n` free bytes. -/
def State.freeBytes (s : State) : Nat → List Byte × State
  | 0 => ([], s)
  | n + 1 => let (v, s1) := s.free 8; let (r, s2) := s1.freeBytes n; (byteOf v :: r, s2)

def State.tile (s : State) (t : Nat) : Tile := mget Tile.init s.tiles t
def State.setTile (s : State) (t : Nat) (x : Tile) : State := { s with tiles := mset Tile.init s.tiles t x }
def State.nwp (s : State) (p : Nat) : NwP := mget NwP.init s.nw p
def State.setNwp (s : State) (p : Nat) (x : NwP) : State := { s with nw := mset NwP.init s.nw p x }
def State.setSp (s : State) (p : Nat) (x : SchP) : State := { s with sch := mset SchP.init s.sch p x }
def State.sqp (s : State) (p : Nat) : SqP := mget SqP.init s.sq p
def State.setSqp (s : State) (p : Nat) (x : SqP) : State := { s with sq := mset SqP.init s.sq p x }
/-- The member's non-finite flag of the step in progress is set (R156, R261). -/
def State.nonfinite (s : State) (p : Nat) : State := s.setSqp p { s.sqp p with flag := true }
def State.lp (s : State) (p : Nat) : LigP := mget LigP.init s.lig p
def State.setLp (s : State) (p : Nat) (x : LigP) : State := { s with lig := mset LigP.init s.lig p x }
def State.pp (s : State) (p : Nat) : PalP := mget PalP.init s.pal p
def State.setPp (s : State) (p : Nat) (x : PalP) : State := { s with pal := mset PalP.init s.pal p x }
def State.setHp (s : State) (p : Nat) (x : HifP) : State := { s with hif := { s.hif with part := mset HifP.init s.hif.part p x } }
def State.setChan (s : State) (c : Nat) (x : Chan) : State := { s with hbm := { s.hbm with chan := mset Chan.init s.hbm.chan c x } }
def State.setRole (s : State) (t role part : Nat) : State :=
  { s with fab := { s.fab with roles := mset 0 s.fab.roles t (role * 32 + part) } }

/-- Is partition `p` ACTIVE (R46)? -/
def State.active (s : State) (p : Nat) : Bool := s.fget (FAB_PART_STATE_P p) == 1

/-- Role of a session: 0 none, 1 operator, 2 installer (R421). -/
def State.sessRole (s : State) (u : Sess) : Nat := ((u.cred.bind (fun i => mfind s.nv.creds i)).map (·.role)).getD 0

/-- Is the device furled, or waking: its arithmetic, fabric and memory-controller clocks stand still, and settings that are written take effect on wake
(R401)? -/
def State.asleep (s : State) : Bool := s.fget PWR_FURL_STATE == 2 || s.fget PWR_FURL_STATE == 3

/-- Is the device in the device-fatal state (R440)? -/
def State.fatal (s : State) : Bool := s.fbit EVT_FATAL_VALID

/-- Does the device take no new task, command or send request: in the device-fatal state (R440), or in an orderly shutdown (R453)? -/
def State.stopped (s : State) : Bool := s.fatal || s.gen.prepare

-- Events ------------------------------------------------------------------------------------------------------------------------------

/-- Counts an event or a recorded error in EVT_SEV_COUNTs (R437). -/
def State.countSev (s : State) (sev : Nat) : State := s.fsat (EVT_SEV_COUNT_COUNT sev) 1

/-- An event joins the events that wait for delivery. -/
def State.pendEv (s : State) (e : Ev) : State := { s with evt := { s.evt with pend := s.evt.pend ++ [{ e with time := s.now }] } }

/-- An event without an error record: counted by severity, then to be delivered (R433). -/
def State.raise (s : State) (e : Ev) : State := (s.countSev e.sev).pendEv e

/-- A plain event: type, severity, the partition concerned, CODE and DETAIL. `toPart` says whether the partition receives it (R432, P). -/
def mkEv (typ sev : Nat) (part : Option Nat) (toPart : Bool) (code detail : Nat) : Ev :=
  { typ, sev, nmi := false, pennant := false, esc := false, src := 0xFFFF, code, detail, dpa := 0, part,
    parts := match part with | some p => if toPart then [(p, detail)] else [] | none => [], time := 0 }

/-- A notice or other event of partition `p` (severity by R432). -/
def State.partEv (s : State) (typ sev p code detail : Nat) : State := s.raise (mkEv typ sev (some p) true code detail)

/-- An event for the management path alone. -/
def State.devEv (s : State) (typ sev code detail : Nat) : State := s.raise (mkEv typ sev none false code detail)

/-- An event of partition `p` whose CODE the spec does not give (log entry 7). -/
def State.noteEv (s : State) (typ sev p detail : Nat) : State := s.partEv typ sev p (Config.evCode typ).toNat detail

/-- An event for the management path and for every partition with a section, with NMI and PENNANT as given. -/
def State.allEv (s : State) (typ sev code detail : Nat) (nmi pennant : Bool) : State :=
  let ps := ((List.range 16).filter (fun p => (s.sect p).isSome)).map (fun p => (p, detail))
  s.raise { mkEv typ sev none false code detail with nmi := nmi, pennant := pennant, parts := ps }

/-- One error for its record (R436): the record index, VALID of FIRST, OVERFLOW of the unit's register where it has one, the fields
that FIRST takes, and the event it raises. -/
structure Err where
  idx : Nat
  valid : Fld
  ovf : Option Fld
  fill : List (Fld × Nat)
  ev : Ev
  deriving DecidableEq, Repr

/-- Records an error by R436 and raises its event by R437: FIRST, else NEXT, else NEXT replaced by a higher severity, else the count. -/
def State.recErr (s : State) (e : Err) : State :=
  let s := s.countSev e.ev.sev
  let ev := { e.ev with src := e.idx }
  let part := e.ev.part.getD 0
  if s.fget e.valid = 0 then
    let s := (s.fset e.valid 1).fsets e.fill
    { s with evt := { s.evt with firstSev := mset 0 s.evt.firstSev e.idx e.ev.sev } }.pendEv ev
  else
    let s := match e.ovf with | some f => s.fset f 1 | none => s
    let next := [(EVT_NEXT_VALID e.idx, 1), (EVT_NEXT_SEVERITY e.idx, e.ev.sev), (EVT_NEXT_CODE e.idx, e.ev.code),
                 (EVT_NEXT_PARTITION e.idx, part), (EVT_NEXT_DETAIL e.idx, e.ev.detail)]
    let cnt := fun (s : State) => s.fsat (EVT_OVF_COUNT e.idx) 1
    let s' := if s.fget (EVT_NEXT_VALID e.idx) = 0 then s.fsets next
      else if e.ev.sev > s.fget (EVT_NEXT_SEVERITY e.idx) then cnt (s.fsets next)
      else cnt s
    if e.ev.sev > mget 0 s.evt.firstSev e.idx then s'.pendEv { ev with esc := true } else s'

/-- Function `f` sends MSI-X vector `v`, unless its MSI-X enable is 0; a masked vector sets its pending bit instead (R338, R434). -/
def State.msix (s : State) (f v : Nat) : State :=
  if s.hif.msixOff.contains f then s
  else if s.hif.masked.contains (2048 * f + v) then { s with hif := { s.hif with pba := sins s.hif.pba (2048 * f + v) } }
  else s.emit (.msix f v)

/-- Records an isolation violation of partition `p` (R56): KIND, SOURCE and address; the event goes to `p` and to the management path. -/
def State.violate (s : State) (p kind source addr : Nat) : State :=
  s.recErr { idx := 1, valid := FAB_VIOLATION_STATUS_VALID, ovf := some FAB_VIOLATION_STATUS_OVERFLOW,
             fill := [(FAB_VIOLATION_STATUS_PARTITION, p), (FAB_VIOLATION_STATUS_KIND, kind), (FAB_VIOLATION_STATUS_SOURCE, source),
                      (FAB_VIOLATION_ADDR_ADDR, addr)],
             ev := mkEv 0x04 2 (some p) true kind addr }

/-- SOURCE of the units that R56 gives a code besides the tiles: Zheris engine, host, ligature units, Ethernet MAC. -/
def zherisSrc : Nat := 0xF0
def hostSrc : Nat := 0xF1
def ligSource : Nat := 0xF2
def macSrc : Nat := 0xF3
/-- SOURCE of those that it gives none (log entry 8). -/
def schedSrc : Nat := (Config.violSource 0).toNat
def watchSrc : Nat := (Config.violSource 1).toNat
def eventSrc : Nat := (Config.violSource 2).toNat
def palSrc : Nat := (Config.violSource 3).toNat
def sqSrc : Nat := (Config.violSource 4).toNat
def powerSrc : Nat := (Config.violSource 5).toNat

-- Inkwell -----------------------------------------------------------------------------------------------------------------------------

/-- First byte of the matrix save area (R71). -/
def saveBase : Nat := 0x2C0000

/-- The physical task page of task page `v` (R189). -/
def Tile.page (x : Tile) (v : Nat) : Nat := x.pmap.getD v v

/-- The key of inkwell address `a` of tile `t`: task pages through the page map, the save area as it is. -/
def State.inkKey (s : State) (t a : Nat) : Nat :=
  t * 0x300000 + (if a < saveBase then (s.tile t).page (a / 0x10000) * 0x10000 + a % 0x10000 else a)

/-- `n` bytes of the inkwell of tile `t` from task address `a`. -/
def State.inkRead (s : State) (t a n : Nat) : List Byte := (List.range n).map (fun i => mget 0 s.ink (s.inkKey t (a + i)))

/-- A little-endian number from the inkwell. -/
def State.inkNat (s : State) (t a n : Nat) : Nat := leNat (s.inkRead t a n)

/-- The bytes put into a byte table one after the other, each at the key that `at_` gives its index. -/
def putBytes (m : NMap Byte) (at_ : Nat → Nat) : Nat → List Byte → NMap Byte
  | _, [] => m
  | i, b :: bs => putBytes (mset 0 m (at_ i) b) at_ (i + 1) bs

/-- Writes bytes into the inkwell of tile `t`; a written page loses its cache tag (R192). -/
def State.inkWrite (s : State) (t a : Nat) (bs : List Byte) : State :=
  if bs.isEmpty then s else
  let pages := (List.range ((a + bs.length - 1) / 0x10000 - a / 0x10000 + 1)).map (fun i => (s.tile t).page (a / 0x10000 + i))
  let x := s.tile t
  { s.setTile t { x with tags := x.tags.filter (fun e => !pages.contains e.1), cand := x.cand.filter (fun e => !pages.contains e.1),
                            wr := pages.foldl sins x.wr } with
    ink := putBytes s.ink (fun i => s.inkKey t (a + i)) 0 bs }

-- Effective values (R466) -------------------------------------------------------------------------------------------------------------

/-- Slots of a tile ring: SIZE_LOG2 outside 2 to `hi` acts as 2. -/
def ringSlots (log hi : Nat) : Nat := 2 ^ (if log < 2 ∨ hi < log then 2 else log)

end Sys2Proof.Machine
end

