-- ==== Sys2Proof/Machine/Mem.lean ====
section
/-!
DEFINITION. Partition memory spaces (R268, R269), map-out relocation (R279), the last-level cache (R271, R272), poison (R276), key tags
(R285), bias snoops (R345) and every unit's access to device memory.
-/
namespace Sys2Proof.Machine

-- Layout ------------------------------------------------------------------------------------------------------------------------------

/-- DPA of byte `o` of global channel `g` (R267). -/
def dpa (g o : Nat) : Nat := g * 2 ^ 31 + o

/-- How many granules below granule `g` lie on slots of `sl`, with `c` slots in all. -/
def rankBelow (c : Nat) (sl : List Nat) (g : Nat) : Nat := g / c * sl.length + (sl.filter (· < g % c)).length

/-- Slots still in service, in order. -/
def Owner.good (o : Owner) : List Nat := (List.range o.chs.length).filter (fun k => !o.lost.contains k)

/-- The granule that holds granule `g`'s data (R269, R279): itself, or its home when its slot is mapped out. The i-th live failed granule,
in increasing address, has the i-th granule of the bands on a slot in service as its home. -/
def Owner.home (o : Owner) (g : Nat) : Nat :=
  let c := o.chs.length
  if o.lost.contains (g % c) then
    let good := o.good
    let i := rankBelow c o.lost g + rankBelow c good ((c - o.lost.length) * 2 ^ 20)
    i / good.length * c + good.getD (i % good.length) 0
  else g

/-- DPA of address `a` of an owner's interleaved space; none beyond SIZE (R268, R269). -/
def Owner.toDpa (o : Owner) (a : Nat) : Option Nat :=
  if a < o.size then
    let c := o.chs.length
    let g := o.home (a / 2048)
    some (dpa (o.chs.getD (g % c) 0) (g / c * 2048 + a % 2048))
  else none

/-- First address of an owner's spill area (R41). -/
def Owner.spillBase (o : Owner) : Nat := o.size - o.spill * 2 ^ 20

/-- First address of the paged window (R268). -/
def pagedBase : Nat := 0x10000000000
/-- First address of shared region 0, and the distance between regions. -/
def sharedBase : Nat := 0x20000000000
def sharedStep : Nat := 0x8000000000

/-- Where a PMS address leads. -/
inductive Loc where
  /-- Owner, address in the owner's interleaved space, DPA. -/
  | mem (owner : Nat) (addr : Nat) (dpa : Nat)
  /-- A page of the paged window that is not resident. -/
  | absent (page : Nat)
  | outside
  deriving DecidableEq, Repr

/-- The shared region entry `r` of the image in force, if it has channels. -/
def State.shared (s : State) (r : Nat) : Option Shared :=
  (s.fab.image.bind (fun i => i.dev.shared[r]?)).bind (fun e => if e.chans = 0 then none else some e)

/-- An address of the interleaved range of owner `o`. -/
def State.ownLoc (s : State) (o a : Nat) : Loc :=
  match s.owner o with
  | none => .outside
  | some w => match w.toDpa a with
    | none => .outside
    | some d => .mem o a d

/-- One raw byte of memory. -/
def State.memByte (s : State) (d : Nat) : Byte := mget 0 s.mem d

/-- A little-endian number of an owner's space, without any check. -/
def State.ownNat (s : State) (o a n : Nat) : Nat :=
  leNat ((List.range n).map (fun i => match s.ownLoc o (a + i) with | .mem _ _ d => s.memByte d | _ => 0))

/-- Pages of the paged window (SCH_PAGE_CFG.PAGES; larger values act as 262,144). -/
def State.pages (s : State) (p : Nat) : Nat := min 262144 (s.fget (SCH_PAGE_CFG_PAGES p))

/-- The page-table entry of page `g` (R203). -/
def State.pageEntry (s : State) (p g : Nat) : Nat := s.ownNat p (s.fget (SCH_PAGE_TABLE_BASE p) * 2 ^ 12 + 8 * g) 8

/-- Does address `a` lie in the partition's spill area, which only the scheduler addresses (R41)? -/
def State.inSpill (s : State) (p a : Nat) : Bool := match s.owner p with | some w => decide (w.spillBase ≤ a) | none => false

/-- Frame `f` has been used: no frame has been used later (R204). -/
def SchP.useNow (x : SchP) (f : Nat) : SchP := { x with frameUse := mset 0 x.frameUse f (x.frameUse.foldl (fun m e => max m e.2) 0 + 1) }

/-- The place of PMS address `a` of partition `p` (R268), as every unit but the scheduler's spill and restore sees it. -/
def State.loc (s : State) (p a : Nat) : Loc :=
  if a < pagedBase then (if s.inSpill p a then .outside else s.ownLoc p a)
  else if a < sharedBase then
    let g := (a - pagedBase) / 2 ^ 21
    if g < s.pages p then
      let e := s.pageEntry p g
      if e % 4 = 1 then s.ownLoc p (s.fget (SCH_PAGE_FRAMES_BASE p) * 2 ^ 21 + e / 2 ^ 32 * 2 ^ 21 + a % 2 ^ 21) else .absent g
    else .outside
  else
    let r := (a - sharedBase) / sharedStep
    match s.shared r with
    | none => .outside
    | some e => if r < 8 ∧ (e.readers.testBit p ∨ e.writer = p) then s.ownLoc (16 + r) ((a - sharedBase) % sharedStep) else .outside

/-- The DPA of a PMS address, if it has one. -/
def State.toDpa (s : State) (p a : Nat) : Option Nat :=
  match s.loc p a with
  | .mem _ _ d => some d
  | _ => none

/-- Do `n` bytes from `a` lie wholly in the partition's memory space? -/
def State.inSpace (s : State) (p a n : Nat) : Bool :=
  (List.range (if n = 0 then 0 else (a + n - 1) / 512 - a / 512 + 1)).all (fun i => s.loc p (a / 512 * 512 + 512 * i) != .outside)

-- Poison and channels -------------------------------------------------------------------------------------------------------------------

/-- Does owner `o` have a channel that waits for its map-out, so that its band is closed (R278, R279)? -/
def State.mapWaits (s : State) (o : Nat) : Bool :=
  match s.owner o with
  | none => false
  | some w => w.live.any (fun c => (s.chan c).state == 3)

/-- Does address `a` of owner `o` lie in a granule that a map-out relocated (R279)? -/
def State.relocated (s : State) (o a : Nat) : Bool :=
  match s.owner o with
  | none => false
  | some w => w.lost.contains (a / 2048 % w.chs.length)

/-- Is the line poisoned: by an error, or a relocated line that has not been written since its map-out? -/
def State.lineBad (s : State) (o a d : Nat) : Bool :=
  s.poison.contains (d / 512) || (s.relocated o a && !s.hbm.homes.contains (d / 512))

/-- A line has been written whole: it is not poisoned. -/
def State.lineGood (s : State) (o a d : Nat) : State :=
  { s with poison := sdel s.poison (d / 512), hbm := { s.hbm with homes := if s.relocated o a then sins s.hbm.homes (d / 512) else s.hbm.homes } }

/-- Does address `a` of owner `o` lie in the band that a map-out under way has closed (R279)? -/
def State.inBand (s : State) (o a : Nat) : Bool :=
  s.mapWaits o && match s.owner o with | some w => decide (w.size ≤ a + 2 ^ 31) | none => false

/-- Does a read of the line at `loc` return poison: the line is poisoned, its channel is out of service, or it lies in a band that a
map-out under way has closed (R276, R278, R279)? -/
def State.poisoned (s : State) : Loc → Bool
  | .mem o a d =>
    s.lineBad o a d || (s.chan (d / 2 ^ 31)).state != 0 || s.inBand o a
  | _ => false

/-- The band and out-of-service channels also discard whole-line writes; a poisoned line does not (R276, R278). -/
def State.closed (s : State) : Loc → Bool
  | .mem o a d =>
    (s.chan (d / 2 ^ 31)).state != 0 || s.inBand o a
  | _ => false

/-- The key of line `a` of owner `o` in HbmS.late. -/
def lateKey (o a : Nat) : Nat := o * 2 ^ 30 + a / 512

/-- Does an access to address `a` of owner `o` wait for the switch of a map-out: a relocated granule whose home lies on a channel that waits for
its map-out, so that the granule moves (R279)? Not in the band, which is closed until the switch. -/
def State.waitsSwitch (s : State) (o a d : Nat) : Bool := s.relocated o a && (s.chan (d / 2 ^ 31)).state == 3 && !s.inBand o a

/-- Marks a line poisoned. -/
def State.setPoison (s : State) (line : Nat) : State := { s with poison := sins s.poison line }

-- Last-level cache ------------------------------------------------------------------------------------------------------------------------

/-- How a requester uses the cache (R272). -/
inductive MReq where
  /-- Stream movers, page loads, blotter engine. -/
  | alloc
  /-- A stream-mover read with NOALLOC; ligature units, Zheris placement. -/
  | inPlace
  /-- Palimpsest streamer, scheduler spill and restore, paging. -/
  | inval
  /-- The host through BAR2, as inPlace; R346 has decided what it may write. -/
  | host
  deriving DecidableEq, Repr

/-- The set of a line (R271): home half × 8,192 + set. -/
def llcSet (line : Nat) : Nat :=
  let g := line / 2 ^ 22
  (if g < 128 then 0 else 8192) + (line % 2 ^ 22 + 37 * g) % 8192

/-- Ways of partition `p` in a half. -/
def State.ways (s : State) (p half : Nat) : List Nat :=
  match s.sect p with
  | none => []
  | some c => bitsOf (if half = 0 then c.waysA else c.waysB) 24

def State.setLlc (s : State) (k : Nat) (l : List LlcLine) : State := { s with hbm := { s.hbm with llc := mset [] s.hbm.llc k l } }

/-- `line` of partition `p` put at the most-recently-used place of its set, replacing the partition's least recently used line when its
ways are full. -/
def llcInsert (ways : List Nat) (p line : Nat) (dirty : Bool) (l : List LlcLine) : List LlcLine :=
  let used := (l.filter (fun e => e.part == p)).map (·.way)
  match ways.find? (fun w => !used.contains w) with
  | some w => ⟨w, p, line, dirty⟩ :: l
  | none => match (l.filter (fun e => e.part == p)).getLast? with
    | none => l
    | some v => ⟨v.way, p, line, dirty⟩ :: l.filter (fun e => e != v)

/-- One access of partition `p` to a line through the cache half of its home die (R272). -/
def State.llcTouch (s : State) (p line : Nat) (r : MReq) (write : Bool) : State :=
  let k := llcSet line
  let l := mget [] s.hbm.llc k
  let ws := s.ways p (k / 8192)
  match l.find? (fun e => e.part == p && e.line == line) with
  | some e =>
    let s := s.finc (HBM_LLC_STAT_HITS p) 1
    if write && r == .inval then s.setLlc k (l.filter (fun x => x != e))
    else s.setLlc k ({ e with dirty := e.dirty || write } :: l.filter (fun x => x != e))
  | none =>
    let s := s.finc (HBM_LLC_STAT_MISSES p) 1
    if r == .alloc then s.setLlc k (llcInsert ws p line write l) else s

/-- Does the cache hold the line modified? -/
def State.llcDirty (s : State) (line : Nat) : Bool := (mget [] s.hbm.llc (llcSet line)).any (fun e => e.line == line && e.dirty)

/-- A write by a shared region's writer invalidates the line in every way first (R39). -/
def State.llcDrop (s : State) (line : Nat) : State :=
  let k := llcSet line
  s.setLlc k ((mget [] s.hbm.llc k).filter (fun e => e.line != line))

-- Errors of lines -------------------------------------------------------------------------------------------------------------------------

/-- The PMS address that partition `p` gives a DPA, by the inverse of R269; the lowest, when it maps it at all (R277). -/
def Owner.ofDpa (o : Owner) (d : Nat) : Option Nat :=
  let c := o.chs.length
  match o.chs.findIdx? (· == d / 2 ^ 31) with
  | none => none
  | some k =>
    let g := d % 2 ^ 31 / 2048 * c + k
    let lim := (c - o.lost.length) * 2 ^ 20
    if g < lim then (if o.lost.contains k then none else some (g * 2048 + d % 2048))
    else
      -- a granule of the bands: it is the home of the failed granule of the same rank
      let i := rankBelow c o.good g - rankBelow c o.good lim
      if o.lost.isEmpty ∨ o.lost.contains k then none else
      let h := i / o.lost.length * c + o.lost.getD (i % o.lost.length) 0
      if h < lim then some (h * 2048 + d % 2048) else none

/-- The partitions that map a line, each with its own PMS address (R277). -/
def State.mappers (s : State) (d : Nat) : List (Nat × Nat) :=
  let own := s.hbm.own.filterMap (fun e => if e.1 < 16 then (e.2.ofDpa d).map (fun a => (e.1, a)) else none)
  let sh := s.hbm.own.flatMap (fun e =>
    if e.1 < 16 then [] else
    match e.2.ofDpa d, s.shared (e.1 - 16) with
    | some a, some r => ((List.range 16).filter (fun p => r.readers.testBit p || r.writer == p)).map
        (fun p => (p, sharedBase + (e.1 - 16) * sharedStep + a))
    | _, _ => [])
  own ++ sh

/-- An error of HBM_ERR_STATUS (R288, R436): KIND and DPA into FIRST, NEXT or the count of EVT_OVF2; its event by R437. -/
def State.hbmErr (s : State) (kind d : Nat) (ev : Ev) : State :=
  let s := s.countSev ev.sev
  let ev := { ev with src := 2, dpa := d }
  if s.fget HBM_ERR_STATUS_FIRST_VALID = 0 then
    let s := s.fsets [(HBM_ERR_STATUS_FIRST_VALID, 1), (HBM_ERR_STATUS_FIRST_KIND, kind), (HBM_ERR_FIRST_DPA, d)]
    { s with evt := { s.evt with firstSev := mset 0 s.evt.firstSev 2 ev.sev } }.pendEv ev
  else
    -- severity 3 for the kinds of map-out, 2 for the others (R432)
    let sevNext := if s.fget HBM_ERR_STATUS_NEXT_KIND < 4 then 2 else 3
    let nx := [(HBM_ERR_STATUS_NEXT_VALID, 1), (HBM_ERR_STATUS_NEXT_KIND, kind), (HBM_ERR_NEXT_DPA, d)]
    let s' := if s.fget HBM_ERR_STATUS_NEXT_VALID = 0 then s.fsets nx
      else if ev.sev > sevNext then (s.fsets nx).fsat (EVT_OVF_COUNT 2) 1
      else s.fsat (EVT_OVF_COUNT 2) 1
    if ev.sev > mget 0 s.evt.firstSev 2 then s'.pendEv { ev with esc := true } else s'

/-- The uncorrectable-memory event of R277: a pennant to each partition that maps the line, with its own PMS address; the DPA goes only to
the management path. CODE holds the kind of error in its low half and the line's length, 512 bytes, in its high half (log entry 191). -/
def State.ueEv (s : State) (kind d : Nat) : Ev :=
  { mkEv 0x13 2 none false (kind + 512 * 2 ^ 16) d with pennant := true, parts := s.mappers d }

/-- A line found uncorrectable (R276): written back as poisoned, counted, recorded and reported. -/
def State.uncorrectable (s : State) (line kind : Nat) : State :=
  let d := line * 512
  let c := d / 2 ^ 31
  let l := mget [] s.hbm.ues c
  let s := (s.setPoison line).fsat (HBM_CH_UE_COUNT (c / 32) (c % 32)) 1
  let s := { s with hbm := { s.hbm with ues := mset [] s.hbm.ues c ((line, s.now) :: l) }, led := { s.led with ue := mupd 0 s.led.ue c (· + 1) } }
  s.hbmErr kind d (s.ueEv kind d)

/-- A line corrected on a read (R275): counted. -/
def State.corrected (s : State) (line : Nat) : State :=
  let c := line * 512 / 2 ^ 31
  { s with led := { s.led with ce := mupd 0 s.led.ce c (· + 1) } }.fsat (HBM_CH_CE_COUNT (c / 32) (c % 32)) 1

/-- An LLC double-bit error that a read of partition `p` finds in a line (R274): a clean line is invalidated, a dirty one is written to memory as
poisoned. A lookup meets only the partition's own copy (R41). -/
def State.llcDouble (s : State) (p line : Nat) : State :=
  let s := s.fsat HBM_LLC_ECC_DOUBLE 1
  let k := llcSet line
  let l := mget [] s.hbm.llc k
  let mine := fun (e : LlcLine) => e.part == p && e.line == line
  let dirty := l.any (fun e => mine e && e.dirty)
  let s := s.setLlc k (l.filter (fun e => !mine e))
  if dirty then s.uncorrectable line 3 else s

/-- What a read of memory by partition `p` meets at a line (an operand of the commands whose reads find errors): 0 a correctable line, 1 an uncorrectable
one, 2 an LLC single-bit error, 3 an LLC double-bit error. -/
def State.lineErr (p : Nat) (s : State) (e : Nat × Nat) : State :=
  match e.2 with
  | 0 => s.corrected e.1
  | 1 => if s.poison.contains e.1 then s else s.uncorrectable e.1 1
  | 2 => s.fsat HBM_LLC_ECC_CORRECTED 1
  | _ => s.llcDouble p e.1

-- Access ----------------------------------------------------------------------------------------------------------------------------------

/-- The bias of an address of owner `o`: 0 DEVICE, 1 SHARED, 2 FLIPPING. -/
def State.bias (s : State) (o a : Nat) : Nat := mget 0 s.hif.bias (o * 2 ^ 18 + a / 2 ^ 21)

/-- May the host cache lines of owner `o`: function 0 is bound to a partition whose memory it is or that maps the region (R344), and that partition is
not host-lost (R358)? -/
def State.hostCaches (s : State) (o : Nat) : Bool :=
  let p := s.fget HIF_BIND_F0_PARTITION
  decide (p < 16) && !s.fbit (HIF_P_STATUS_HOST_LOST p) &&
    (o == p || (decide (16 ≤ o) && match s.shared (o - 16) with | some r => r.readers.testBit p || r.writer == p | none => false))

/-- The snoops of a device access to a SHARED page: two blocks of four 64-byte lines (R345). -/
def State.snoop (s : State) (o a d : Nat) (write : Bool) : State :=
  if s.bias o a = 0 || !s.hostCaches o then s
  else (s.emit (.snoop write (d / 512 * 2))).emit (.snoop write (d / 512 * 2 + 1))

/-- Cuts `n` bytes from `a` at 512-byte lines: (address, length) pieces. -/
def linePieces (a n : Nat) : List (Nat × Nat) :=
  if n = 0 then [] else
  (List.range ((a + n - 1) / 512 - a / 512 + 1)).map (fun i =>
    let lo := max a ((a / 512 + i) * 512)
    let hi := min (a + n) ((a / 512 + i + 1) * 512)
    (lo, hi - lo))

/-- The answer of a read or write: the bytes read, the PMS addresses of the pieces that met poison, lay outside, or wait for a page, and the
DPAs of writes to a shared region of which the partition is not WRITER. -/
structure MRes where
  bytes : List Byte
  bad : List Nat
  out : List Nat
  absent : List Nat
  ro : List Nat
  deriving DecidableEq, Repr

def MRes.empty : MRes := ⟨[], [], [], [], []⟩

/-- Was every byte read or written? -/
def MRes.ok (r : MRes) : Bool := r.bad.isEmpty && r.out.isEmpty && r.absent.isEmpty && r.ro.isEmpty

/-- What two parts of one access met. -/
def MRes.join (x y : MRes) : MRes := ⟨x.bytes ++ y.bytes, x.bad ++ y.bad, x.out ++ y.out, x.absent ++ y.absent, x.ro ++ y.ro⟩

/-- The channel mask that owner `o` has in an image. -/
def imgChans (img : Image) (o : Nat) : Nat :=
  if o < 16 then ((mfind img.sects o).map (·.chans)).getD 0 else (img.dev.shared.getD (o - 16) ⟨0, 0, 0, 0⟩).chans

def State.chanMask (s : State) (o : Nat) : Nat := ((s.owner o).map (fun w => w.chs.foldl setBit 0)).getD 0

/-- Does owner `o` hold the channels that an image lists for it, with none of them mapped out in its layout: the set is kept (R48, R269)? -/
def State.sameChans (s : State) (img : Image) (o : Nat) : Bool :=
  imgChans img o == s.chanMask o && ((s.owner o).map (fun w => w.lost.isEmpty)).getD true

/-- Are the channels of owner `o` SCRUBBING (R47 step 4, R48, R50): those of a partition in that state until the load takes effect, or in a full load of a
shared region once every partition is, whose set the load changes? -/
def State.scrubs (s : State) (o : Nat) : Bool :=
  match s.fab.job with
  | none => false
  | some j =>
    (if o < 16 then s.fget (FAB_PART_STATE_P o) == 3
     else j.full && j.left.all (fun p => s.fget (FAB_PART_STATE_P p) == 3)) && !s.sameChans j.img o

/-- The PMS address of the page-table entry of an address of the paged window (R203). -/
def State.pageEntAddr (s : State) (p a : Nat) : Nat := s.fget (SCH_PAGE_TABLE_BASE p) * 2 ^ 12 + 8 * ((a - pagedBase) / 2 ^ 21)

/-- Is `a` an address of a page of the paged window? -/
def State.inPaged (s : State) (p a : Nat) : Bool :=
  decide (pagedBase ≤ a) && decide (a < sharedBase) && decide ((a - pagedBase) / 2 ^ 21 < s.pages p)

/-- The device physical address of an access of partition `p` that breaks a commitment: also in the spill area and in a SCRUBBING channel. An
address that no memory has keeps its own value (R56; log entry 192). -/
def State.violAddr (s : State) (p a : Nat) : Nat :=
  match (if a < pagedBase then s.ownLoc p a else s.loc p a) with | .mem _ _ d => d | _ => a

/-- An access of source `src` to PMS address `a` that lies outside every range that it may reach: an isolation violation of KIND 1 (R56, R268). -/
def State.stray (s : State) (p src a : Nat) : State := s.violate p 1 src (s.violAddr p a)

/-- An access to the paged window is translated: its page-table entry is read, as paging does, through the cache (R203, R272). -/
def State.readEntry (s : State) (p a : Nat) : State :=
  if s.inPaged p a then
    match s.ownLoc p (s.pageEntAddr p a) with
    | .mem o x d => (s.snoop o x d false).llcTouch p (d / 512) .inval false
    | _ => s.stray p schedSrc (s.pageEntAddr p a)
  else s

/-- An access to the paged window uses the frame of its page (R204): no frame has been used later. -/
def State.useFrame (s : State) (p a : Nat) : State :=
  if s.inPaged p a then
    let sp := s.sp p
    s.setSp p (sp.useNow (s.pageEntry p ((a - pagedBase) / 2 ^ 21) / 2 ^ 32))
  else s

/-- Does the line wait for a switch that its modified copy in the cache survives (R279 step 3)? -/
def State.keptDirty (s : State) (o a d : Nat) : Bool := s.waitsSwitch o a d && !s.lineBad o a d && s.llcDirty (d / 512)

/-- One piece of a read: of a line that waits for a switch, what the switch will find there, that is what was written to it since or the cache's
modified copy (R279); else poison, or the line's bytes. A SCRUBBING channel is
outside what may be read (R50). -/
def State.readPiece (p : Nat) (req : MReq) (dev : Bool) (acc : State × MRes) (pc : Nat × Nat) : State × MRes :=
  let r := acc.2
  let s := acc.1.readEntry p pc.1
  let zeros := List.replicate pc.2 (0 : Byte)
  match s.loc p pc.1 with
  | .outside => (s, { r with bytes := r.bytes ++ zeros, out := r.out ++ [pc.1] })
  | .absent g => (s, { r with bytes := r.bytes ++ zeros, absent := r.absent ++ [g] })
  | .mem o a d =>
    if s.scrubs o then (s, { r with bytes := r.bytes ++ zeros, out := r.out ++ [pc.1] }) else
    let s := (if dev then s.snoop o a d false else s).useFrame p pc.1
    match mfind s.hbm.late (lateKey o a) with
    | some l => (s.llcTouch p (d / 512) .inPlace false, { r with bytes := r.bytes ++ (l.drop (a % 512)).take pc.2 })
    | none =>
      if s.poisoned (.mem o a d) && !s.keptDirty o a d then (s.llcTouch p (d / 512) .inPlace false, { r with bytes := r.bytes ++ zeros, bad := r.bad ++ [pc.1] })
      else (s.llcTouch p (d / 512) req false, { r with bytes := r.bytes ++ (List.range pc.2).map (fun i => s.memByte (d + i)) })

/-- A read of `n` bytes at PMS address `a` for partition `p`. `dev` is true for every access but CXL.mem (R345). -/
def State.memRead (s : State) (p a n : Nat) (req : MReq) (dev : Bool := true) : State × MRes :=
  (linePieces a n).foldl (State.readPiece p req dev) (s, MRes.empty)

/-- Marks the page of a paged-window address DIRTY in its page-table entry (R203), as paging writes (R272). -/
def State.markDirty (s : State) (p a : Nat) : State :=
  if s.inPaged p a then
    match s.ownLoc p (s.pageEntAddr p a) with
    | .mem o x d =>
      if (s.memByte d).getLsbD 2 then s else
      let s := (s.snoop o x d true).llcTouch p (d / 512) .inval true
      { s with mem := mset 0 s.mem d (s.memByte d ||| 4) }
    | _ => s
  else s

/-- May partition `p` write the memory of owner `o`: its own, or a shared region of which it is the WRITER (R39, R41)? -/
def State.writes (s : State) (p o : Nat) : Bool :=
  decide (o < 16) || (match s.shared (o - 16) with | some e => e.writer == p | none => false)

/-- A write of less than a line to a poisoned line: discarded and recorded, and its writer has read poison (R276). -/
def State.partPoison (s : State) (p d : Nat) : State :=
  (s.llcTouch p (d / 512) .inPlace false).hbmErr 2 (d / 512 * 512) (s.ueEv 2 (d / 512 * 512))

/-- One piece of a write to a line that waits for a switch (R279): a whole line is held, less than a line is merged into a held one or into the
cache's modified copy, and otherwise meets the poison that the line's data are lost to. -/
def State.lateWrite (s : State) (p o a d at_ : Nat) (bs : List Byte) (r : MRes) : State × MRes :=
  match bs.length == 512, mfind s.hbm.late (lateKey o a) with
  | true, _ => ({ s with hbm := { s.hbm with late := mins s.hbm.late (lateKey o a) bs } }, r)
  | false, some l => ({ s with hbm := { s.hbm with late := mins s.hbm.late (lateKey o a) (l.take (a % 512) ++ bs ++ l.drop (a % 512 + bs.length)) } }, r)
  | false, none =>
    if s.keptDirty o a d then
      let l := (List.range 512).map (fun i => s.memByte (d / 512 * 512 + i))
      ({ s with hbm := { s.hbm with late := mins s.hbm.late (lateKey o a) (l.take (a % 512) ++ bs ++ l.drop (a % 512 + bs.length)) } }, r)
    else (s.partPoison p d, { r with bad := r.bad ++ [at_] })

/-- One piece of a write. One to a shared region of another writer is discarded (R56); one to a channel out of service or a closed band is discarded
in silence (R278, R279); less than a line to a poisoned line is discarded and recorded (R276); a whole line clears poison. -/
def State.writePiece (p : Nat) (req : MReq) (dev : Bool) (acc : State × MRes) (pc : Nat × List Byte) : State × MRes :=
  let r := acc.2
  let s := acc.1.readEntry p pc.1
  match s.loc p pc.1 with
  | .outside => (s, { r with out := r.out ++ [pc.1] })
  | .absent g => (s, { r with absent := r.absent ++ [g] })
  | .mem o a d =>
    if s.scrubs o then (s, { r with out := r.out ++ [pc.1] }) else
    if req != .host && !s.writes p o then (s, { r with ro := r.ro ++ [d] }) else
    let s := (if dev then s.snoop o a d true else s).useFrame p pc.1
    let whole := pc.2.length == 512
    if s.waitsSwitch o a d then s.lateWrite p o a d pc.1 pc.2 r
    else if s.closed (.mem o a d) then (s.llcTouch p (d / 512) .inPlace false, r)
    else if s.lineBad o a d && !whole then (s.partPoison p d, { r with bad := r.bad ++ [pc.1] })
    else
      let s := if o ≥ 16 then s.llcDrop (d / 512) else s
      let s := s.llcTouch p (d / 512) req true
      let s := s.markDirty p pc.1
      let s := if whole then s.lineGood o a d else s
      ({ s with mem := putBytes s.mem (fun i => d + i) 0 pc.2 }, r)

/-- A write of bytes at PMS address `a` for partition `p`. -/
def State.memWrite (s : State) (p a : Nat) (bs : List Byte) (req : MReq) (dev : Bool := true) : State × MRes :=
  ((linePieces a bs.length).map (fun pc => (pc.1, (bs.drop (pc.1 - a)).take pc.2))).foldl (State.writePiece p req dev) (s, MRes.empty)

/-- The isolation violations that an access of source `src` met: KIND 1 outside every range, KIND 2 a write of another's shared region (R56, R268). -/
def State.broke (s : State) (p src : Nat) (r : MRes) : State :=
  r.ro.foldl (fun s d => s.violate p 2 src d) (r.out.foldl (fun s a => s.stray p src a) s)

/-- A write by unit `src` whose result nothing asks for; what it breaks is recorded. -/
def State.memPut (s : State) (p src a : Nat) (bs : List Byte) (req : MReq) : State :=
  let (s, r) := s.memWrite p a bs req
  s.broke p src r

/-- The bytes of one of the device's structures in partition memory, when all can be read. -/
def State.memGet (s : State) (p a n : Nat) : Option (List Byte) :=
  let r := (s.memRead p a n .inPlace).2
  if r.ok then some r.bytes else none

/-- The read of a structure by unit `src`: what the cache and the violation record show of it (R56, R272). -/
def State.memSee (s : State) (p src a n : Nat) (req : MReq := .inPlace) : State :=
  let (s, r) := s.memRead p a n req
  s.broke p src r

/-- Unit `src` writes a whole line of the partition's space as poisoned. -/
def State.memPoison (s : State) (p src a : Nat) : State :=
  let w := s.memWrite p (a / 512 * 512) (List.replicate 512 0) .inPlace
  let s := w.1.broke p src w.2
  match s.loc p a with
  | .mem o x d =>
    if s.waitsSwitch o x d then { s with hbm := { s.hbm with late := mdel s.hbm.late (lateKey o x) } }
    else if w.2.ok && !s.closed (.mem o x d) then s.setPoison (d / 512) else s
  | _ => s

/-- May partition `p` write the shared region that `a` lies in? Outside shared regions, yes (R41). -/
def State.mayWrite (s : State) (p a : Nat) : Bool :=
  if a < sharedBase then true else
  match s.shared ((a - sharedBase) / sharedStep) with
  | none => false
  | some e => e.writer == p

/-- Zeroes a whole channel: its bytes and its poison are gone, its pages carry tag `tag` (R47 step 4, R285). -/
def State.zeroChannel (s : State) (c tag : Nat) : State :=
  let s := s.setChan c { s.chan c with tag := tag }
  { s with
    mem := s.mem.filter (fun e => e.1 / 2 ^ 31 != c)
    poison := s.poison.filter (fun l => l / 2 ^ 22 != c)
    hbm := { s.hbm with tags := s.hbm.tags.filter (fun e => e.1 / 1024 != c)
                        homes := s.hbm.homes.filter (fun l => l / 2 ^ 22 != c)
                        llc := s.hbm.llc.filterMap (fun e =>
                          let l := e.2.filter (fun x => x.line / 2 ^ 22 != c)
                          if l.isEmpty then none else some (e.1, l)) } }

-- Host memory -------------------------------------------------------------------------------------------------------------------------------

/-- `n` bytes of host memory. -/
def State.hostRead (s : State) (a n : Nat) : List Byte := (List.range n).map (fun i => mget 0 s.host (a + i))

/-- Bytes written to host memory. -/
def State.hostWrite (s : State) (a : Nat) (bs : List Byte) : State := { s with host := putBytes s.host (fun i => a + i) 0 bs }

/-- Host memory after the host's own stores. -/
def State.hostStores (s : State) (l : HostStores) : State := l.foldl (fun s e => s.hostWrite e.1 e.2) s

end Sys2Proof.Machine
end

