-- ==== Sys2Proof/Machine/Links.lean ====
section
/-!
DEFINITION. What the scheduler's, the sequencer's and the streamer's rules share: signal counters (R188, R222), the bunting table (R211),
requests of the internal clients of Zheris (R320), tensor tables (R162), line hashes and the palimpsest part of a line write (R238 to
R240, R251).
-/
namespace Sys2Proof.Machine

-- Signal counters -------------------------------------------------------------------------------------------------------------------------

/-- Adds to signal counter `n` of partition `p`, wrapping at 2^32 (R188). -/
def State.sigAdd (s : State) (p n d : Nat) : State := if n < 256 then s.finc (SCH_SIG_VALUE p n) d else s

/-- A wait on counter `n` with value `v` is met when (x − v) mod 2^32 is below 2^31; 0xFFFF is no wait (R187, R188). -/
def State.sigMet (s : State) (p n v : Nat) : Bool :=
  n == 0xFFFF || decide (ahead 32 (s.fget (SCH_SIG_VALUE p n)) v < 2 ^ 31)

/-- The counter of bank index `b` in step `n` (R222). -/
def bankSig (n b : Nat) : Nat := 192 + 32 * (n % 2) + b

-- Bunting -----------------------------------------------------------------------------------------------------------------------------------

/-- The bunting table's header (R211). -/
structure Bunt where
  id : Nat
  n : Nat
  self : Nat
  stages : Nat
  slices : Nat
  reps : Nat
  join : Nat
  close : Nat
  deriving DecidableEq, Repr

def State.buntBase (s : State) (p : Nat) : Nat := s.fget (SCH_SQ_BUNTING_BASE p) * 32

def parseBunt (b : List Byte) : Bunt :=
  ⟨leAt b 0 8, leAt b 8 2, leAt b 0xA 2, leAt b 0xC 1, leAt b 0xD 1, leAt b 0xE 1, leAt b 0x10 8, leAt b 0x18 8⟩

/-- Bytes of the bunting table at offset `off`; those of a line that cannot be read, as the sequencer read them last (R467; log entry 199). -/
def State.buntRead (s : State) (p off n : Nat) : Option (List Byte) :=
  (s.memGet p (s.buntBase p + off) n).orElse (fun _ =>
    let b := (s.sqp p).bt
    if off + n ≤ b.length then some (bytesAt b off n) else none)

/-- The header, when it can be read. -/
def State.bunt (s : State) (p : Nat) : Option Bunt := (s.buntRead p 0 32).map parseBunt

/-- Member `i`'s entry; zeros where it cannot be read. -/
def State.buntEnt (s : State) (p i : Nat) : List Byte := (s.buntRead p (32 + 32 * i) 32).getD []

/-- CONN of member `i`. -/
def State.memberConn (s : State) (p i : Nat) : Nat := leAt (s.buntEnt p i) 8 4

/-- STATE of member `i`: 0 absent, 1 joined, 2 lost. -/
def State.memberState (s : State) (p i : Nat) : Nat := leAt (s.buntEnt p i) 0xF 1

/-- Writes bytes of the bunting table at offset `off`. -/
def State.buntPut (s : State) (p off : Nat) (bs : List Byte) : State :=
  let s := s.memPut p sqSrc (s.buntBase p + off) bs .inPlace
  let x := s.sqp p
  if off + bs.length ≤ x.bt.length then s.setSqp p { x with bt := patch x.bt off bs } else s

/-- Writes bytes of member `i`'s entry. -/
def State.setMember (s : State) (p i off : Nat) (bs : List Byte) : State := s.buntPut p (32 + 32 * i + off) bs

/-- The sequencer keeps the table of `n` members as it reads it now. -/
def State.buntKeep (s : State) (p n : Nat) : State :=
  match s.memGet p (s.buntBase p) (32 + 32 * n) with
  | some b => s.setSqp p { s.sqp p with bt := b }
  | none => s

/-- Replica, stage and slice coordinates of member `i`: i = (STAGE × D + REPLICA) × T + SLICE. -/
def Bunt.coord (b : Bunt) (i : Nat) : Nat × Nat × Nat := (i / b.slices / b.reps, i / b.slices % b.reps, i % b.slices)

/-- Members of `i`'s replica group, in order of REPLICA: same STAGE and SLICE. -/
def Bunt.replicas (b : Bunt) (i : Nat) : List Nat :=
  let (st, _, sl) := b.coord i
  (List.range b.reps).map (fun r => (st * b.reps + r) * b.slices + sl)

/-- The connection number of a context index (R319). -/
def State.connNo (s : State) (i : Nat) : Nat := mget 0 s.zt.gens i * 2 ^ 20 + i

/-- The context that a connection number names, if it is not FREE and the generation is right. -/
def State.findConn (s : State) (n : Nat) : Option (Nat × Conn) :=
  let i := n % 2 ^ 20
  if n = 0xFFFFFFFF ∨ s.connNo i ≠ n then none else (mfind s.zt.ctx i).map (fun c => (i, c))

/-- The context that a number names, if partition `p` holds it. -/
def State.partConn (s : State) (p n : Nat) : Option (Nat × Conn) :=
  (s.findConn n).bind (fun e => if e.2.part = p then some e else none)

/-- Is the peer of a connection reachable: a context that is neither UNREACHABLE nor CLOSED? -/
def State.connUp (s : State) (p n : Nat) : Bool :=
  match s.partConn p n with | some e => e.2.state != 4 && e.2.state != 5 | none => false

-- Internal clients of Zheris ----------------------------------------------------------------------------------------------------------------

/-- A message of an internal client: connection, destination, bytes and, if any, the receiver's counter, plus 1 (R320). -/
def State.zSend (s : State) (r : ZReq) : State := { s with zt := { s.zt with int := s.zt.int ++ [r] } }

/-- A request with the bytes `data` that increments the receiver's counter `sig` by 1. -/
def zMsg (p conn client : Nat) (remote sig : Option Nat) (data : List Byte) : ZReq :=
  { part := p, conn, client, flags := if sig.isSome then 1 else 0, rsig := sig.getD 0, lsig := 0, locAddr := 0, remote,
    bytes := data.length, imm := 0, rinc := if sig.isSome then 1 else 0, linc := 0, tag := 0, data := some data, cb := .none }

/-- A message to member `i` of the bunting: over its connection, or in place for the member itself. -/
def State.toMember (s : State) (p client i : Nat) (remote : Option Nat) (sig : Option Nat) (data : List Byte) : State :=
  match s.bunt p with
  | none => s
  | some b =>
    if i = b.self then
      let s := match remote with | some a => s.memPut p zherisSrc a data .inPlace | none => s
      match sig with | some n => s.sigAdd p n 1 | none => s
    else s.zSend (zMsg p (s.memberConn p i) client remote sig data)

-- The sequencer's entries --------------------------------------------------------------------------------------------------------------------

/-- Address of the schedule table in slot `n` (R218). -/
def State.sqTable (s : State) (p n : Nat) : Nat := s.fget (SCH_SQ_TABLE_BASE p n) * 64

/-- Address of entry `i` of the table in force. -/
def State.sqEntAddr (s : State) (p i : Nat) : Nat := s.sqTable p (s.fget (SCH_SQ_EPOCH_SLOT p)) + 64 + 16 * i

/-- Entry `i` of the table in force, if it can be read. -/
def State.sqEnt (s : State) (p i : Nat) : Option (List Byte) := s.memGet p (s.sqEntAddr p i) 16

/-- Entry `i` of the step in progress completes (R218): POST_SIG (which a TASK's own completion adds, R223) and MB_CLOSE (R220). -/
def State.sqEntryDone (s : State) (p i : Nat) : State :=
  let x := s.sqp p
  if x.fin.contains i || !x.rel.contains i then s else
  let s := s.setSqp p { x with fin := sins x.fin i }
  match s.sqEnt p i with
  | none => s
  | some b =>
    let post := leAt b 9 1
    let s := if leAt b 0 1 ≠ 1 ∧ post < 31 then s.sigAdd p (bankSig (s.fget (SCH_SQ_STEP_STEP p)) post) 1 else s
    if (leAt b 1 1).testBit 2 then
      let y := s.sqp p
      let s := s.setSqp p { y with mbs := sdel y.mbs (leAt b 2 2) }
      s.fset (SCH_SQ_INFLIGHT_COUNT p) (s.sqp p).mbs.length
    else s

/-- A blotter operation of a DRAIN or FOLD entry is done; with its last one the entry completes (R218). -/
def State.sqBlDone (s : State) (p t op r : Nat) : State :=
  let x := s.sqp p
  match x.bl.find? (fun e => e.2 == (t, op, r)) with
  | none => s
  | some e =>
    let bl := x.bl.erase e
    let s := s.setSqp p { x with bl := bl }
    if bl.any (fun y => y.1 == e.1) then s else s.sqEntryDone p e.1

/-- The member forces a skip of the step in progress, once (R261); a partition whose sequencer is not enabled is no member and has no step. -/
def State.forceSkip (s : State) (p : Nat) : State :=
  if (s.sqp p).forced || !s.fbit (SCH_SQ_CTRL_ENABLE p) then s else
  let s := s.setSqp p { s.sqp p with flag := true, forced := true }
  ((s.fset (PAL_STATUS_FORCED_SKIP p) 1).fsat (PAL_FORCED_SKIPS_COUNT p) 1).noteEv 0x11 0 p (s.fget (SCH_SQ_STEP_STEP p))

-- Tasks ----------------------------------------------------------------------------------------------------------------------------------

/-- A task descriptor's fields (R187). -/
def parseTask (b : List Byte) : TaskDesc :=
  let fl := leAt b 3 1
  { kind := leAt b 0 1, level := leAt b 1 1, phase := leAt b 2 1, notify := fl.testBit 0, early := fl.testBit 1, idem := fl.testBit 2,
    slowRead := fl.testBit 3, tiles := leAt b 4 1, tset := leAt b 5 1, model := leAt b 6 1, taskId := leAt b 8 8, step := leAt b 0x10 4,
    mb := leAt b 0x14 2, epoch := leAt b 0x16 2, launch := leAt b 0x18 8, w0 := leAt b 0x20 2, w1 := leAt b 0x22 2, v0 := leAt b 0x24 4,
    v1 := leAt b 0x28 4, postSig := leAt b 0x2C 2, postInc := leAt b 0x2E 2,
    regions := ((List.range 8).map (fun i => leAt b (0x30 + 2 * i) 2)).filter (· != 0xFFFF), user := bytesAt b 0x40 16 }

-- Completion records --------------------------------------------------------------------------------------------------------------------------

/-- Is partition `p` host-lost (R357)? -/
def State.hostLost (s : State) (p : Nat) : Bool := s.fbit (HIF_P_STATUS_HOST_LOST p)

/-- Places of the host-lost queue (R354). -/
def State.hlqPlaces (s : State) (p : Nat) : Nat := 2 ^ clamp 8 20 (s.fget (HIF_P_HLQ_CFG_SIZE_LOG2 p))

/-- Is a place free in the host-lost queue (R354)? -/
def State.hlqRoom (s : State) (p : Nat) : Bool :=
  decide ((s.hp p).unread.length + (s.hp p).waiting.length + (s.hp p).reserved < s.hlqPlaces p)

/-- A record takes the next place of the host-lost queue in the partition's memory (R354). -/
def State.hlqPut (s : State) (p : Nat) (rec : List Byte) : State :=
  s.memPut p hostSrc (s.fget (HIF_P_HLQ_BASE_BASE p) * 512 + 32 * ((s.hp p).made % s.hlqPlaces p)) (bytesAt rec 0 32) .inPlace

/-- A 32-byte record is produced for the completion ring, and kept in the host-lost queue until it is consumed (R352, R354). -/
def State.cplPut (s : State) (p : Nat) (rec : List Byte) : State :=
  let s := s.hlqPut p rec
  let h := s.hp p
  s.setHp p { h with waiting := h.waiting ++ [bytesAt rec 0 32], made := h.made + 1 }

-- Tensor tables -------------------------------------------------------------------------------------------------------------------------------

/-- The tensor table that serves an epoch: its base and its COUNT (R162, R184). -/
def State.tensorTable (s : State) (p epoch : Nat) : Option (Nat × Nat) :=
  let t := fun n => if s.fget (LIG_TT_CFG_EPOCH p n) = epoch then some (s.fget (LIG_TT_BASE_BASE p n) * 128, s.fget (LIG_TT_CFG_COUNT p n)) else none
  (t 0).orElse (fun _ => t 1)

/-- The epoch in force (R234). -/
def State.epochNow (s : State) (p : Nat) : Nat := s.fget (SCH_SQ_EPOCH_EPOCH p)

/-- Tensor entry `t` of the table of `epoch`: its address and its bytes. -/
def State.tensorEnt (s : State) (p epoch t : Nat) : Option (Nat × List Byte) :=
  match s.tensorTable p epoch with
  | none => none
  | some (base, n) =>
    if t < n then ((s.memGet p (base + 128 * t) 128).bind (fun b => if leAt b 0 4 = t then some (base + 128 * t, b) else none)) else none

/-- The tensors of the table of an epoch, in increasing TENSOR_ID, with their entries. -/
def State.tensors (s : State) (p epoch : Nat) : List (Nat × List Byte) :=
  match s.tensorTable p epoch with
  | none => []
  | some (_, n) => (List.range n).filterMap (fun t => (s.tensorEnt p epoch t).map (fun e => (t, e.2)))

/-- Fields of a tensor entry. -/
def teFlags (e : List Byte) : Nat := leAt e 5 1
def teSlow (e : List Byte) : Bool := (teFlags e).testBit 0
def teFirst (e : List Byte) : Nat := leAt e 0x10 4
def teLines (e : List Byte) : Nat := leAt e 0x14 4
def teState (e : List Byte) : Nat := leAt e 0x18 8
def teElems (e : List Byte) : Nat := leAt e 8 8

/-- Non-padding elements of line `l`, 0 to 32 (R160). -/
def teCount (e : List Byte) (l : Nat) : Nat := min 32 (teElems e - 32 * l)

-- Line hashes and the palimpsest side of a line write -----------------------------------------------------------------------------------------

/-- h(x) of a ligature line (R238). -/
def lineHash (x : List Byte) : Nat := leNat (shake256 x 16)

/-- Address of tensor `t`'s entry in the digest table (R240). -/
def State.digestAddr (s : State) (p t : Nat) : Nat := s.fget (PAL_DIGEST_BASE_BASE p) * 64 + 64 * t

/-- STATE of the tensor's digest entry: 0 unsealed, 1 sealed, 2 mismatch, 3 repairing. -/
def State.digestState (s : State) (p t : Nat) : Nat := leAt ((s.memGet p (s.digestAddr p t) 64).getD []) 0x30 1

/-- The dirty bit of a line: tensors in increasing TENSOR_ID, lines in increasing LINE (R251). -/
def State.dirtyBit (s : State) (p t l : Nat) : Nat :=
  (((s.tensors p (s.epochNow p)).filter (fun e => e.1 < t)).map (fun e => teLines e.2)).sum +
    (l - ((s.tensorEnt p (s.epochNow p) t).map (fun e => teFirst e.2)).getD 0)

/-- Sets or clears bit `b` of the dirty bitmap. -/
def State.setDirty (s : State) (p b : Nat) (v : Bool) : State :=
  let a := s.fget (PAL_DIRTY_BASE_BASE p) * 512 + b / 8
  match s.memGet p a 1 with
  | some [x] => s.memPut p palSrc a [byteOf (if v then setBit x.toNat (b % 8) else clearBit x.toNat (b % 8))] .inPlace
  | _ => s

/-- The palimpsest part of a ligature-unit write to a line (R239): DIGEST of a sealed shard moves by h(new) − h(old), and the line's dirty
bit is set. -/
def State.palLine (s : State) (p t l : Nat) (old new : List Byte) : State :=
  if !s.fbit (PAL_CTRL_ENABLE p) || s.digestState p t == 0 then s else
  let a := s.digestAddr p t
  match s.memGet p a 16 with
  | none => s
  | some d =>
    let v := (leNat d + lineHash new + 2 ^ 128 - lineHash old) % 2 ^ 128
    (s.memPut p palSrc a (leBytes 16 v) .inPlace).setDirty p (s.dirtyBit p t l) true

/-- Where a line of a page that is not resident lies in host memory, while the host is there; a page lost with host memory is nowhere (R203, R360; log
entry 164). -/
def State.hostPage (s : State) (p a : Nat) : Option Nat :=
  match s.loc p a with
  | .absent g => if s.hostLost p || (s.sp p).lost.contains g then none else some (s.fget (SCH_PAGE_HOST_BASE p) * 2 ^ 21 + 2 ^ 21 * g + a % 2 ^ 21)
  | _ => none

/-- The streamer's read of a line. -/
def State.palRead (s : State) (p a : Nat) : State × Option (List Byte) :=
  match s.hostPage p a with
  | some h => (s, some (s.hostRead h 512))
  | none => let (s, r) := s.memRead p a 512 .inval; (s, if r.ok then some r.bytes else none)

/-- A line as the streamer reads it. -/
def State.palGet (s : State) (p a : Nat) : Option (List Byte) := (s.palRead p a).2

/-- The digest of a shard formed from memory (R238), with its reads; none where a line cannot be read. -/
def State.shardDigest (s : State) (p : Nat) (e : List Byte) : State × Option Nat :=
  (List.range (teLines e)).foldl (fun (a : State × Option Nat) i =>
    let (s, x) := a.1.palRead p (teState e + 512 * i)
    (s, match a.2, x with
      | some v, some x => some ((v + lineHash x) % 2 ^ 128)
      | _, _ => none)) (s, some 0)

/-- DIGEST formed again from the shard as it stands, when all of it can be read (R240; log entry 165). -/
def State.reform (s : State) (p t : Nat) (e : List Byte) : State :=
  match s.shardDigest p e with
  | (s, some d) => s.memPut p palSrc (s.digestAddr p t) (leBytes 16 d) .inPlace
  | (s, none) => s

/-- The palimpsest part of a write to line `l` of tensor `t`, entry `e` (R239): of a line whose old contents `old` could not be read, DIGEST is formed again
from the shard. -/
def State.palSide (s : State) (p t l : Nat) (e : List Byte) (old : Option (List Byte)) (new : List Byte) : State :=
  match old with
  | some old => s.palLine p t l old new
  | none =>
    if s.fbit (PAL_CTRL_ENABLE p) && s.digestState p t != 0 then (s.setDirty p (s.dirtyBit p t l) true).reform p t e else s

end Sys2Proof.Machine
end

