-- ==== Sys2Proof/Machine/Rings.lean ====
section
/-!
DEFINITION. The four descriptor rings of a tile: fetching, completing, halting on a fault, ABORT and RESUME (R74, R84, R135, R136, R465),
the locks of a sampled descriptor (R73) and the watch unit's summaries (R85, R91).
-/
namespace Sys2Proof.Machine

/-- The rings of a tile, by their unit codes of R106. -/
inductive TU where
  | mx | nb | sm (n : Nat)
  deriving DecidableEq, Repr

/-- Unit code (R106). -/
def TU.code : TU → Nat
  | .mx => 0 | .nb => 1 | .sm n => 2 + n

/-- The unit of a code. -/
def TU.ofCode : Nat → Option TU
  | 0 => some .mx | 1 => some .nb | 2 => some (.sm 0) | 3 => some (.sm 1) | _ => none

def TU.head (t : Nat) : TU → Fld
  | .mx => TIL_MX_HEAD_HEAD t | .nb => TIL_NB_HEAD_HEAD t | .sm n => TIL_SM_HEAD_HEAD t n
def TU.tail (t : Nat) : TU → Fld
  | .mx => TIL_MX_TAIL_TAIL t | .nb => TIL_NB_TAIL_TAIL t | .sm n => TIL_SM_TAIL_TAIL t n
def TU.base (t : Nat) : TU → Fld
  | .mx => TIL_MX_RING_BASE t | .nb => TIL_NB_RING_BASE t | .sm n => TIL_SM_RING_BASE t n
def TU.size (t : Nat) : TU → Fld
  | .mx => TIL_MX_RING_SIZE_LOG2 t | .nb => TIL_NB_RING_SIZE_LOG2 t | .sm n => TIL_SM_RING_SIZE_LOG2 t n
def TU.enable (t : Nat) : TU → Fld
  | .mx => TIL_MX_CTRL_ENABLE t | .nb => TIL_NB_CTRL_ENABLE t | .sm n => TIL_SM_CTRL_ENABLE t n
def TU.doneF (t : Nat) : TU → Fld
  | .mx => TIL_MX_DONE_COUNT t | .nb => TIL_NB_DONE_COUNT t | .sm n => TIL_SM_DONE_COUNT t n
def TU.valid (t : Nat) : TU → Fld
  | .mx => TIL_MX_FAULT_VALID t | .nb => TIL_NB_FAULT_VALID t | .sm n => TIL_SM_FAULT_VALID t n
def TU.index (t : Nat) : TU → Fld
  | .mx => TIL_MX_FAULT_INDEX t | .nb => TIL_NB_FAULT_INDEX t | .sm n => TIL_SM_FAULT_INDEX t n
def TU.codeF (t : Nat) : TU → Fld
  | .mx => TIL_MX_FAULT_CODE t | .nb => TIL_NB_FAULT_CODE t | .sm n => TIL_SM_FAULT_CODE t n

/-- Bits of a ring index: 11, or 9 for a mover (R84, R136). -/
def TU.ixBits : TU → Nat
  | .sm _ => 9
  | _ => 11

/-- Bytes of a descriptor: 64, or 128 for a mover. -/
def TU.slot : TU → Nat
  | .sm _ => 128
  | _ => 64

/-- Is the ring halted by a fault? -/
def State.halted (s : State) (t : Nat) : TU → Bool
  | .mx => s.fbit (TIL_MX_STATUS_HALTED t)
  | .nb => s.fbit (TIL_NB_STATUS_HALTED t)
  | .sm n => (s.tile t).smHalt.contains n

/-- Halts a ring, or ends its halt. -/
def State.setHalted (s : State) (t : Nat) (u : TU) (h : Bool) : State :=
  match u with
  | .mx => s.fset (TIL_MX_STATUS_HALTED t) (b2n h)
  | .nb => s.fset (TIL_NB_STATUS_HALTED t) (b2n h)
  | .sm n => let x := s.tile t; s.setTile t { x with smHalt := if h then sins x.smHalt n else sdel x.smHalt n }

/-- The ring's WAIT in progress. -/
def State.waitOf (s : State) (t : Nat) : TU → Option (Nat × Nat)
  | .mx => none
  | .nb => (s.tile t).nbWait
  | .sm n => mfind (s.tile t).smWait n

/-- Is the ring busy with a descriptor that completes later: a sampled one, or a WAIT? -/
def State.ringBusy (s : State) (t : Nat) (u : TU) : Bool :=
  match u with
  | .mx => (s.tile t).shadow.isSome
  | _ => (s.waitOf t u).isSome

/-- Slots of the ring (R466). -/
def State.slots (s : State) (t : Nat) (u : TU) : Nat := ringSlots (s.fget (u.size t)) (match u with | .sm _ => 8 | _ => 10)

/-- Inkwell address of the slot at HEAD (R84, R136). -/
def State.slotAddr (s : State) (t : Nat) (u : TU) : Nat :=
  s.fget (u.base t) * u.slot + s.fget (u.head t) % s.slots t u * u.slot

/-- Are the tile's units stopped for a spill or a restore (R82, R134)? -/
def State.paused (s : State) (t : Nat) : Bool :=
  match s.tilePart t with
  | none => false
  | some p => (s.sp p).tasks.any (fun e => (e.2.st == .spilling || e.2.st == .restoring) && e.2.tiles.contains t)

/-- Is a descriptor waiting to be executed: ENABLE at 1, not halted or paused, nothing in progress, HEAD before TAIL (R74), and no device-fatal
state (R440)? -/
def State.canFetch (s : State) (t : Nat) (u : TU) : Bool :=
  !s.fatal && !s.asleep && !s.paused t && s.fbit (u.enable t) && !s.halted t u && !s.ringBusy t u && s.fget (u.head t) != s.fget (u.tail t)

/-- The partition of a tile; 0 when it has none. -/
def State.partOf (s : State) (t : Nat) : Nat := (s.tilePart t).getD 0

/-- The task that tile `t` works for, changed by `f`. -/
def State.onTileTask (s : State) (t : Nat) (f : Task → Task) : State :=
  match s.tilePart t, s.tileTask t with
  | some p, some k =>
    let sp := s.sp p
    s.setSp p { sp with tasks := sp.tasks.map (fun e => if e.2 == k then (e.1, f e.2) else e) }
  | _, _ => s

/-- A descriptor fault (R83, R135): the ring halts with HEAD where it is, the lowest failing code is recorded and a fault event raised. -/
def State.ringFault (s : State) (t : Nat) (u : TU) (code : Nat) : State :=
  let s := s.onTileTask t (fun k => if k.fault.isNone then { k with fault := some (t, u.code, code) } else k)
  (s.setHalted t u true).recErr
    { idx := 0x100 + 5 * t + u.code, valid := u.valid t, ovf := none,
      fill := [(u.index t, s.fget (u.head t)), (u.codeF t, code)],
      ev := mkEv (match u with | .mx => 6 | _ => 7) 2 (s.tilePart t) true code t }

/-- A descriptor completes: DONE and HEAD advance (R72, R105). -/
def State.ringDone (s : State) (t : Nat) (u : TU) : State := (s.finc (u.doneF t) 1).finc (u.head t) 1

/-- Does TAIL run more than the ring size ahead of HEAD (code 0x0B of R83 and R135)? -/
def State.tooFar (s : State) (t : Nat) (u : TU) : Bool :=
  decide (ahead u.ixBits (s.fget (u.tail t)) (s.fget (u.head t)) > s.slots t u)

/-- Does the slot at HEAD lie beyond the task inkwell, so that its fetch itself fails with code 0x04 (R83, R135)? -/
def State.slotOut (s : State) (t : Nat) (u : TU) : Bool := decide (s.slotAddr t u + u.slot > saveBase)

/-- The lowest failing code of a fetched descriptor: that of its own checks, `code`, or 0x0B while TAIL runs too far ahead, as after a RESUME that
changed neither; 0 when every check passes (R83, R135). -/
def State.leastCode (s : State) (t : Nat) (u : TU) (code : Nat) : Nat := if code ≠ 0 then code else if s.tooFar t u then 0x0B else 0

/-- TAIL written: more descriptors are queued; a TAIL more than the ring size ahead of HEAD halts the ring with code 0x0B (R83, R135). -/
def State.ringTail (s : State) (t : Nat) (u : TU) (v : Nat) : State :=
  let s := s.fset (u.tail t) v
  if s.tooFar t u then s.ringFault t u 0x0B else s

/-- ABORT of a ring (R465): queued descriptors are discarded, HEAD becomes TAIL, HALTED clears; the matrix ring's banks become +0. A
descriptor stopped by it does not count. -/
def State.ringAbort (s : State) (t : Nat) (u : TU) : State :=
  let s := (s.fset (u.head t) (s.fget (u.tail t))).setHalted t u false
  let x := s.tile t
  match u with
  | .mx =>
    let s := (s.setTile t { x with shadow := none }).fset (TIL_MX_STATUS_BUSY t) 0
    { s with acc := s.acc.filter (fun e => e.1 / 32768 != t) }
  | .nb => ((s.setTile t { x with nbWait := none }).fset (TIL_NB_STATUS_WAITING t) 0).fset (TIL_NB_STATUS_BUSY t) 0
  | .sm n => s.setTile t { x with smWait := mdel x.smWait n }

/-- RESUME of a halted ring: fetching restarts at HEAD; nothing on a ring that is not halted (R465). -/
def State.ringResume (s : State) (t : Nat) (u : TU) : State := if s.halted t u then s.setHalted t u false else s

/-- A write of CTRL: ENABLE takes its value; ABORT, which also aborts the tile's task (R193), then RESUME (R465). -/
def State.ringCtrl (s : State) (t : Nat) (u : TU) (v : Nat) : State :=
  let s := s.fset (u.enable t) v
  let s := if v.testBit 1 then (s.ringAbort t u).onTileTask t (fun k => { k with aborted := true }) else s
  if v.testBit 2 then s.ringResume t u else s

-- Ranges (R469) -----------------------------------------------------------------------------------------------------------------------

/-- A byte range, both ends included. -/
abbrev Range := Nat × Nat

/-- Do two ranges share a byte? -/
def overlaps (a b : Range) : Bool := decide (a.1 ≤ b.2) && decide (b.1 ≤ a.2)

/-- The bounding range of `rows` rows of `len` bytes, `stride` apart (R469). -/
def rowsRange (base rows stride len : Nat) : Range := (base, base + (rows - 1) * stride + len - 1)

/-- Ranges that a sampled descriptor keeps locked (R73, R98): the operands and scales, and the output. -/
structure Locks where
  ins : List Range
  out : List Range
  deriving DecidableEq, Repr

/-- Would a nib or mover that reads `rd` and writes `wr` stall on these locks (R73)? -/
def Locks.stall (l : Locks) (rd wr : List Range) : Bool :=
  wr.any (fun w => (l.ins ++ l.out).any (overlaps w)) || rd.any (fun r => l.out.any (overlaps r))

-- The watch unit ----------------------------------------------------------------------------------------------------------------------

/-- ENTRY of a tag (R85). -/
def tagEntry (tag : Nat) : Nat := tag % 0x10000

/-- Does the tag select an entry of partition `p`'s table while the watch is enabled? -/
def State.watched (s : State) (p tag : Nat) : Bool :=
  s.fbit (SCH_NW_PCTRL_ENABLE p) && tagEntry tag != 0xFFFF && decide (tagEntry tag < s.fget (SCH_NW_ENTRIES_COUNT p))

/-- A watched output is complete (R85, R91): its summary leaves for the collector; an ENTRY beyond the table only counts as untabled. -/
def State.sendSummary (s : State) (p tag : Nat) (m : Summary) : State :=
  if !s.fbit (SCH_NW_PCTRL_ENABLE p) || tagEntry tag == 0xFFFF then s
  else if s.watched p tag then
    let w := s.nwp p
    s.setNwp p { w with flight := w.flight ++ [{ m with entry := tagEntry tag }] }
  else s.fsat (SCH_NW_UNTABLED_COUNT p) 1

/-- A summary of a tile; a tile without a partition has no watch. -/
def State.tileSummary (s : State) (t tag : Nat) (m : Summary) : State :=
  match s.tilePart t with
  | none => s
  | some p => s.sendSummary p tag m

/-- An empty summary. -/
def Summary.init (fmt : Nat) : Summary := ⟨0, 0, 0, 0, 0, Num.zero, fmt, false, [], none, 0⟩

/-- One element counted (R89, R90): its pre-conversion value and what its conversion reported. -/
def Summary.count (m : Summary) (v : Num) (c : Conv) : Summary :=
  { m with
    total := m.total + 1
    sat := m.sat + (if c == .saturated then 1 else 0)
    flush := m.flush + (if c == .flushed then 1 else 0)
    nonfin := m.nonfin + (if v.isFin then 0 else 1)
    amax := if v.isFin && m.amax.lt v.abs then v.abs else m.amax }

/-- The micro-batch of the tile's task. -/
def State.mbOf (s : State) (t : Nat) : Nat := match s.tileTask t with | some k => k.d.mb | none => 0

/-- Is the tile's task a re-run within the step (R91)? -/
def State.isRerun (s : State) (t : Nat) : Bool := match s.tileTask t with | some k => k.retried > 0 | none => false

end Sys2Proof.Machine
end

