-- ==== Sys2Proof/Machine/Matrix.lean ====
section
/-!
DEFINITION. The matrix array: descriptors and their checks (R66, R69, R70, R83, R470, R101), accumulation (R75, R102), drains (R76, R77),
sampling (R96 to R98) and the commands MX_NOP, MX_MMA, MX_DRAIN, MX_LOAD and SHADOW_RECOMPUTE_DONE.
-/
namespace Sys2Proof.Machine

/-- A matrix descriptor, its fields as stored (R66). -/
structure MxD where
  op : Nat
  flags : Nat
  fmtA : Nat
  fmtB : Nat
  sm : Nat
  outFmt : Nat
  outCtrl : Nat
  rsv : Nat
  m : Nat
  n : Nat
  k : Nat
  aBase : Nat
  aStride : Nat
  bBase : Nat
  bStride : Nat
  aScale : Nat
  aScaleStride : Nat
  bScale : Nat
  bScaleStride : Nat
  outBase : Nat
  outStride : Nat
  outMul : Nat
  tag : Nat
  deriving DecidableEq, Repr

/-- The fields of a 64-byte matrix descriptor (R66). -/
def parseMx (b : List Byte) : MxD :=
  { op := leAt b 0 1, flags := leAt b 1 1, fmtA := leAt b 2 1, fmtB := leAt b 3 1, sm := leAt b 4 1, outFmt := leAt b 5 1,
    outCtrl := leAt b 6 1, rsv := leAt b 7 1, m := leAt b 8 2, n := leAt b 0xA 2, k := leAt b 0xC 4, aBase := leAt b 0x10 4,
    aStride := leAt b 0x14 4, bBase := leAt b 0x18 4, bStride := leAt b 0x1C 4, aScale := leAt b 0x20 4,
    aScaleStride := leAt b 0x24 4, bScale := leAt b 0x28 4, bScaleStride := leAt b 0x2C 4, outBase := leAt b 0x30 4,
    outStride := leAt b 0x34 4, outMul := leAt b 0x38 4, tag := leAt b 0x3C 4 }

def MxD.zero (d : MxD) : Bool := d.flags.testBit 0
def MxD.drainAfter (d : MxD) : Bool := d.flags.testBit 1
def MxD.et5 (d : MxD) : Bool := d.flags.testBit 2
def MxD.aKouter (d : MxD) : Bool := d.flags.testBit 3
def MxD.bKouter (d : MxD) : Bool := d.flags.testBit 4
def MxD.modeA (d : MxD) : Nat := d.sm % 4
def MxD.modeB (d : MxD) : Nat := d.sm / 4 % 4
def MxD.satOut (d : MxD) : Bool := d.outCtrl.testBit 0
def MxD.rtz (d : MxD) : Bool := d.outCtrl.testBit 1
def MxD.dest (d : MxD) : Nat := d.outCtrl / 4 % 4
def MxD.trans (d : MxD) : Bool := d.outCtrl.testBit 4

/-- Is the scaling mode allowed with the format (R64)? -/
def modeOk (mode : Nat) (f : Fmt) : Bool :=
  match mode with
  | 0 => f == .fp32 || f == .fp16 || f == .bf16
  | 1 => f.narrow
  | 2 => f.narrow && f != .int4
  | _ => false

/-- A format of the 8-bit and 6-bit floating-point rows of R69. -/
def isFp86 : Fmt → Bool
  | .e5m2 | .e4m3 | .e3m2 | .e2m3 => true
  | _ => false

/-- Arithmetic cycles for each K chunk of an operand pair; none for a pair that R69 does not list. -/
def pairCycles (a b : Fmt) : Option Nat :=
  let either := fun (p q : Fmt → Bool) => (p a && q b) || (p b && q a)
  if a == .e2m1 && b == .e2m1 then some 16
  else if a == .int4 && b == .int4 then some 16
  else if either isFp86 (fun f => isFp86 f || f == .e2m1) then some 32
  else if either (· == .int8) (fun f => f == .int8 || f == .int4) then some 32
  else if either (fun f => f == .bf16 || f == .fp16) (fun f => f == .bf16 || f == .fp16 || isFp86 f || f == .e2m1) then some 64
  else if a == .fp32 && b == .fp32 then some 256
  else none

/-- A stored panel: base, stride, rows, packed row length in bytes. -/
structure Panel where
  base : Nat
  stride : Nat
  rows : Nat
  len : Nat
  deriving DecidableEq, Repr

/-- Code 0x04 for one address or stride of the inkwell: misaligned, or beyond the task inkwell (R83). -/
def inkBad (a : Nat) : Bool := a % 64 != 0 || decide (saveBase ≤ a)

/-- Code 0x04 for a panel: a base or stride in error, a stride below the packed row (R70), or a range beyond the task inkwell. -/
def Panel.bad (p : Panel) : Bool :=
  inkBad p.base || inkBad p.stride || decide (p.stride < p.len) || decide (p.base + (p.rows - 1) * p.stride + p.len > saveBase)

def Panel.range (p : Panel) : Range := rowsRange p.base p.rows p.stride p.len

/-- An operand panel (R70). -/
def opPanel (f : Fmt) (kouter : Bool) (base stride outer k : Nat) : Panel :=
  if kouter then ⟨base, stride, k, packedLen f.bits outer⟩ else ⟨base, stride, outer, packedLen f.bits k⟩

/-- An MX scale panel, which follows its operand's layout (R70). -/
def scPanel (kouter : Bool) (base stride outer k : Nat) : Panel :=
  if kouter then ⟨base, stride, ceilDiv k 32, outer⟩ else ⟨base, stride, outer, ceilDiv k 32⟩

/-- The operand and scale panels of an MMA. -/
def MxD.panels (d : MxD) (fa fb : Fmt) : List Panel :=
  [opPanel fa d.aKouter d.aBase d.aStride d.m d.k, opPanel fb d.bKouter d.bBase d.bStride d.n d.k] ++
  (if d.modeA = 2 then [scPanel d.aKouter d.aScale d.aScaleStride d.m d.k] else []) ++
  (if d.modeB = 2 then [scPanel d.bKouter d.bScale d.bScaleStride d.n d.k] else [])

/-- The inkwell output panel, or the panel that a LOAD reads (R70, R470). -/
def MxD.outPanel (d : MxD) (f : Fmt) : Panel :=
  if d.trans then ⟨d.outBase, d.outStride, d.n, packedLen f.bits d.m⟩ else ⟨d.outBase, d.outStride, d.m, packedLen f.bits d.n⟩

/-- A format that a drain can write (R66). -/
def outOk (f : Fmt) : Bool := f == .fp32 || f == .fp16 || f == .bf16 || f == .e5m2 || f == .e4m3 || f == .acc48

/-- Formats and modes under ET5 (R101). -/
def et5Operand (mode : Nat) (f : Fmt) : Bool :=
  match f with
  | .bf16 | .fp16 => mode == 0
  | .e4m3 | .e5m2 | .int8 => mode == 1
  | _ => false
def et5Pair (a b : Fmt) : Bool :=
  (a == .bf16 && b == .bf16) || (a == .fp16 && b == .fp16) || (a == .int8 && b == .int8) ||
    ((a == .e4m3 || a == .e5m2) && (b == .e4m3 || b == .e5m2))
def et5Out (d : MxD) : Bool := !d.rtz && d.dest == 0 && (d.outFmt == 0 || d.outFmt == 1 || d.outFmt == 2)

/-- Does the descriptor drain? -/
def MxD.drains (d : MxD) : Bool := d.op == 2 || (d.op == 1 && d.drainAfter)

/-- Code 0x02: formats, modes, operand pair, destination. -/
def MxD.bad02 (d : MxD) : Bool :=
  (d.op == 1 && (match Fmt.ofCode d.fmtA, Fmt.ofCode d.fmtB with
    | some a, some b => !(modeOk d.modeA a && modeOk d.modeB b && (pairCycles a b).isSome)
    | _, _ => true)) ||
  (d.op == 2 && (d.modeA == 3 || d.modeB == 3)) ||
  (d.drains && (d.dest == 3 || (match Fmt.ofCode d.outFmt with | some f => !outOk f || (d.dest != 0 && f != .acc48) | none => true))) ||
  (d.op == 3 && d.outFmt != 0 && d.outFmt != 10)

/-- Code 0x03: lengths. -/
def MxD.bad03 (d : MxD) : Bool :=
  decide (d.m < 1 ∨ 128 < d.m ∨ d.n < 1 ∨ 128 < d.n) || (d.op == 1 && decide (d.k < 1 ∨ 16384 < d.k))

/-- Code 0x04: addresses and strides. A DRAIN's MX scale panels are not read, but their fields are checked (R470). -/
def MxD.bad04 (d : MxD) : Bool :=
  (match Fmt.ofCode d.fmtA, Fmt.ofCode d.fmtB with
    | some a, some b => d.op == 1 && (d.panels a b).any Panel.bad
    | _, _ => false) ||
  (d.op == 2 && ((d.modeA == 2 && (inkBad d.aScale || inkBad d.aScaleStride)) || (d.modeB == 2 && (inkBad d.bScale || inkBad d.bScaleStride)))) ||
  (match Fmt.ofCode d.outFmt with
    | some f => ((d.drains && d.dest == 0) || d.op == 3) && (d.outPanel f).bad
    | none => false) ||
  (d.drains && d.dest != 0 && d.outStride != 0)

/-- Code 0x05: K-outer with a 4-bit or 6-bit operand (R70). -/
def MxD.bad05 (d : MxD) : Bool :=
  d.op == 1 && (match Fmt.ofCode d.fmtA, Fmt.ofCode d.fmtB with
    | some a, some b => (d.aKouter && decide (a.bits < 8)) || (d.bKouter && decide (b.bits < 8))
    | _, _ => false)

/-- Code 0x06: a TENSOR scale or OUT_MUL that is not positive, normal and finite. -/
def MxD.bad06 (d : MxD) : Bool :=
  ((d.op == 1 || d.op == 2) && ((d.modeA == 1 && !posNormal32 d.aScale) || (d.modeB == 1 && !posNormal32 d.bScale))) ||
  (d.drains && !posNormal32 d.outMul)

/-- Code 0x07: the output overlaps an operand or scale panel. -/
def MxD.bad07 (d : MxD) : Bool :=
  d.op == 1 && d.drains && d.dest == 0 &&
  (match Fmt.ofCode d.fmtA, Fmt.ofCode d.fmtB, Fmt.ofCode d.outFmt with
    | some a, some b, some f => (d.panels a b).any (fun p => overlaps p.range (d.outPanel f).range)
    | _, _, _ => false)

/-- Code 0x08: a blotter destination beyond row 2,687. -/
def MxD.bad08 (d : MxD) : Bool := d.drains && d.dest != 0 && decide (d.outBase + (if d.trans then d.n else d.m) > 2688)

/-- Code 0x09: reserved fields, and fields that the modes require to be 0 (R66, R470). -/
def MxD.bad09 (d : MxD) : Bool :=
  d.rsv != 0 || decide (d.flags ≥ 32) ||
  ((d.op == 1 || d.op == 2) && (decide (d.sm ≥ 16) ||
    (d.modeA == 0 && (d.aScale != 0 || d.aScaleStride != 0)) || (d.modeB == 0 && (d.bScale != 0 || d.bScaleStride != 0)) ||
    (d.modeA == 1 && d.aScaleStride != 0) || (d.modeB == 1 && d.bScaleStride != 0))) ||
  (d.drains && decide (d.outCtrl ≥ 32))

/-- Code 0x0A: what ET-5 emulation excludes, or a flag other than that of the accumulation continued or drained (R101). -/
def MxD.bad0A (d : MxD) (accEt5 : Bool) : Bool :=
  (d.et5 && ((d.op == 1 && (match Fmt.ofCode d.fmtA, Fmt.ofCode d.fmtB with
      | some a, some b => !(et5Pair a b && et5Operand d.modeA a && et5Operand d.modeB b)
      | _, _ => true)) ||
    (d.drains && !et5Out d) || (d.op == 3 && d.outFmt != 0))) ||
  (((d.op == 1 && !d.zero) || d.op == 2) && d.et5 != accEt5)

/-- The lowest failing code of R83; 0 when every check passes. For NOP only OP is checked (R67). -/
def MxD.check (d : MxD) (accEt5 : Bool) : Nat :=
  if d.op > 3 then 1 else if d.op = 0 then 0 else if d.bad02 then 2 else if d.bad03 then 3 else if d.bad04 then 4
  else if d.bad05 then 5 else if d.bad06 then 6 else if d.bad07 then 7 else if d.bad08 then 8 else if d.bad09 then 9
  else if d.bad0A accEt5 then 10 else 0

-- Arithmetic --------------------------------------------------------------------------------------------------------------------------

/-- Stored element at place `x` of stored row `r` of a panel. -/
def State.panelElem (s : State) (t : Nat) (f : Fmt) (base stride r x : Nat) : Nat :=
  let a := base + r * stride
  if f.bits < 8 then bitsAt (s.inkNat t (a + x * f.bits / 8) 2) (x * f.bits % 8) f.bits
  else s.inkNat t (a + x * (f.bits / 8)) (f.bits / 8)

/-- Element (outer, k) of an operand, as stored (R70). -/
def State.operand (s : State) (t : Nat) (f : Fmt) (kouter : Bool) (base stride outer k : Nat) : Nat :=
  if kouter then s.panelElem t f base stride k outer else s.panelElem t f base stride outer k

/-- The MX scale byte of (outer, chunk). -/
def State.scaleByte (s : State) (t : Nat) (kouter : Bool) (base stride outer c : Nat) : Nat :=
  if kouter then s.inkNat t (base + c * stride + outer) 1 else s.inkNat t (base + outer * stride + c) 1

/-- The value of an operand element with its MX block scale applied exactly (R64, R75 step 2). -/
def mxValue (mode : Nat) (f : Fmt) (q scale : Nat) : Num :=
  let v := decodeNum f q
  if mode = 2 then
    let v := if f == .int8 then v.mul (.fin false 1 (-6)) else v
    v.mul (e8m0 scale)
  else v

/-- An FP32 pattern with a subnormal result made zero with its sign (R102). -/
def flush32 (v : Nat) : Nat := if bitsAt v 23 8 = 0 then v / 2 ^ 31 * 2 ^ 31 else v

/-- A value for ET-5: a BF16 subnormal reads as zero with its sign (R102 step 1). -/
def et5Value (f : Fmt) (q : Nat) : Num :=
  if f == .bf16 && bitsAt q 7 8 == 0 then .fin (bitAt q 15 == 1) 0 0 else decodeNum f q

/-- r_c of ET-5: the exact sum rounded toward zero; beyond the FP32 range, Inf (R102 step 3). -/
def et5Chunk (x : Num) : Nat :=
  match x with
  | .fin n m e => if !magGt (2 ^ 24) 104 m e then infEnc .fp32 n else flush32 (encIeee .fp32 .tz x)
  | _ => encIeee .fp32 .tz x

/-- One element's operands along K: the value pair at index k. -/
def State.pairAt (s : State) (t : Nat) (d : MxD) (fa fb : Fmt) (i j k : Nat) : Num × Num :=
  let sa := if d.modeA = 2 then s.scaleByte t d.aKouter d.aScale d.aScaleStride i (k / 32) else 0
  let sb := if d.modeB = 2 then s.scaleByte t d.bKouter d.bScale d.bScaleStride j (k / 32) else 0
  let qa := if k < d.k then s.operand t fa d.aKouter d.aBase d.aStride i k else 0
  let qb := if k < d.k then s.operand t fb d.bKouter d.bBase d.bStride j k else 0
  if d.et5 then (et5Value fa qa, et5Value fb qb) else (mxValue d.modeA fa qa sa, mxValue d.modeB fb qb sb)

/-- r_c of chunk c of element (i, j), `w` positions to a chunk: the exact sum of its products. -/
def State.chunkSum (s : State) (t : Nat) (d : MxD) (fa fb : Fmt) (w i j c : Nat) : Num :=
  Num.sum ((List.range w).map (fun x => let (a, b) := s.pairAt t d fa fb i j (w * c + x); a.mul b))

/-- The accumulator after every chunk, from `acc` (R75 steps 3 and 4; R102 steps 2 to 5). -/
def State.mmaElem (s : State) (t : Nat) (d : MxD) (fa fb : Fmt) (i j acc : Nat) : Nat :=
  if d.et5 then
    (List.range (ceilDiv d.k 16)).foldl (fun acc c =>
      let r := s.chunkSum t d fa fb 16 i j c
      if fa == .int8 then
        rne48 (Num.ofInt (toSigned 32 (ofSigned 32 ((acc48 acc).floorInt + r.floorInt))))
      else rne48 (fp32 (flush32 (rne32 ((acc48 acc).add (fp32 (et5Chunk r))))))) acc
  else
    (List.range (ceilDiv d.k 32)).foldl (fun acc c =>
      rne48 ((acc48 acc).add (acc48 (rne48 (s.chunkSum t d fa fb 32 i j c))))) acc

/-- Key of accumulator element (i, j) of a bank. -/
def accKey (t bank i j : Nat) : Nat := t * 32768 + bank * 16384 + i * 128 + j

def State.accGet (s : State) (t bank i j : Nat) : Nat := mget 0 s.acc (accKey t bank i j)

/-- All pairs (i, j), row-major. -/
def grid (m n : Nat) : List (Nat × Nat) := (List.range m).flatMap (fun i => (List.range n).map (fun j => (i, j)))

/-- The bank of the latest accumulation. -/
def State.bank (s : State) (t : Nat) : Nat := s.fget (TIL_MX_STATUS_BANK t)

/-- A new accumulation in the other bank, every element +0 (R68). -/
def State.newBank (s : State) (t : Nat) : State :=
  let b := 1 - s.bank t
  { s.fset (TIL_MX_STATUS_BANK t) b with acc := s.acc.filter (fun e => e.1 / 16384 != t * 2 + b) }

/-- The accumulation of an MMA (R68, R75). -/
def State.mmaAcc (s : State) (t : Nat) (d : MxD) (fa fb : Fmt) : State :=
  let s := if d.zero then s.newBank t else s
  let b := s.bank t
  let vals := (grid d.m d.n).map (fun e => (accKey t b e.1 e.2, s.mmaElem t d fa fb e.1 e.2 (s.accGet t b e.1 e.2)))
  let s := { s with acc := vals.foldl (fun m (e : Nat × Nat) => mset 0 m e.1 e.2) s.acc }
  let s := s.setTile t { s.tile t with mxEt5 := d.et5 }
  let w := if d.et5 then 16 else 32
  s.finc (TIL_MX_BUSYCYC_CYCLES t) (ceilDiv d.k w * (pairCycles fa fb).getD 0)

-- Drains ------------------------------------------------------------------------------------------------------------------------------

/-- The scale of a mode: the TENSOR value, or none. -/
def tensorScale (mode v : Nat) : Option Num := if mode = 1 then some (fp32 v) else none

/-- t3 of R76 for an accumulator value, or of R102 step 7 under ET5 (as FP32 bits decoded). -/
def MxD.t3 (d : MxD) (acc : Nat) : Num :=
  let sa := tensorScale d.modeA d.aScale
  let sb := tensorScale d.modeB d.bScale
  if d.et5 then
    let t0 := fp32 (rne32 (acc48 acc))
    let k := fp32 (rne32 ((sa.getD Num.one).mul (sb.getD Num.one)))
    let t2 := fp32 (flush32 (rne32 (t0.mul k)))
    fp32 (flush32 (rne32 (t2.mul (fp32 d.outMul))))
  else
    let t1 := match sa with | some x => acc48 (rne48 ((acc48 acc).mul x)) | none => acc48 acc
    let t2 := match sb with | some x => acc48 (rne48 (t1.mul x)) | none => t1
    acc48 (rne48 (t2.mul (fp32 d.outMul)))

/-- A NaN of ET-5 emulation (R102 step 8). -/
def et5Nan (f : Fmt) : Nat := if f == .fp32 then 0x7FFFFFFF else 0x7FFF

/-- The stored bits of a drained element and what its conversion reports (R77, R102). -/
def MxD.convert (d : MxD) (f : Fmt) (v : Num) : Nat × Conv :=
  if f == .acc48 then (rne48 v, .normal)
  else if d.et5 && v.isNan then (et5Nan f, .normal)
  else toFmt f d.satOut d.rtz v

/-- Physical place of a view row of the blotter; none when its view block is unmapped (R142). -/
def State.blotRow (s : State) (t row : Nat) : Option Nat :=
  let v := s.fget (TIL_BL_MAP_V t (row / 32 / 4) (row / 32 % 4))
  if v ≥ 128 then some ((t * 84 + v % 128) * 4096 + row % 32 * 128) else none

/-- One element written to the blotter (R76, R142): the element's result, and whether its row was unmapped. -/
def State.blotPut (s : State) (t row col : Nat) (add : Bool) (v : Num) : State × Num × Bool :=
  match s.blotRow t row with
  | none => (s, v, true)
  | some k =>
    let r := if add then rne48 ((acc48 (mget 0 s.blot (k + col))).add v) else rne48 v
    ({ s with blot := mset 0 s.blot (k + col) r }, acc48 r, false)

/-- The drain of a bank (R76): every element converted and written; the watch counts (R89), in row-major order. -/
def State.mxDrain (s : State) (t : Nat) (d : MxD) : State × Summary :=
  let b := s.bank t
  let cells := (grid d.m d.n).map (fun e => (e, d.t3 (s.accGet t b e.1 e.2)))
  let f := (Fmt.ofCode d.outFmt).getD .fp32
  let m0 := { Summary.init d.outFmt with rerun := s.isRerun t, mb := s.mbOf t }
  if d.dest = 0 then
    let conv := cells.map (fun c => (c.1, c.2, d.convert f c.2))
    let m := conv.foldl (fun m c => m.count c.2.1 c.2.2.2) m0
    let step := f.bits / 8
    let s := conv.foldl (fun s c =>
      let (i, j) := c.1
      let a := if d.trans then d.outBase + j * d.outStride + i * step else d.outBase + i * d.outStride + j * step
      s.inkWrite t a (leBytes step c.2.2.1)) s
    (s, m)
  else
    let (s, m, un) := cells.foldl (fun (acc : State × Summary × Bool) c =>
      let (i, j) := c.1
      let (s, r, un) := acc.1.blotPut t (d.outBase + if d.trans then j else i) (if d.trans then i else j) (d.dest == 1) c.2
      (s, { acc.2.1.count c.2 .normal with nonfin := acc.2.1.nonfin + (if r.isFin then 0 else 1) }, acc.2.2 || un)) (s, m0, false)
    let sq := cells.foldl (fun a c => rne48 ((acc48 a).add (c.2.mul c.2))) 0
    let m := { m with sumsq := some (rne32 (acc48 sq)) }
    if un then ((s.fset (TIL_BL_STATUS_UNMAPPED t) 1).raise (mkEv 8 2 (s.tilePart t) true 0 t), m) else (s, m)

-- Commands ----------------------------------------------------------------------------------------------------------------------------

/-- What the matrix ring of tile `t` does with the descriptor at HEAD when its OP is `op`: the fetch is checked (R83), then the descriptor; a descriptor that fails halts the ring. Another OP than `op` is another command's. -/
def State.mxRun (s : State) (t op : Nat) (go : State → MxD → List Byte → State) : State :=
  if !s.canFetch t .mx then s
  else if s.slotOut t .mx then s.ringFault t .mx 4
  else
    let raw := s.inkRead t (s.slotAddr t .mx) 64
    let d := parseMx raw
    if d.op ≤ 3 ∧ d.op ≠ op then s
    else
      let code := s.leastCode t .mx (d.check (s.tile t).mxEt5)
      if code ≠ 0 then s.ringFault t .mx code else go s d raw

/-- A NOP completes (R67). -/
def State.mxNopGo (t : Nat) (s : State) (_ : MxD) (_ : List Byte) : State := s.ringDone t .mx

/-- Effective sampling exponent of a partition (R96; 1–5 act as 6, above 16 as 16); 0 is off. -/
def State.sampleLog (s : State) (p : Nat) : Nat :=
  let v := s.fget (SCH_NW_PCTRL_SAMPLE_LOG2 p)
  if v = 0 then 0 else clamp 6 16 v

/-- An MMA (R67, R75): it accumulates, drains when DRAIN_AFTER is 1, and completes; a sampled descriptor completes only when its
recomputation ends (R96, R98). -/
def State.mxMmaGo (t : Nat) (s : State) (d : MxD) (raw : List Byte) : State :=
  match Fmt.ofCode d.fmtA, Fmt.ofCode d.fmtB with
  | some fa, some fb =>
    let s := s.mmaAcc t d fa fb
    if !d.drainAfter then s.ringDone t .mx
    else
      let (s, m) := s.mxDrain t d
      let p := s.partOf t
      if d.zero && d.dest == 0 && (s.tilePart t).isSome && s.watched p d.tag then
        let x := s.tile t
        let n := x.eligible
        let l := s.sampleLog p
        let s := s.setTile t { x with eligible := n + 1 }
        if l ≠ 0 ∧ (n + t) % 2 ^ l = 0 then
          (s.setTile t { x with eligible := n + 1, shadow := some ⟨raw, n % d.m, m⟩ }).fset (TIL_MX_STATUS_BUSY t) 1
        else (s.tileSummary t d.tag m).ringDone t .mx
      else (s.tileSummary t d.tag m).ringDone t .mx
  | _, _ => s

/-- A DRAIN (R76). -/
def State.mxDrainGo (t : Nat) (s : State) (d : MxD) (_ : List Byte) : State :=
  let (s, m) := s.mxDrain t d
  (s.tileSummary t d.tag m).ringDone t .mx

/-- A LOAD (R67, R68, R470): the other bank is filled from the panel, each value through rne48, or flush(rne32) under ET5 (R102). -/
def State.mxLoadGo (t : Nat) (s : State) (d : MxD) (_ : List Byte) : State :=
  let f := if d.outFmt = 10 then Fmt.acc48 else .fp32
  let step := f.bits / 8
  -- positions outside M_LEN × N_LEN keep their values (R68)
  let b := 1 - s.bank t
  let vals := (grid d.m d.n).map (fun e =>
    let a := if d.trans then d.outBase + e.2 * d.outStride + e.1 * step else d.outBase + e.1 * d.outStride + e.2 * step
    let v := decodeNum f (s.inkNat t a step)
    (accKey t b e.1 e.2, if d.et5 then rne48 (fp32 (flush32 (rne32 v))) else rne48 v))
  let s := { s.fset (TIL_MX_STATUS_BANK t) b with acc := vals.foldl (fun m (e : Nat × Nat) => mset 0 m e.1 e.2) s.acc }
  (s.setTile t { s.tile t with mxEt5 := d.et5 }).ringDone t .mx

-- Shadow recomputation ----------------------------------------------------------------------------------------------------------------

/-- The reference of R97 for column j of the sampled row. -/
def State.shadowRef (s : State) (t : Nat) (d : MxD) (fa fb : Fmt) (i j : Nat) : Nat :=
  let sum := (List.range d.k).foldl (fun acc k =>
    let sa := if d.modeA = 2 then s.scaleByte t d.aKouter d.aScale d.aScaleStride i (k / 32) else 0
    let sb := if d.modeB = 2 then s.scaleByte t d.bKouter d.bScale d.bScaleStride j (k / 32) else 0
    let a := mxValue d.modeA fa (s.operand t fa d.aKouter d.aBase d.aStride i k) sa
    let b := mxValue d.modeB fb (s.operand t fb d.bKouter d.bBase d.bStride j k) sb
    rne32 ((a.mul b).add (fp32 acc))) 0
  let mulOpt := fun (v : Nat) (x : Option Num) => match x with | some y => rne32 ((fp32 v).mul y) | none => v
  rne32 ((fp32 (mulOpt (mulOpt sum (tensorScale d.modeA d.aScale)) (tensorScale d.modeB d.bScale))).mul (fp32 d.outMul))

/-- The bin of an output value against its reference (R97); none where the spec states no bin: both NaN, or infinities that differ. -/
def shadowBin (o r : Num) : Option Nat :=
  if (o.isZero && r.isZero) || o.eqv r then some 0
  else if o.isFin != r.isFin then some 31
  else if !o.isFin then none
  else if r.isZero then some 31
  else
    let e := fp32 (rne32 (((o.sub r).abs).divSticky 40 r.abs))
    if e.lt (.fin false 1 (-28)) then some 1
    else if (Num.one).le e then some 30
    else some ((List.range 28).foldl (fun (acc b : Nat) => if (Num.fin false 1 ((b : Int) - 28)).le e then b + 2 else acc) 2)

/-- The bins of a sampled descriptor: its row against the references (R97). -/
def State.shadowBins (s : State) (t : Nat) (d : MxD) (row : Nat) : List (Option Nat) :=
  match Fmt.ofCode d.fmtA, Fmt.ofCode d.fmtB, Fmt.ofCode d.outFmt with
  | some fa, some fb, some f =>
    (List.range (min d.n 64)).map (fun j =>
      let a := if d.trans then d.outBase + j * d.outStride + row * (f.bits / 8) else d.outBase + row * d.outStride + j * (f.bits / 8)
      let o := decodeNum f (s.inkNat t a (f.bits / 8))
      shadowBin (if f == .acc48 then fp32 (rne32 o) else o) (fp32 (s.shadowRef t d fa fb row j)))
  | _, _, _ => []

/-- The end of a sampled descriptor (R98): its errors are binned, its summary sent and the descriptor completes. -/
def State.shadowDone (s : State) (t : Nat) : State :=
  match (s.tile t).shadow with
  | none => s
  | some w =>
    let d := parseMx w.desc
    let (s, bins) := (s.shadowBins t d w.row).foldl (fun (acc : State × NMap Nat) x =>
      match x with
      | some b => (acc.1, mupd 0 acc.2 b (· + 1))
      | none => let (v, s) := acc.1.free 5; (s, mupd 0 acc.2 v (· + 1))) (s, [])
    let m := { w.sum with bins := bins }
    let s := (s.setTile t { s.tile t with shadow := none }).fset (TIL_MX_STATUS_BUSY t) 0
    (s.tileSummary t d.tag m).ringDone t .mx

/-- The locks of the tile's sampled descriptor, if one is in progress (R73, R98). -/
def State.shadowLocks (s : State) (t : Nat) : Locks :=
  match (s.tile t).shadow with
  | none => ⟨[], []⟩
  | some w =>
    let d := parseMx w.desc
    match Fmt.ofCode d.fmtA, Fmt.ofCode d.fmtB, Fmt.ofCode d.outFmt with
    | some a, some b, some f => ⟨(d.panels a b).map Panel.range, [(d.outPanel f).range]⟩
    | _, _, _ => ⟨[], []⟩

def execMxNop (t : Nat) (s : State) : Host.Outcome State Fault Refusal := onUnit (t < 152) (s.mxRun t 0 (State.mxNopGo t))
def execMxMma (t : Nat) (s : State) : Host.Outcome State Fault Refusal := onUnit (t < 152) (s.mxRun t 1 (State.mxMmaGo t))
def execMxDrain (t : Nat) (s : State) : Host.Outcome State Fault Refusal := onUnit (t < 152) (s.mxRun t 2 (State.mxDrainGo t))
def execMxLoad (t : Nat) (s : State) : Host.Outcome State Fault Refusal := onUnit (t < 152) (s.mxRun t 3 (State.mxLoadGo t))
def execShadowRecomputeDone (t : Nat) (s : State) : Host.Outcome State Fault Refusal := onUnit (t < 152) (s.shadowDone t)

end Sys2Proof.Machine
end

