-- ==== Sys2Proof/Machine/Streams.lean ====
section
/-!
DEFINITION. Streams (R108 to R111, R469): descriptors, their checks, reading and writing their elements in the inkwell; conversion of
outputs (R116, R117); and the special-function unit (R121).
-/
namespace Sys2Proof.Machine

/-- A stream descriptor (R108). -/
structure Strm where
  space : Nat
  fmt : Nat
  flags : Nat
  rsv : Nat
  c0 : Nat
  c1 : Nat
  c2 : Nat
  base : Nat
  s0 : Int
  s1 : Int
  s2 : Int
  deriving DecidableEq, Repr

def parseStrm (b : List Byte) : Strm :=
  { space := leAt b 0 1, fmt := leAt b 1 1, flags := leAt b 2 1, rsv := leAt b 3 1, c1 := leAt b 4 2, c2 := leAt b 6 2,
    base := leAt b 8 8, c0 := leAt b 0x10 4, s0 := toSigned 32 (leAt b 0x14 4), s1 := toSigned 32 (leAt b 0x18 4),
    s2 := toSigned 32 (leAt b 0x1C 4) }

/-- Stored bits of an element; 8 for an invalid format, which no check lets pass. -/
def Strm.bits (s : Strm) : Nat := match Fmt.ofCode s.fmt with | some f => f.bits | none => 8

def Strm.format (s : Strm) : Fmt := (Fmt.ofCode s.fmt).getD .fp32

/-- 4-bit and 6-bit rows are packed (R61, R110). -/
def Strm.packed (s : Strm) : Bool := decide (s.bits < 8)

/-- Address of row (i1, i2) (R109). -/
def Strm.rowAddr (s : Strm) (i1 i2 : Nat) : Int := s.base + i1 * s.s1 + i2 * s.s2

/-- Byte length of the whole row when its elements are adjacent. -/
def Strm.rowLen (s : Strm) : Nat := packedLen s.bits s.c0

/-- First and last byte that the stream touches (R469). -/
def Strm.bounds (s : Strm) : Int × Int :=
  let d0 := if s.packed then 0 else ((s.c0 : Int) - 1) * s.s0 * (s.bits / 8 : Nat)
  let len : Int := if s.packed then s.rowLen else (s.bits / 8 : Nat)
  let d1 := ((s.c1 : Int) - 1) * s.s1
  let d2 := ((s.c2 : Int) - 1) * s.s2
  (s.base + min 0 d0 + min 0 d1 + min 0 d2, s.base + max 0 d0 + max 0 d1 + max 0 d2 + len - 1)

/-- The range of an inkwell stream as addresses. -/
def Strm.range (s : Strm) : Range := (s.bounds.1.toNat, s.bounds.2.toNat)

/-- Code 0x02: an invalid format. -/
def Strm.bad02 (s : Strm) : Bool := (Fmt.ofCode s.fmt).isNone

/-- Code 0x04: an invalid SPACE (SPACE 1 too in a nib stream), or an inkwell address outside the task inkwell (R110). A stream with a count of 0
touches no address. -/
def Strm.bad04 (nib : Bool) (s : Strm) : Bool :=
  decide (s.space > 1) || (nib && s.space != 0) ||
    (s.space == 0 && s.c0 != 0 && s.c1 != 0 && s.c2 != 0 && (decide (s.bounds.1 < 0) || decide (s.bounds.2 ≥ (saveBase : Int))))

/-- Code 0x05: a count that is 0 or out of its range, an output stride of 0, or a stride that R110 forbids. -/
def Strm.bad05 (out : Bool) (s : Strm) : Bool :=
  s.c0 == 0 || decide (s.c0 > 16777216) || s.c1 == 0 || s.c2 == 0 || (out && (s.s0 == 0 || s.s1 == 0 || s.s2 == 0)) ||
    (s.packed && s.s0 != 1) || (s.format == .acc48 && s.s0 != 1 && s.s0 != 0)

/-- Code 0x08: reserved bits, PREFETCH and NOALLOC among them on an inkwell stream. -/
def Strm.bad08 (s : Strm) : Bool := s.rsv != 0 || decide (s.flags > 3) || (s.space == 0 && s.flags != 0)

/-- Rows in stream order (R109). -/
def Strm.rows (s : Strm) : List (Nat × Nat) := (List.range s.c2).flatMap (fun i2 => (List.range s.c1).map (fun i1 => (i1, i2)))

/-- The adjacent byte runs of a row: one for adjacent elements and for a broadcast, else one an element. -/
def Strm.runs (s : Strm) (r : Nat × Nat) : List (Int × Nat) :=
  let a := s.rowAddr r.1 r.2
  let n := s.bits / 8
  if s.packed || s.s0 == 1 then [(a, s.rowLen)] else if s.s0 == 0 then [(a, n)]
  else (List.range s.c0).map (fun (i : Nat) => (a + (i : Int) * s.s0 * (n : Int), n))

/-- A row's stored elements, from the bytes of its runs. -/
def Strm.elems (s : Strm) (chunks : List (List Byte)) : List Nat :=
  let n := s.bits / 8
  if s.packed then (List.range s.c0).map (packedGet s.bits (chunks.getD 0 []))
  else if s.s0 == 1 then (List.range s.c0).map (fun i => leAt (chunks.getD 0 []) (i * n) n)
  else if s.s0 == 0 then List.replicate s.c0 (leNat (chunks.getD 0 []))
  else chunks.map leNat

/-- The bytes that a row's first elements put at the row's runs; the unused bits of a packed row's last byte are 0 (R61, R111). -/
def Strm.puts (s : Strm) (r : Nat × Nat) (es : List Nat) : List (Int × List Byte) :=
  let n := s.bits / 8
  let a := s.rowAddr r.1 r.2
  if s.packed then [(a, packRow s.bits es)]
  else if s.s0 == 1 then [(a, es.flatMap (leBytes n))]
  else (List.range es.length).map (fun (i : Nat) => (a + (i : Int) * s.s0 * (n : Int), leBytes n (es.getD i 0)))

/-- Every element of an inkwell stream in stream order, row by row. -/
def State.inkStream (s : State) (t : Nat) (x : Strm) : List (List Nat) :=
  x.rows.map (fun r => x.elems ((x.runs r).map (fun e => s.inkRead t e.1.toNat e.2)))

/-- Writes the first elements of one row of an inkwell stream. In a packed row the bits behind them keep their contents, unless they are the tail
behind the row's last element (R111). -/
def State.inkRowPut (s : State) (t : Nat) (x : Strm) (r : Nat × Nat) (es : List Nat) : State :=
  let a := (x.rowAddr r.1 r.2).toNat
  let n := es.length * x.bits
  if x.packed && decide (es.length < x.c0) then
    let z := ceilDiv n 8
    s.inkWrite t a (leBytes z (leNat (packRow x.bits es) + s.inkNat t a z / 2 ^ n * 2 ^ n))
  else (x.puts r es).foldl (fun s w => s.inkWrite t w.1.toNat w.2) s

/-- Writes rows of elements to an inkwell stream, in increasing stream index (R111). -/
def State.inkStreamPut (s : State) (t : Nat) (x : Strm) (rows : List (List Nat)) : State :=
  (x.rows.zip rows).foldl (fun s e => s.inkRowPut t x e.1 e.2) s

-- Conversion of outputs ---------------------------------------------------------------------------------------------------------------

/-- Formats that require SAT = 1 (R116). -/
def satRequired (f : Fmt) : Bool :=
  match f with
  | .e3m2 | .e2m3 | .e2m1 | .int8 | .int4 => true
  | _ => false

/-- Conversion of an output value (R116) and what the watch counts of it (R117). -/
def nibConv (f : Fmt) (sat rtz : Bool) (x : Num) : Nat × Conv :=
  match f with
  | .fp32 => (rne32 x, .normal)
  | .acc48 => (rne48 x, .normal)
  | .int8 | .int4 =>
    let w := f.bits
    let hi : Int := (2 : Int) ^ (w - 1) - 1
    let lo : Int := -(2 : Int) ^ (w - 1)
    match x with
    | .nan => (0, .normal)
    | .inf n => (ofSigned w (if n then lo else hi), .normal)
    | .fin _ _ _ =>
      let i := x.roundInt rtz
      if i > hi then (ofSigned w hi, .saturated) else if i < lo then (ofSigned w lo, .saturated)
      else (ofSigned w i, if i = 0 ∧ !x.isZero then .flushed else .normal)
  | .e3m2 | .e2m3 | .e2m1 =>
    match x with
    | .nan => (0, .normal)
    | .inf n => (signed f n (maxFinite f), .normal)
    | .fin _ _ _ => toFmt f true rtz x
  | _ => toFmt f sat rtz x

-- Special functions (R121) ------------------------------------------------------------------------------------------------------------

/-- An inexact result: one of the two FP32 values next to it, each within one unit in the last place; which one is the implementation's
(Config.sfu, log entry 5). `lo` is the result rounded toward zero. -/
def sfuPick (op a lo : Nat) : Nat :=
  if lo % 2 ^ 31 = maxFinite .fp32 then lo else if (Config.sfu op a).toNat % 2 = 1 then lo + 1 else lo

/-- 2^(2^−i) for i = 1, 2, …, as integers of 128 fraction bits rounded down. -/
def exp2Roots : Nat → Nat → List Nat
  | 0, _ => []
  | n + 1, c => let r := isqrt (c * 2 ^ 128); r :: exp2Roots n r

/-- 2^f for f = F / 2^64, 0 ≤ f < 1, to 128 fraction bits: the product of 2^(2^−i) over the set bits of F. -/
def exp2Frac (f : Nat) : Nat :=
  ((exp2Roots 64 (2 ^ 129)).zip (List.range 64)).foldl (fun acc e => if f.testBit (63 - e.2) then acc * e.1 / 2 ^ 128 else acc) (2 ^ 128)

/-- EXP2. -/
def sfuExp2 (a : Nat) : Nat :=
  match fp32 a with
  | .nan => canonNan .fp32
  | .inf n => if n then 0 else infEnc .fp32 false
  | .fin n m e =>
    let x := Num.fin n m e
    if x.isZero then 0x3F800000
    else if Num.le (.fin false 128 0) x then infEnc .fp32 false
    else if x.lt (.fin true 149 0) then 0
    else
      let i := x.floorInt
      let fr := x.sub (Num.ofInt i)
      if fr.isZero then rne32 (.fin false 1 i)
      else
        let f64 := (fr.mul (.fin false 1 64)).floorInt.toNat
        sfuPick 0 a (encIeee .fp32 .tz (.fin false (exp2Frac f64) (i - 128)))

/-- The 60 fraction bits of log2 y for y = Y / 2^160 in [1, 2), by repeated squaring, rounded down. -/
def log2Frac : Nat → Nat → Nat → Nat
  | 0, _, acc => acc
  | n + 1, y, acc =>
    let y2 := y * y / 2 ^ 160
    if y2 ≥ 2 ^ 161 then log2Frac n (y2 / 2) (2 * acc + 1) else log2Frac n y2 (2 * acc)

/-- LOG2: the implementation's value where it is within one unit in the last place, or 2^−21, of the exact result; otherwise the exact
result rounded (log entry 5). -/
def sfuLog2 (a : Nat) : Nat :=
  match fp32 a with
  | .nan => canonNan .fp32
  | .inf n => if n then canonNan .fp32 else infEnc .fp32 false
  | .fin n m e =>
    if m = 0 then infEnc .fp32 true else if n then canonNan .fp32 else
    let k : Int := (m.log2 : Int) + e
    let y := m * 2 ^ 160 / 2 ^ m.log2
    let lo := (Num.ofInt k).add (.fin false (log2Frac 60 y 0) (-60))
    let hi := lo.add (.fin false 1 (-59))
    let r := fp32 (Config.sfu 1 a).toNat
    let ulp : Num := match lo with
      | .fin _ q f => if q = 0 then .fin false 1 (-21) else
        let u : Int := (q.log2 : Int) + f - 23
        .fin false 1 (max u (-21))
      | _ => .fin false 1 (-21)
    if r.isFin && Num.le (hi.sub ulp) r && r.le (lo.add ulp) then rne32 r else rne32 lo

/-- RCP. -/
def sfuRcp (a : Nat) : Nat :=
  match fp32 a with
  | .fin n m e =>
    if m = 0 then infEnc .fp32 n
    else if m = 2 ^ m.log2 then rne32 (Num.one.divSticky 64 (.fin n m e))
    else
      let q := Num.one.divSticky 64 (.fin n m e)
      if Num.le (.fin false 1 128) q.abs then infEnc .fp32 n else sfuPick 2 a (encIeee .fp32 .tz q)
  | x => rne32 (Num.one.divSticky 64 x)

/-- RSQ. -/
def sfuRsq (a : Nat) : Nat :=
  match fp32 a with
  | .nan => canonNan .fp32
  | .inf n => if n then canonNan .fp32 else 0
  | .fin n m e =>
    if m = 0 then infEnc .fp32 n else if n then canonNan .fp32 else
    let k : Int := (m.log2 : Int) + e
    if m = 2 ^ m.log2 ∧ k % 2 = 0 then rne32 (.fin false 1 (-(k / 2)))
    else sfuPick 3 a (encIeee .fp32 .tz (Num.one.divSticky 64 ((Num.fin n m e).sqrtSticky 64)))

/-- The special-function unit, by opcode (R119, R121). -/
def sfu (opc : Nat) (x : Num) : Num :=
  let a := rne32 x
  fp32 (match opc with | 0x10 => sfuExp2 a | 0x11 => sfuLog2 a | 0x12 => sfuRcp a | _ => sfuRsq a)

end Sys2Proof.Machine
end

