-- ==== Sys2Proof/Machine/Nib.lean ====
section
/-!
DEFINITION. The nib array: descriptors and their checks (R113, R114, R135), MAP programs (R118, R119), reductions (R122), row-softmax
(R123, R124), COMPRESS and EXPAND (R125, R126), MX blocks (R127, R128), ET-5 tile programs (R129 to R131), WAIT and POST (R106).
-/
namespace Sys2Proof.Machine

/-- A nib descriptor (R113). -/
structure NbD where
  op : Nat
  flags : Nat
  nin : Nat
  nout : Nat
  subop : Nat
  rsv : Bool
  streams : Nat
  prog : Nat
  progLen : Nat
  tag : Nat
  status : Nat
  count : Nat
  const : List Nat
  deriving DecidableEq, Repr

def parseNb (b : List Byte) : NbD :=
  { op := leAt b 0 1, flags := leAt b 1 1, nin := leAt b 2 1, nout := leAt b 3 1, subop := leAt b 4 1,
    rsv := !(zeroAt b 5 3 && zeroAt b 0x12 2), streams := leAt b 8 4, prog := leAt b 0xC 4, progLen := leAt b 0x10 2,
    tag := leAt b 0x14 4, status := leAt b 0x18 4, count := leAt b 0x1C 4,
    const := (List.range 8).map (fun i => leAt b (0x20 + 4 * i) 4) }

def NbD.axis (d : NbD) : Bool := d.flags.testBit 0
def NbD.sat (d : NbD) : Bool := d.flags.testBit 1
def NbD.rtz (d : NbD) : Bool := d.flags.testBit 2
def NbD.bf16 (d : NbD) : Bool := d.flags.testBit 3

/-- Allowed numbers of input and output streams: least and largest (R114). -/
def nbArity (op : Nat) : (Nat × Nat) × (Nat × Nat) :=
  match op with
  | 1 => ((1, 4), (1, 2)) | 2 => ((1, 1), (1, 1)) | 3 => ((1, 2), (1, 1)) | 4 => ((2, 2), (1, 1)) | 5 => ((2, 2), (1, 1))
  | 6 => ((1, 1), (2, 2)) | 7 => ((2, 2), (1, 1)) | _ => ((0, 0), (0, 0))

/-- A nib descriptor with what it names: stream descriptors, program words (32 bits for MAP, 64 for ET5), the ET-5 window. -/
structure NbX where
  d : NbD
  rawIn : List (List Byte)
  rawOut : List (List Byte)
  ins : List Strm
  outs : List Strm
  words : List Nat
  win : Nat
  deriving DecidableEq, Repr

/-- What the descriptor names, read from the inkwell: its outputs stand behind its NIN inputs. Streams beyond the operation's largest numbers are not
judged (log entry 194), and a program is read once, at the check (log entry 195). -/
def State.nbLoad (s : State) (t : Nat) (d : NbD) : NbX :=
  let ((_, hi), (_, ho)) := nbArity d.op
  let ni := min d.nin hi
  let no := min d.nout ho
  let ri := (List.range ni).map (fun i => s.inkRead t (d.streams + 32 * i) 32)
  let ro := (List.range no).map (fun i => s.inkRead t (d.streams + 32 * (d.nin + i)) 32)
  let words := if d.op = 1 then (List.range (min 32 d.progLen)).map (fun i => s.inkNat t (d.prog + 4 * i) 4)
    else if d.op = 8 then (List.range (min 4096 d.progLen)).map (fun i => s.inkNat t (d.prog + 8 * i) 8) else []
  { d, rawIn := ri, rawOut := ro, ins := ri.map parseStrm, outs := ro.map parseStrm, words,
    win := s.fget (TIL_NB_ET5_WINDOW_BASE t) * 0x20000 }

/-- Bytes of the status stream: one a row for SOFTMAX, four for COMPRESS and EXPAND (R124 to R126). -/
def NbX.statusLen (x : NbX) : Nat :=
  match x.ins with
  | i :: _ => i.c1 * i.c2 * (if x.d.op = 3 then 1 else 4)
  | [] => 0

def NbX.hasStatus (x : NbX) : Bool := (x.d.op == 3 || x.d.op == 4 || x.d.op == 5) && x.d.status != 0xFFFFFFFF

/-- Does the operation run a program? -/
def NbX.progOp (x : NbX) : Bool := x.d.op == 1 || x.d.op == 8

/-- Source registers that a MAP opcode uses; none for an unknown opcode (R119). -/
def mapArity (opc : Nat) : Option Nat :=
  match opc with
  | 0x01 | 0x02 | 0x03 | 0x05 | 0x06 | 0x0A | 0x0B => some 2
  | 0x04 | 0x0C => some 3
  | 0x07 | 0x08 | 0x09 | 0x0D | 0x10 | 0x11 | 0x12 | 0x13 => some 1
  | _ => none

/-- A MAP word that code 0x06 rejects. -/
def badWord (w : Nat) : Bool :=
  match mapArity (bitsAt w 24 8) with
  | none => true
  | some n => decide (bitsAt w 19 5 < 4) || decide (23 < bitsAt w 19 5) || w % 16 != 0 || (decide (n < 2) && bitsAt w 9 5 != 0) ||
      (decide (n < 3) && bitsAt w 4 5 != 0)

/-- An ET-5 instruction that code 0x0A rejects (R130). -/
def badEt5 (win w : Nat) : Bool :=
  let opc := bitsAt w 56 8
  let imm := w % 2 ^ 32
  if opc = 0x20 ∨ opc = 0x21 then
    imm % 128 != 0 || decide (imm + 4096 > saveBase) || overlaps (imm, imm + 4095) (win, win + 0x1FFFF)
  else !(decide (1 ≤ opc ∧ opc ≤ 9) || decide (0x10 ≤ opc ∧ opc ≤ 0x15) || opc == 0x3F)

/-- Formats of MX elements (R127). -/
def mxFmt (f : Fmt) : Bool :=
  match f with
  | .e5m2 | .e4m3 | .e3m2 | .e2m3 | .e2m1 | .int8 => true
  | _ => false

def Strm.shape (s : Strm) : Nat × Nat × Nat := (s.c0, s.c1, s.c2)

def NbX.bad01 (x : NbX) : Bool := decide (x.d.op > 10) || (x.d.op == 2 && decide (x.d.subop > 4))

def NbX.bad02 (x : NbX) : Bool :=
  (x.ins ++ x.outs).any Strm.bad02 ||
  (x.d.op != 6 && !x.d.sat && x.outs.any (fun o => satRequired o.format)) ||
  (x.d.op == 6 && (match x.outs with | [o, sc] => !mxFmt o.format || sc.fmt != 8 | _ => false)) ||
  (x.d.op == 7 && (match x.ins with | [i, sc] => !mxFmt i.format || sc.fmt != 8 | _ => false))

def NbX.bad03 (x : NbX) : Bool :=
  let ((li, hi), (lo, ho)) := nbArity x.d.op
  decide (x.d.nin < li ∨ hi < x.d.nin ∨ x.d.nout < lo ∨ ho < x.d.nout)

def NbX.bad04 (x : NbX) : Bool :=
  let n := x.ins.length + x.outs.length
  (x.ins ++ x.outs).any (Strm.bad04 true) ||
  (n != 0 && (x.d.streams % 32 != 0 || decide (x.d.streams + 32 * n > saveBase))) ||
  (x.progOp && (x.d.prog % 8 != 0 || decide (x.d.prog + x.d.progLen * (if x.d.op = 1 then 4 else 8) > saveBase))) ||
  (x.hasStatus && (x.d.status % 4 != 0 || decide (x.d.status + x.statusLen > saveBase)))

/-- A shape that does not match (R114, R127, R128). -/
def NbX.badShape (x : NbX) : Bool :=
  match x.d.op with
  | 1 | 3 | 4 | 5 => match x.ins with
    | i :: _ => (x.ins ++ x.outs).any (fun o => o.shape != i.shape)
    | [] => false
  | 2 => match x.ins, x.outs with
    | [i], [o] => o.c0 * o.c1 * o.c2 != (if x.d.axis then i.c0 * i.c2 else i.c1 * i.c2)
    | _, _ => false
  | 6 => match x.ins, x.outs with
    | [i], [o, sc] => o.shape != i.shape || sc.shape != (ceilDiv i.c0 32, i.c1, i.c2)
    | _, _ => false
  | 7 => match x.ins, x.outs with
    | [i, sc], [o] => o.shape != i.shape || sc.shape != (ceilDiv i.c0 32, i.c1, i.c2)
    | _, _ => false
  | _ => false

def NbX.bad05 (x : NbX) : Bool := x.ins.any (Strm.bad05 false) || x.outs.any (Strm.bad05 true) || x.badShape

def NbX.bad06 (x : NbX) : Bool :=
  match x.d.op with
  | 1 => decide (x.d.progLen < 1 ∨ 32 < x.d.progLen) || x.words.any badWord
  | 8 => decide (x.d.progLen < 1 ∨ 4096 < x.d.progLen)
  | _ => x.d.progLen != 0

/-- Output ranges: the output streams with their descriptors, and the status stream. -/
def NbX.outRanges (x : NbX) : List (List Byte × Range) :=
  (x.rawOut.zip (x.outs.map Strm.range)) ++
  (if x.hasStatus then [([], (x.d.status, x.d.status + x.statusLen - 1))] else [])

def NbX.bad07 (x : NbX) : Bool :=
  (x.rawIn.zip (x.ins.map Strm.range)).any (fun i => x.outRanges.any (fun o =>
    overlaps i.2 o.2 && !(x.d.op == 1 && i.1 == o.1)))

def NbX.bad08 (x : NbX) : Bool :=
  (x.ins ++ x.outs).any Strm.bad08 || x.d.rsv || decide (x.d.flags ≥ 16) || (!x.progOp && x.d.prog != 0) ||
  (x.d.op != 3 && x.d.op != 4 && x.d.op != 5 && x.d.status != 0xFFFFFFFF) ||
  (x.d.op != 2 && x.d.op != 9 && x.d.op != 10 && x.d.subop != 0) || (x.d.op != 9 && x.d.op != 10 && x.d.count != 0) ||
  (x.d.op == 8 && x.words.any (fun w => bitsAt w 32 4 != 0))

def NbX.bad09 (x : NbX) : Bool := (x.d.op == 9 || x.d.op == 10) && (decide (x.d.subop > 3) || x.d.subop == 1)

def NbX.bad0A (x : NbX) : Bool :=
  x.d.op == 8 && (x.d.tag != 0xFFFF || decide (x.win ≥ saveBase) || x.words.any (badEt5 x.win))

/-- The lowest failing code of R135; 0 when every check passes. -/
def NbX.check (x : NbX) : Nat :=
  if x.bad01 then 1 else if x.bad02 then 2 else if x.bad03 then 3 else if x.bad04 then 4 else if x.bad05 then 5
  else if x.bad06 then 6 else if x.bad07 then 7 else if x.bad08 then 8 else if x.bad09 then 9 else if x.bad0A then 10 else 0

-- Values ------------------------------------------------------------------------------------------------------------------------------

/-- The FP32 value of a stored element (R115). -/
def nibIn (f : Fmt) (q : Nat) : Num := fp32 (rne32 (decodeNum f q))

/-- The rows of an input stream as FP32 values. -/
def State.nibRows (s : State) (t : Nat) (x : Strm) : List (List Num) := (s.inkStream t x).map (fun r => r.map (nibIn x.format))

/-- True where a mask or predicate element is non-zero or NaN (R123, R125). -/
def Num.truth (x : Num) : Bool := !x.isZero

/-- IEEE 754-2019 minimum and maximum: NaN if either is NaN; −0 below +0 (R119). -/
def Num.minimum (a b : Num) : Num :=
  if a.isNan || b.isNan then .nan else if a.lt b then a else if b.lt a then b else if a.neg? then a else b
def Num.maximum (a b : Num) : Num :=
  if a.isNan || b.isNan then .nan else if a.lt b then b else if b.lt a then a else if a.neg? then b else a

/-- ⌊a⌋, specials unchanged; a zero keeps its sign (R119). -/
def Num.floor (a : Num) : Num :=
  match a with
  | .fin n m e => if m = 0 ∨ e ≥ 0 then a else
    let i := a.floorInt
    if i = 0 then .fin n 0 0 else Num.ofInt i
  | _ => a

/-- The value of a MAP word (R119), before rounding. -/
def mapAlu (opc : Nat) (a b c : Num) : Num :=
  match opc with
  | 0x01 => a.add b
  | 0x02 => a.sub b
  | 0x03 => a.mul b
  | 0x04 => (a.mul b).add c
  | 0x05 => a.minimum b
  | 0x06 => a.maximum b
  | 0x07 => a.abs
  | 0x08 => a.negate
  | 0x09 => a.floor
  | 0x0A => if a.lt b then .one else .zero
  | 0x0B => if a.eqv b then .one else .zero
  | 0x0C => if a.truth then b else c
  | 0x0D => a
  | _ => sfu opc a

/-- One rounding to FP32, or to BF16 under FLAGS.BF16 (R119). -/
def mapRound (bf16 : Bool) (x : Num) : Num := if bf16 then decodeNum .bf16 (encIeee .bf16 .ne x) else fp32 (rne32 x)

/-- One MAP word applied to the registers. -/
def mapWord (bf16 : Bool) (r : List Num) (w : Nat) : List Num :=
  let g := fun i => r.getD i Num.zero
  r.set (bitsAt w 19 5) (mapRound bf16 (mapAlu (bitsAt w 24 8) (g (bitsAt w 14 5)) (g (bitsAt w 9 5)) (g (bitsAt w 4 5))))

/-- A MAP program on one element: s4 and s5 after the last word (R118). -/
def mapElem (d : NbD) (words : List Nat) (ins : List Num) : List Num :=
  let regs := (List.range 24).map (fun i => ins.getD i Num.zero) ++ d.const.map fp32
  let r := words.foldl (mapWord d.bf16) regs
  [r.getD 4 .zero, r.getD 5 .zero]

/-- A sum of FP32 values, each addition rounded, from the first term on. -/
def addUp : List Num → Num
  | [] => .zero
  | x :: xs => xs.foldl (fun a y => fp32 (rne32 (a.add y))) x

/-- The segments of R122: g elements each. -/
def segments (g : Nat) : Nat → List Num → List (List Num)
  | 0, _ => []
  | _, [] => []
  | n + 1, xs => xs.take g :: segments g n (xs.drop g)

/-- The sum of n terms by the segment rule (R122). -/
def segSum (xs : List Num) : Num :=
  let g := ceilDiv xs.length 64
  addUp ((segments g 64 xs).map addUp)

/-- REDUCE of one group (R122). -/
def reduceGroup (kind : Nat) (xs : List Num) : Num :=
  match kind with
  | 0 => segSum xs
  | 1 => segSum (xs.map (fun x => fp32 (rne32 (x.mul x))))
  | k =>
    let ys := if k = 4 then xs.map Num.abs else xs
    match ys with
    | [] => .zero
    | y :: r => r.foldl (if k = 3 then Num.minimum else Num.maximum) y

/-- The groups of a REDUCE in order: the rows, or the columns at fixed i0 and i2 (R122). -/
def reduceGroups (x : Strm) (axis : Bool) (rows : List (List Num)) : List (List Num) :=
  if axis then
    (List.range x.c2).flatMap (fun i2 => (List.range x.c0).map (fun i0 =>
      (List.range x.c1).map (fun i1 => (rows.getD (i2 * x.c1 + i1) []).getD i0 .zero)))
  else rows

/-- log2 e as FP32 (R123). -/
def log2e : Num := fp32 0x3FB8AA3B

/-- One row of SOFTMAX: the values and the status byte (R123, R124). -/
def softmaxRow (c : Num) (x : List Num) (mask : Option (List Num)) : List Num × Nat :=
  let z := (List.range x.length).map (fun i =>
    let on := match mask with | some m => (m.getD i .zero).truth | none => true
    if on then fp32 (rne32 ((x.getD i .zero).mul c)) else .inf true)
  let k := (z.filter (· == .inf false)).length
  if z.any Num.isNan then (z.map (fun _ => .nan), 4)
  else if k ≥ 1 then
    let q := fp32 (rne32 (Num.one.divSticky 40 (Num.ofInt k)))
    (z.map (fun v => if v == .inf false then q else .zero), 2)
  else if z.all (· == .inf true) then (z.map (fun _ => .zero), 1)
  else
    let m := z.foldl (fun a b => if a.lt b then b else a) (.inf true)
    let e := z.map (fun v => sfu 0x10 (fp32 (rne32 ((fp32 (rne32 (v.sub m))).mul log2e))))
    let r := sfu 0x12 (segSum e)
    (e.map (fun v => fp32 (rne32 (v.mul r))), 0)

/-- COMPRESS of one row (R125): the kept elements, in order. -/
def compressRow (x p : List Num) : List Num := ((x.zip p).filter (fun e => e.2.truth)).map (·.1)

/-- EXPAND of one row (R126). -/
def expandRow (fill : Num) : List Num → List Num → List Num × Nat
  | _, [] => ([], 0)
  | x, b :: p =>
    if b.truth then let (r, n) := expandRow fill x.tail p; (x.headD .zero :: r, n + 1)
    else let (r, n) := expandRow fill x p; (fill :: r, n)

/-- emax of an MX element format (R127). -/
def mxEmax (f : Fmt) : Int :=
  match f with
  | .e5m2 => 15 | .e4m3 => 8 | .e3m2 => 4 | .e2m3 => 2 | .e2m1 => 2 | _ => 0

/-- ⌊log2 x⌋ of a non-zero finite magnitude. -/
def Num.floorLog2 : Num → Int
  | .fin _ m e => (m.log2 : Int) + e
  | _ => 0

/-- Cuts a list into blocks of n. -/
def blocks {α : Type} (n : Nat) : Nat → List α → List (List α)
  | 0, _ => []
  | _, [] => []
  | k + 1, xs => xs.take n :: blocks n k (xs.drop n)

/-- One MX block (R127): the scale byte and, for each element, the value for the watch, the stored bits and what the watch counts. -/
def mxBlock (f : Fmt) (rtz : Bool) (xs : List Num) : Nat × List (Num × Nat × Conv) :=
  if xs.any (fun x => !x.isFin) then (0xFF, xs.map (fun x => (x, 0, Conv.normal)))
  else
    let amax := xs.foldl (fun (a x : Num) => if a.lt x.abs then x.abs else a) .zero
    let e : Int := if amax.isZero then 0 else max (-127) (min 127 (amax.floorLog2 - mxEmax f))
    let sh : Int := (if f == .int8 then 6 else 0) - e
    ((e + 127).toNat, xs.map (fun x =>
      let v := fp32 (rne32 (x.mul (.fin false 1 sh)))
      let c := nibConv f true rtz v
      (v, c.1, c.2)))

-- ET-5 programs -------------------------------------------------------------------------------------------------------------------------

/-- An ET-5 register as 32 rows of 32 FP32 words (R129). -/
def State.et5Reg (s : State) (t win n : Nat) : List Nat :=
  let b := s.inkRead t (win + n * 0x1000) 4096
  (List.range 1024).map (fun i => leAt b (4 * i) 4)

/-- An ET-5 operand: a subnormal reads as zero with its sign (R131). -/
def et5In (v : Nat) : Num := fp32 (flush32 v)

/-- An ET-5 result: rounded, a subnormal flushed, NaN as 0x7FFF_FFFF (R131). -/
def et5Out32 (x : Num) : Nat := if x.isNan then 0x7FFFFFFF else flush32 (rne32 x)

/-- Combination in increasing index from the first element, each step rounded and flushed (R131). -/
def et5Fold (f : Num → Num → Num) : List Num → Nat
  | [] => 0
  | x :: xs => et5Out32 (xs.foldl (fun a y => fp32 (et5Out32 (f a y))) x)

/-- The words of tD after an arithmetic instruction (R130); the sources' words are given. -/
def et5Alu (opc : Nat) (a b c : List Nat) : List Nat :=
  let v := fun (l : List Nat) i => et5In (l.getD i 0)
  let ew := fun (f : Nat → Num) => (List.range 1024).map (fun i => et5Out32 (f i))
  let row := fun i => (List.range 32).map (fun j => v a (32 * i + j))
  let col := fun j => (List.range 32).map (fun i => v a (32 * i + j))
  let toCol0 := fun (f : List Num → Nat) => (List.range 1024).map (fun i => if i % 32 = 0 then f (row (i / 32)) else 0)
  let toRow0 := fun (f : List Num → Nat) => (List.range 1024).map (fun i => if i < 32 then f (col i) else 0)
  match opc with
  | 0x01 => ew (fun i => (v a i).add (v b i))
  | 0x02 => ew (fun i => (v a i).sub (v b i))
  | 0x03 => ew (fun i => (v a i).mul (v b i))
  | 0x04 => ew (fun i => ((v a i).mul (v b i)).add (v c i))
  | 0x05 => ew (fun i => (v a i).maximum (v b i))
  | 0x06 => ew (fun i => (v a i).minimum (v b i))
  | 0x07 => ew (fun i => sfu 0x10 (v a i))
  | 0x08 => ew (fun i => sfu 0x12 (v a i))
  | 0x09 => ew (fun i => sfu 0x13 (v a i))
  | 0x10 => toCol0 (et5Fold Num.add)
  | 0x11 => toRow0 (et5Fold Num.add)
  | 0x12 => toCol0 (et5Fold Num.maximum)
  | 0x13 => toRow0 (et5Fold Num.maximum)
  | 0x14 => (List.range 1024).map (fun i => a.getD (i / 32 * 32) 0)
  | _ => (List.range 1024).map (fun i => a.getD (i % 32) 0)

/-- One ET-5 instruction (R130). -/
def State.et5Step (s : State) (t win w : Nat) : State :=
  let opc := bitsAt w 56 8
  let reg := fun n => win + n * 0x1000
  let d := reg (bitsAt w 51 5)
  if opc = 0x20 then s.inkWrite t d (s.inkRead t (w % 2 ^ 32) 4096)
  else if opc = 0x21 then s.inkWrite t (w % 2 ^ 32) (s.inkRead t (reg (bitsAt w 46 5)) 4096)
  else
    s.inkWrite t d ((et5Alu opc (s.et5Reg t win (bitsAt w 46 5)) (s.et5Reg t win (bitsAt w 41 5))
      (s.et5Reg t win (bitsAt w 36 5))).flatMap (leBytes 4))

/-- The instructions in order, up to END (R130). -/
def State.et5Run (t win : Nat) : State → List Nat → State
  | s, [] => s
  | s, w :: ws => if bitsAt w 56 8 = 0x3F then s else State.et5Run t win (s.et5Step t win w) ws

-- Execution ---------------------------------------------------------------------------------------------------------------------------

/-- What the nib ring of tile `t` does with the descriptor at HEAD when its OP is `op` (R105, R135): a descriptor that fails a check halts
the ring. While a sampled descriptor is recomputed on the nibs, the task's own nib work waits (R98), and with it every access to a locked range (R73). -/
def State.nbRun (s : State) (t op : Nat) (go : State → NbX → State) : State :=
  if !s.canFetch t .nb then s
  else if (s.tile t).shadow.isSome then s
  else if s.slotOut t .nb then s.ringFault t .nb 4
  else
    let d := parseNb (s.inkRead t (s.slotAddr t .nb) 64)
    if d.op ≤ 10 ∧ d.op ≠ op then s
    else
      let x := s.nbLoad t d
      let code := s.leastCode t .nb x.check
      if code ≠ 0 then s.ringFault t .nb code else go s x

/-- Rows converted for an output stream (R116), and the watch's counts (R117). -/
def convRows (f : Fmt) (d : NbD) (rows : List (List Num)) (m : Summary) : List (List Nat) × Summary :=
  let c := rows.map (fun r => r.map (fun x => (x, nibConv f d.sat d.rtz x)))
  (c.map (fun r => r.map (fun e => e.2.1)), c.foldl (fun m r => r.foldl (fun m e => m.count e.1 e.2.2) m) m)

/-- An empty summary for output 0 of a descriptor. -/
def State.nbSummary (s : State) (t fmt : Nat) : Summary := { Summary.init fmt with rerun := s.isRerun t, mb := s.mbOf t }

/-- The end of a descriptor with outputs: elements and status are written, the summary sent, the descriptor completes. -/
def State.nbFinish (s : State) (t : Nat) (x : NbX) (outs : List (List (List Nat))) (status : List Byte) (m : Summary) : State :=
  let s := (x.outs.zip outs).foldl (fun s e => s.inkStreamPut t e.1 e.2) s
  let s := if x.hasStatus then s.inkWrite t x.d.status status else s
  (s.tileSummary t x.d.tag m).ringDone t .nb

/-- Output rows of one shape: converted and written. -/
def State.nbWrite (s : State) (t : Nat) (x : NbX) (rows : List (List Num)) (status : List Byte) : State :=
  match x.outs with
  | o :: _ => let (q, m) := convRows o.format x.d rows (s.nbSummary t o.fmt); s.nbFinish t x [q] status m
  | [] => s

/-- A flat list of results as the rows of a stream. -/
def asRows (o : Strm) (xs : List Num) : List (List Num) := blocks o.c0 (o.c1 * o.c2) xs

def State.nbNop (t : Nat) (s : State) (_ : NbX) : State := s.ringDone t .nb

/-- MAP (R118, R119). -/
def State.nbMap (t : Nat) (s : State) (x : NbX) : State :=
  let ins := x.ins.map (s.nibRows t)
  match x.ins with
  | [] => s
  | i :: _ =>
    let rows := (List.range (i.c1 * i.c2)).map (fun r => (List.range i.c0).map (fun k =>
      mapElem x.d x.words (ins.map (fun v => (v.getD r []).getD k .zero))))
    let out := fun n => rows.map (fun r => r.map (fun e => e.getD n .zero))
    match x.outs with
    | [o] => let (q, m) := convRows o.format x.d (out 0) (s.nbSummary t o.fmt); s.nbFinish t x [q] [] m
    | [o, o1] =>
      let (q, m) := convRows o.format x.d (out 0) (s.nbSummary t o.fmt)
      s.nbFinish t x [q, (convRows o1.format x.d (out 1) m).1] [] m
    | _ => s

/-- REDUCE (R122). -/
def State.nbReduce (t : Nat) (s : State) (x : NbX) : State :=
  match x.ins, x.outs with
  | [i], [o] => s.nbWrite t x (asRows o ((reduceGroups i x.d.axis (s.nibRows t i)).map (reduceGroup x.d.subop))) []
  | _, _ => s

/-- SOFTMAX (R123, R124). -/
def State.nbSoftmax (t : Nat) (s : State) (x : NbX) : State :=
  match x.ins with
  | i :: rest =>
    let mask := rest.head?.map (s.nibRows t)
    let c := fp32 (x.d.const.getD 0 0)
    let rows := s.nibRows t i
    let r := (List.range rows.length).map (fun k => softmaxRow c (rows.getD k []) (mask.map (fun m => m.getD k [])))
    s.nbWrite t x (r.map (·.1)) (r.map (fun e => byteOf e.2))
  | [] => s

/-- COMPRESS (R125): output positions beyond the last one written keep their contents. -/
def State.nbCompress (t : Nat) (s : State) (x : NbX) : State :=
  match x.ins, x.outs with
  | [i, p], [o] =>
    let kept := ((s.nibRows t i).zip (s.nibRows t p)).map (fun e => compressRow e.1 e.2)
    let (q, m) := convRows o.format x.d kept (s.nbSummary t o.fmt)
    s.nbFinish t x [q] (kept.flatMap (fun r => leBytes 4 r.length)) m
  | _, _ => s

/-- EXPAND (R126). -/
def State.nbExpand (t : Nat) (s : State) (x : NbX) : State :=
  match x.ins with
  | [i, p] =>
    let r := ((s.nibRows t i).zip (s.nibRows t p)).map (fun e => expandRow (fp32 (x.d.const.getD 0 0)) e.1 e.2)
    s.nbWrite t x (r.map (·.1)) (r.flatMap (fun e => leBytes 4 e.2))
  | _ => s

/-- MXPACK (R127). -/
def State.nbMxpack (t : Nat) (s : State) (x : NbX) : State :=
  match x.ins, x.outs with
  | [i], [o, _] =>
    let b := (s.nibRows t i).map (fun r => (blocks 32 (ceilDiv i.c0 32) r).map (mxBlock o.format x.d.rtz))
    let m := b.foldl (fun m r => r.foldl (fun m e => e.2.foldl (fun m v => m.count v.1 v.2.2) m) m) (s.nbSummary t o.fmt)
    s.nbFinish t x [b.map (fun r => r.flatMap (fun e => e.2.map (fun v => v.2.1))), b.map (fun r => r.map (·.1))] [] m
  | _, _ => s

/-- MXUNPACK (R128). -/
def State.nbMxunpack (t : Nat) (s : State) (x : NbX) : State :=
  match x.ins with
  | [i, sc] =>
    let rows := ((s.inkStream t i).zip (s.inkStream t sc)).map (fun e =>
      (List.range e.1.length).map (fun k => fp32 (rne32 (mxValue 2 i.format (e.1.getD k 0) (e.2.getD (k / 32) 0)))))
    s.nbWrite t x rows []
  | _ => s

/-- ET5 (R129 to R131). -/
def State.nbEt5 (t : Nat) (s : State) (x : NbX) : State := (State.et5Run t x.win s x.words).ringDone t .nb

/-- Is the awaited DONE count reached (R106)? -/
def State.waitMet (s : State) (t unit count : Nat) : Bool :=
  match TU.ofCode unit with
  | some u => decide (ahead 32 (s.fget (u.doneF t)) count < 2 ^ 31)
  | none => false

/-- WAIT (R106): it completes at once, or the ring stalls. -/
def State.nbWaitGo (t : Nat) (s : State) (x : NbX) : State :=
  if s.waitMet t x.d.subop x.d.count then s.ringDone t .nb
  else ((s.setTile t { s.tile t with nbWait := some (x.d.subop, x.d.count) }).fset (TIL_NB_STATUS_WAITING t) 1).fset
    (TIL_NB_STATUS_BUSY t) 1

/-- The awaited count is reached and the WAIT completes (R106); one that a spill has stopped stays waiting (R134). -/
def State.nbWaitMet (s : State) (t : Nat) : State :=
  match (s.tile t).nbWait with
  | some (u, c) =>
    if !s.paused t && s.waitMet t u c then
      (((s.setTile t { s.tile t with nbWait := none }).fset (TIL_NB_STATUS_WAITING t) 0).fset (TIL_NB_STATUS_BUSY t) 0).ringDone t .nb
    else s
  | none => s

/-- POST (R106): COUNT goes into the unit's TAIL, modulo its index range. -/
def State.nbPost (t : Nat) (s : State) (x : NbX) : State :=
  match TU.ofCode x.d.subop with
  | some u => (s.ringTail t u (x.d.count % 2 ^ u.ixBits)).ringDone t .nb
  | none => s

def execNibNop (t : Nat) (s : State) : Host.Outcome State Fault Refusal := onUnit (t < 152) (s.nbRun t 0 (State.nbNop t))
def execNibMap (t : Nat) (s : State) : Host.Outcome State Fault Refusal := onUnit (t < 152) (s.nbRun t 1 (State.nbMap t))
def execNibReduce (t : Nat) (s : State) : Host.Outcome State Fault Refusal := onUnit (t < 152) (s.nbRun t 2 (State.nbReduce t))
def execNibSoftmax (t : Nat) (s : State) : Host.Outcome State Fault Refusal := onUnit (t < 152) (s.nbRun t 3 (State.nbSoftmax t))
def execNibCompress (t : Nat) (s : State) : Host.Outcome State Fault Refusal := onUnit (t < 152) (s.nbRun t 4 (State.nbCompress t))
def execNibExpand (t : Nat) (s : State) : Host.Outcome State Fault Refusal := onUnit (t < 152) (s.nbRun t 5 (State.nbExpand t))
def execNibMxpack (t : Nat) (s : State) : Host.Outcome State Fault Refusal := onUnit (t < 152) (s.nbRun t 6 (State.nbMxpack t))
def execNibMxunpack (t : Nat) (s : State) : Host.Outcome State Fault Refusal := onUnit (t < 152) (s.nbRun t 7 (State.nbMxunpack t))
def execNibEt5 (t : Nat) (s : State) : Host.Outcome State Fault Refusal := onUnit (t < 152) (s.nbRun t 8 (State.nbEt5 t))
def execNibWait (t : Nat) (s : State) : Host.Outcome State Fault Refusal := onUnit (t < 152) (s.nbRun t 9 (State.nbWaitGo t))
def execNibWaitMet (t : Nat) (s : State) : Host.Outcome State Fault Refusal := onUnit (t < 152) (s.nbWaitMet t)
def execNibPost (t : Nat) (s : State) : Host.Outcome State Fault Refusal := onUnit (t < 152) (s.nbRun t 10 (State.nbPost t))

end Sys2Proof.Machine
end

