-- ==== Sys2Proof/Machine/Mover.lean ====
section
/-!
DEFINITION. The stream movers: descriptors and their checks (R112, R135), copies between partition memory and the inkwell with their
isolation checks (R56) and line errors (R274 to R276), and WAIT (R106).
-/
namespace Sys2Proof.Machine

/-- A mover descriptor (R112). -/
structure SmD where
  op : Nat
  unit : Nat
  count : Nat
  rsv : Bool
  src : Strm
  dst : Strm
  deriving DecidableEq, Repr

def parseSm (b : List Byte) : SmD :=
  { op := leAt b 0 1, unit := leAt b 1 1, count := leAt b 4 4, rsv := !(zeroAt b 2 2 && zeroAt b 8 24 && zeroAt b 0x60 32),
    src := parseStrm (bytesAt b 0x20 32), dst := parseStrm (bytesAt b 0x40 32) }

/-- The lowest failing code of R135 for a descriptor of mover `n`; 0 when every check passes. Only COPY uses the streams. -/
def SmD.check (d : SmD) (n : Nat) : Nat :=
  let copy := d.op == 1
  if d.op > 2 then 1
  else if copy && (d.src.bad02 || d.dst.bad02) then 2
  else if copy && (d.src.bad04 false || d.dst.bad04 false) then 4
  else if copy && (d.src.bad05 false || d.dst.bad05 true || d.src.shape != d.dst.shape) then 5
  else if d.rsv || (d.op != 2 && d.unit != 0) || (copy && (d.src.bad08 || d.dst.bad08)) then 8
  else if d.op == 2 && (decide (d.unit > 3) || d.unit == 2 + n) then 9
  else if copy && (d.src.fmt != d.dst.fmt || (d.src.space == 0) == (d.dst.space == 0)) then 12
  else 0

/-- A memory-side address as a PMS address. -/
def memAddr (a : Int) : Nat := ofSigned 64 a

/-- How the movers use the cache (R272): NOALLOC reads in place. -/
def Strm.req (x : Strm) : MReq := if x.flags.testBit 1 then .inPlace else .alloc

/-- The lines that a memory stream reads, in the order of its reads: the 512-byte pieces of its runs. -/
def Strm.pieces (x : Strm) : List (Nat × Nat) := x.rows.flatMap (fun r => (x.runs r).flatMap (fun e => linePieces (memAddr e.1) e.2))

/-- A prefetch read (R272, R273): a line inside the partition's ranges and resident is read and becomes the most recently used; any other is
dropped, and poison raises nothing. -/
def State.prefetchLine (p : Nat) (s : State) (a : Nat) : State :=
  match s.loc p a with
  | .mem _ _ _ => (State.readPiece p .alloc true (s, MRes.empty) (a, 1)).1
  | _ => s

/-- How far a prefetcher reads ahead of its stream, in lines (R112; log entry 154). -/
def aheadLines : Nat := 32

/-- The prefetcher's reads before the stream reads `n` more pieces: the lines up to 32 past them. `q` holds the lines of the stream not read ahead
yet and how many are ahead. -/
def State.prefetch (s : State) (p n : Nat) (q : List Nat × Nat) : State × (List Nat × Nat) :=
  let k := n + aheadLines - q.2
  ((q.1.take k).foldl (State.prefetchLine p) s, (q.1.drop k, min (n + aheadLines) (q.2 + q.1.length) - n))

/-- The lines that the prefetcher of a stream will read: none without PREFETCH (R112). -/
def Strm.aheadOf (x : Strm) : List Nat := if x.flags.testBit 0 then x.pieces.map (·.1) else []

/-- The rows of a memory stream, with the state after its reads and those of its prefetcher, and what they met. -/
def State.memStream (s : State) (p : Nat) (x : Strm) : State × List (List Nat) × MRes :=
  let z := x.rows.foldl (fun (acc : State × (List Nat × Nat) × List (List Nat) × MRes) r =>
    let b := (x.runs r).foldl (fun (a : State × (List Nat × Nat) × List (List Byte) × MRes) e =>
      let (s, q) := a.1.prefetch p (linePieces (memAddr e.1) e.2).length a.2.1
      let (s, m) := s.memRead p (memAddr e.1) e.2 x.req
      (s, q, a.2.2.1 ++ [m.bytes], a.2.2.2.join m)) (acc.1, acc.2.1, [], acc.2.2.2)
    (b.1, b.2.1, acc.2.2.1 ++ [x.elems b.2.2.1], b.2.2.2)) (s, (x.aheadOf, 0), [], MRes.empty)
  (z.1, z.2.2)

/-- Writes rows to a memory stream. -/
def State.memStreamPut (s : State) (p : Nat) (x : Strm) (rows : List (List Nat)) : State × MRes :=
  ((x.rows.zip rows).flatMap (fun e => x.puts e.1 e.2)).foldl (fun (acc : State × MRes) w =>
    let (s, m) := acc.1.memWrite p (memAddr w.1) w.2 x.req
    (s, acc.2.join m)) (s, MRes.empty)

/-- The pages of a memory stream that are not resident. -/
def State.absentPages (s : State) (p : Nat) (x : Strm) : List Nat :=
  x.pieces.filterMap (fun pc => match s.loc p pc.1 with | .absent g => some g | _ => none)

/-- An access of tile `t` waits for pages (R204). -/
def State.demand (s : State) (p t : Nat) (pages : List Nat) : State :=
  let sp := s.sp p
  s.setSp p { sp with demand := pages.foldl (fun d g => if d.contains (t, g) then d else d ++ [(t, g)]) sp.demand }

/-- Has the task of tile `t` already read poison, so that it waits for its end (R193)? -/
def State.taskBad (s : State) (t : Nat) : Bool := match s.tileTask t with | some k => k.bad.isSome | none => false

/-- A read of the tile's task returned poison: the task will end POISONED (R193). -/
def State.taskPoison (s : State) (t a : Nat) : State :=
  s.onTileTask t (fun k => if k.bad.isNone then { k with bad := some a } else k)

/-- Does the mover's read of its own slot at HEAD meet the locked output of a sampled descriptor, so that it stalls (R73)? -/
def State.slotLocked (s : State) (t : Nat) (u : TU) : Bool :=
  (s.shadowLocks t).stall [(s.slotAddr t u, s.slotAddr t u + u.slot - 1)] []

/-- What mover `n` of tile `t` does with the descriptor at HEAD when its OP is `op` (R135). -/
def State.smRun (s : State) (t n op : Nat) (go : State → SmD → State) : State :=
  let u := TU.sm n
  if !s.canFetch t u then s
  else if s.slotOut t u then s.ringFault t u 4
  else if s.slotLocked t u then s
  else
    let d := parseSm (s.inkRead t (s.slotAddr t u) 128)
    if d.op ≤ 2 ∧ d.op ≠ op then s
    else
      let code := s.leastCode t u (d.check n)
      if code ≠ 0 then s.ringFault t u code else go s d

/-- COPY (R112). `errs` are the line errors that its reads meet: (line, kind) as in State.lineErr. It stalls on a locked range (R73) and on
pages that are not resident (R204), while its prefetcher reads on from the stream's start (R273); a read that returns poison writes nothing and ends the task (R193). -/
def State.smCopy (t n : Nat) (errs : List (Nat × Nat)) (s : State) (d : SmD) : State :=
  let u := TU.sm n
  let p := s.partOf t
  let l := s.shadowLocks t
  let m := if d.src.space = 1 then d.src else d.dst
  let pages := s.absentPages p m
  if (if d.src.space = 1 then l.stall [] [d.dst.range] else l.stall [d.src.range] []) then s
  else if s.taskBad t then s
  else if !pages.isEmpty then
    let ahead := if d.src.space = 1 then d.src.aheadOf.take aheadLines else []
    let s := (errs.filter (fun e => ahead.any (fun a => (s.toDpa p a).map (· / 512) == some e.1))).foldl (State.lineErr p) s
    (ahead.foldl (State.prefetchLine p) s).demand p t pages
  else if d.src.space = 1 then
    let s := errs.foldl (State.lineErr p) s
    let (s, rows, r) := s.memStream p d.src
    if r.ok then (s.inkStreamPut t d.dst rows).ringDone t u
    else (s.broke p t r).taskPoison t ((r.bad ++ r.out).headD 0)
  else
    let (s, r) := s.memStreamPut p d.dst (s.inkStream t d.src)
    let s := s.broke p t r
    if r.bad.isEmpty then s.ringDone t u else s.taskPoison t (r.bad.headD 0)

def State.smNop (t n : Nat) (s : State) (_ : SmD) : State := s.ringDone t (.sm n)

/-- WAIT (R106). -/
def State.smWaitGo (t n : Nat) (s : State) (d : SmD) : State :=
  if s.waitMet t d.unit d.count then s.ringDone t (.sm n)
  else s.setTile t { s.tile t with smWait := mins (s.tile t).smWait n (d.unit, d.count) }

/-- The awaited count is reached (R106). -/
def State.smWaitMet (s : State) (t n : Nat) : State :=
  match mfind (s.tile t).smWait n with
  | some (u, c) =>
    if !s.paused t && s.waitMet t u c then (s.setTile t { s.tile t with smWait := mdel (s.tile t).smWait n }).ringDone t (.sm n) else s
  | none => s

/-- Mover operands: a tile and a mover of it. -/
def moverOk (t n : Nat) : Bool := decide (t < 152) && decide (n < 2)

def execMoverNop (t n : Nat) (s : State) : Host.Outcome State Fault Refusal := onUnit (moverOk t n) (s.smRun t n 0 (State.smNop t n))
def execMoverCopy (t n : Nat) (errs : List (Nat × Nat)) (s : State) : Host.Outcome State Fault Refusal :=
  onUnit (moverOk t n) (s.smRun t n 1 (State.smCopy t n errs))
def execMoverWait (t n : Nat) (s : State) : Host.Outcome State Fault Refusal :=
  onUnit (moverOk t n) (s.smRun t n 2 (State.smWaitGo t n))
def execMoverWaitMet (t n : Nat) (s : State) : Host.Outcome State Fault Refusal := onUnit (moverOk t n) (s.smWaitMet t n)

end Sys2Proof.Machine
end

