-- ==== Sys2Proof/Machine/Blotter.lean ====
section
/-!
DEFINITION. The blotter engine of each tile: region descriptors (R143), the six operations (R144 to R149, R155, R156), their checks
(R157), and their order (R144, R145).
-/
namespace Sys2Proof.Machine

/-- A region descriptor (R143). -/
structure RegD where
  tensor : Nat
  id : Nat
  rows : Nat
  cols : Nat
  gfmt : Nat
  flags : Nat
  foldCount : Nat
  vbase : Nat
  backing : Nat
  dst : Nat
  fold : List Nat
  rsv : Bool
  deriving DecidableEq, Repr

def parseReg (b : List Byte) : RegD :=
  { tensor := leAt b 0 4, id := leAt b 4 2, rows := leAt b 6 2, cols := leAt b 8 1, gfmt := leAt b 9 1, flags := leAt b 0xA 1,
    foldCount := leAt b 0xB 1, vbase := leAt b 0xC 2, backing := leAt b 0x10 8, dst := leAt b 0x18 8,
    fold := (List.range 12).map (fun i => leAt b (0x20 + 2 * i) 2), rsv := !(zeroAt b 0xE 2 && zeroAt b 0x38 8) }

def RegD.source (d : RegD) : Bool := d.flags.testBit 0
def RegD.nblocks (d : RegD) : Nat := ceilDiv d.rows 32
/-- Bytes of BACKING and of DRAIN_DST. -/
def RegD.backLen (d : RegD) : Nat := d.nblocks * 0x6000
def RegD.dstLen (d : RegD) : Nat := ceilDiv d.rows 2 * 512

/-- Region `r`'s descriptor in the table of partition `p` (R210). -/
def State.regDesc (s : State) (p r : Nat) : Option RegD :=
  (s.memGet p (s.fget (SCH_REGION_BASE_BASE p) * 64 + 64 * r) 64).map parseReg

/-- Code 0x01: a field of R143 out of range or misaligned, or reserved. -/
def RegD.bad01 (d : RegD) (r : Nat) : Bool :=
  d.id != r || r == 0xFFFF || decide (d.rows < 1 ∨ 2688 < d.rows ∨ d.cols < 1 ∨ 128 < d.cols) || (d.gfmt != 1 && d.gfmt != 2) ||
  decide (d.flags > 1) || decide (d.foldCount > 12) || (d.source && d.foldCount != 0) || d.vbase % 32 != 0 || d.rsv ||
  d.backing % 512 != 0 || d.dst % 512 != 0 || (d.fold.drop d.foldCount).any (· != 0xFFFF)

/-- A region on tile `t`, if the tile knows it. -/
def State.region (s : State) (t r : Nat) : Option Region := mfind (s.tile t).regions r

/-- Free physical blocks of a tile, lowest first (log entry 11). -/
def State.freeBlocks (s : State) (t : Nat) : List Nat :=
  let used := (s.tile t).regions.flatMap (fun e => e.2.blocks)
  (List.range 84).filter (fun b => !used.contains b)

/-- The region slots follow the regions they name. -/
def State.blSlots (s : State) (t : Nat) : State :=
  (List.range 8).foldl (fun s n =>
    let r := s.fget (TIL_BL_SLOT_REGION_ID t n)
    if r = 0xFFFF then s else
    match s.region t r with
    | some g => (s.fset (TIL_BL_SLOT_STATE t n) g.state).fset (TIL_BL_SLOT_TENSOR_ID t n) g.tensor
    | none => (s.fset (TIL_BL_SLOT_STATE t n) 0).fset (TIL_BL_SLOT_TENSOR_ID t n) 0) s

def State.setRegion (s : State) (t r : Nat) (g : Region) : State :=
  let x := s.tile t
  (s.setTile t { x with regions := mins x.regions r g }).blSlots t

/-- The view map entry of view block `v`. -/
def blMap (t v : Nat) : Fld := TIL_BL_MAP_V t (v / 4) (v % 4)

/-- The region's view blocks are mapped to its physical blocks (R142). -/
def State.blShow (s : State) (t : Nat) (g : Region) : State :=
  ((List.range g.blocks.length).zip g.blocks).foldl (fun s e => s.fset (blMap t (g.vb + e.1)) (128 + e.2)) s

/-- The region's blocks are freed and its view blocks unmapped; it takes state `st`. A SPILLED region stays one whose FILL or FOLD has stopped
(R157). -/
def State.blRelease (s : State) (t r st : Nat) : State :=
  match s.region t r with
  | none => s
  | some g =>
    let s := (List.range 84).foldl (fun s v =>
      if g.blocks.any (fun b => s.fget (blMap t v) == 128 + b) then s.fset (blMap t v) 0 else s) s
    s.setRegion t r { g with state := st, blocks := [], stopped := st == 2 && g.stopped }

/-- Zeroes physical block `b` (every element +0). -/
def State.blZero (s : State) (t b : Nat) : State := { s with blot := s.blot.filter (fun e => e.1 / 4096 != t * 84 + b) }

/-- The step in which a region is opened and used: the sequencer's. -/
def State.blStep (s : State) (p : Nat) : Nat := s.fget (SCH_SQ_STEP_STEP p)

/-- Free blocks are given to the region, zeroed and mapped (OPEN, R144); blocks that it still holds from an earlier step are freed first (R152). -/
def State.blAlloc (s : State) (p t r : Nat) (d : RegD) : State :=
  let s := s.blRelease t r 0
  let bs := (s.freeBlocks t).take d.nblocks
  let g : Region := { tensor := d.tensor, state := 1, vb := d.vbase / 32, blocks := bs, stopped := false, step := s.blStep p }
  ((bs.foldl (fun s b => s.blZero t b) s).setRegion t r g).blShow t g

/-- A block's elements, row-major, as they lie in BACKING (R62, R144). -/
def State.blBytes (s : State) (t b : Nat) : List Byte :=
  (List.range 4096).flatMap (fun i => leBytes 6 (mget 0 s.blot ((t * 84 + b) * 4096 + i)))

/-- A block filled from bytes. -/
def State.blFill (s : State) (t b : Nat) (bs : List Byte) : State :=
  let s := s.blZero t b
  { s with blot := (List.range 4096).foldl (fun m i => mset 0 m ((t * 84 + b) * 4096 + i) (leAt bs (6 * i) 6)) s.blot }

/-- The elements of a region that are not +0, by row × 128 + column. -/
def State.regElems (s : State) (t : Nat) (g : Region) : NMap Nat :=
  ((List.range g.blocks.length).zip g.blocks).flatMap (fun e =>
    (s.blot.filter (fun x => x.1 / 4096 == t * 84 + e.2)).map (fun x => (e.1 * 4096 + x.1 % 4096, x.2)))

/-- The key of element `i` (row × 128 + column) of a region. -/
def Region.key (g : Region) (t i : Nat) : Nat := (t * 84 + g.blocks.getD (i / 4096) 0) * 4096 + i % 4096

/-- An element of BACKING bytes that is not +0. -/
def backElems (base : Nat) (bs : List Byte) : NMap Nat :=
  (List.range (bs.length / 6)).filterMap (fun i => let v := leAt bs (6 * i) 6; if v = 0 then none else some (base + i, v))

/-- The next block of a region's BACKING: elements and blocks read so far, and whether a block could not be read. -/
def State.backBlock (p : Nat) (d : RegD) (a : State × NMap Nat × Nat × Bool) (i : Nat) : State × NMap Nat × Nat × Bool :=
  if a.2.2.2 then a else
  let r := a.1.memRead p (d.backing + i * 0x6000) 0x6000 .alloc
  (r.1, if r.2.ok then (a.2.1 ++ backElems (i * 4096) r.2.bytes, a.2.2.1 + 1, false) else (a.2.1, a.2.2.1, true))

/-- Blocks of BACKING read up to the first that holds a poisoned line: their elements, how many blocks, and whether poison was met. -/
def State.backRead (s : State) (p : Nat) (d : RegD) : State × NMap Nat × Nat × Bool :=
  (List.range d.nblocks).foldl (State.backBlock p d) (s, [], 0, false)

/-- Adds a source's elements into a region: rne48 of each sum; −0 + +0 is +0 (R146 step 3). -/
def State.foldInto (s : State) (t : Nat) (g : Region) (src : NMap Nat) : State :=
  let keys := ((s.regElems t g).map (·.1)).foldl sins (src.map (·.1))
  { s with blot := keys.foldl (fun m i =>
      mupd 0 m (g.key t i) (fun e => rne48 ((acc48 e).add (acc48 (mget 0 src i))))) s.blot }

/-- Is a region open: resident or SPILLED? -/
def Region.isOpen (g : Region) : Bool := g.state == 1 || g.state == 2

/-- The tile of partition `p` that holds region `r`, resident or SPILLED. -/
def State.regionTile (s : State) (p r : Nat) : Option Nat :=
  (s.partTiles p).find? (fun t => match s.region t r with | some g => g.isOpen | none => false)

/-- The regions that a task running on tile `t` names (R145). -/
def State.runRegions (s : State) (t : Nat) : List Nat :=
  match s.tileTask t with
  | some k => (match k.st with | .launching => if k.started.contains t then k.d.regions else [] | _ => k.d.regions)
  | none => []

/-- Is a task that names region `r` running on tile `t` (R145)? -/
def State.regionBusy (s : State) (t r : Nat) : Bool := (s.runRegions t).contains r

/-- Regions that a spilled tile's control record holds (resident or SPILLED). -/
def State.savedRegion (s : State) (p r : Nat) : Bool :=
  (s.sp p).tasks.any (fun e => e.2.saved.any (fun w => match mfind w.2.x.regions r with | some g => g.isOpen | none => false))

/-- The regions that the tile's task names, when it is being launched (R152, R157). -/
def State.namedRegions (s : State) (t : Nat) : List Nat :=
  match s.tileTask t with
  | some k => (match k.st with | .launching => if k.started.contains t then [] else k.d.regions | _ => [])
  | none => []

/-- Do two regions share a view block? -/
def viewClash (v1 n1 v2 n2 : Nat) : Bool := decide (v1 < v2 + n2) && decide (v2 < v1 + n1)

/-- Code 0x02: the view's end; the regions named by the task being launched, `r` among them, overlap in the view or need more than 84 blocks. -/
def State.regBad02 (s : State) (p t r : Nat) (d : RegD) : Bool :=
  let named := s.namedRegions t
  let ds := named.filterMap (fun q => (s.regDesc p q).map (fun e => (q, e)))
  decide (d.vbase + d.rows > 2688) ||
  (named.contains r && (decide ((ds.map (fun e => e.2.nblocks)).sum > 84) ||
    ds.any (fun e => e.1 != r && viewClash (e.2.vbase / 32) e.2.nblocks (d.vbase / 32) d.nblocks)))

/-- The descriptors of the fold sources of `d`, by region. -/
def State.foldSources (s : State) (p : Nat) (d : RegD) : List (Nat × Option RegD) :=
  (d.fold.take d.foldCount).map (fun q => (q, s.regDesc p q))

/-- Code 0x03: a fold source is absent, is not FOLD_SOURCE, or differs (R149). -/
def State.regBad03 (s : State) (p : Nat) (d : RegD) : Bool :=
  (s.foldSources p d).any (fun e =>
    match e.2, s.regionTile p e.1 with
    | some x, some _ => !x.source || x.tensor != d.tensor || x.rows != d.rows || x.cols != d.cols
    | _, _ => true)

/-- Does BACKING or DRAIN_DST not lie wholly in the partition's memory space; the first that does not? -/
def State.regBad04 (s : State) (p : Nat) (d : RegD) : Option Nat :=
  if !s.inSpace p d.backing d.backLen then some d.backing else if !s.inSpace p d.dst d.dstLen then some d.dst else none

/-- The lowest failing code of R157 for operation `op` on region `r`, of its descriptor and, for FOLD, of its sources'; 0 when every check
passes. With code 0x04, the address. -/
def State.blCheck (s : State) (p t r op : Nat) : Nat × Nat :=
  match s.regDesc p r with
  | none => (1, 0)
  | some d =>
    let src := if op = 4 then (s.foldSources p d).filterMap (fun e => e.2.map (fun x => (e.1, x))) else []
    if d.bad01 r || src.any (fun e => e.2.bad01 e.1) then (1, 0)
    else if s.regBad02 p t r d then (2, 0)
    else if op == 4 && s.regBad03 p d then (3, 0)
    else match (d :: src.map (·.2)).findSome? (s.regBad04 p) with
      | some a => (4, a)
      | none => (0, 0)

/-- Records an engine fault (R157). With a code up to 0x04 the task that needed the operation, if `need`, is not dispatched (log entry 12); a poisoned
line ends it POISONED, and the member forces a skip (R260). -/
def State.blFault (s : State) (p t r code : Nat) (need : Bool) : State :=
  let s := if code = 5 then s.forceSkip p else s
  let s := if need then
      s.onTileTask t (fun k =>
        if code = 5 then (if k.bad.isNone then { k with bad := some (((s.regDesc p r).map RegD.backing).getD 0) } else k)
        else if k.fault.isNone then { k with fault := some (t, 4, code) } else k)
    else s
  s.recErr { idx := 0x100 + 5 * t + 4, valid := TIL_BL_FAULT_VALID t, ovf := none,
             fill := [(TIL_BL_FAULT_REGION t, r), (TIL_BL_FAULT_CODE t, code)], ev := mkEv 8 2 (some p) true code t }

/-- SPILL: the blocks are written to BACKING exactly and freed (R144). -/
def State.blSpillGo (s : State) (p t r : Nat) (d : RegD) (g : Region) : State :=
  let s := ((List.range g.blocks.length).zip g.blocks).foldl (fun s e =>
    s.memPut p t (d.backing + e.1 * 0x6000) (s.blBytes t e.2) .alloc) s
  (s.finc (TIL_BL_SPILLS_COUNT t) g.blocks.length).blRelease t r 2

/-- FILL: free blocks are mapped and read back; true when a line is poisoned (R144, R157). -/
def State.blFillGo (s : State) (p t r : Nat) (d : RegD) : State × Bool :=
  let old := ((s.region t r).map (·.step)).getD 0
  let was := (s.region t r).any (·.stopped)
  let s := s.blAlloc p t r d
  let (s, el, n, bad) := s.backRead p d
  match s.region t r with
  | none => (s, bad)
  | some g =>
    let s := { s with blot := el.foldl (fun m (e : Nat × Nat) => mset 0 m (g.key t e.1) e.2) s.blot }
    let s := s.finc (TIL_BL_FILLS_COUNT t) n
    (s.setRegion t r { g with stopped := bad || was, step := old }, bad)

/-- FOLD: each source in the order of the list, then closed (R146, R149); true when a line is poisoned. -/
def State.blFoldGo (s : State) (p t r : Nat) (d : RegD) : State × Bool :=
  (d.fold.take d.foldCount).foldl (fun (a : State × Bool) q =>
    if a.2 then a else
    match a.1.region t r, a.1.regionTile p q, a.1.regDesc p q with
    | some g, some u, some e =>
      match a.1.region u q with
      | none => a
      | some src =>
        if src.state = 1 then ((a.1.foldInto t g (a.1.regElems u src)).blRelease u q 3, false)
        else
          let (s, el, _, bad) := a.1.backRead p e
          let s := s.foldInto t g el
          if bad then (s.setRegion t r { g with stopped := true }, true) else (s.blRelease u q 3, false)
    | _, _, _ => a) (s, false)

/-- A drained row: COLS elements in GFMT, then zeros to 256 bytes; and whether one is Inf or NaN (R155, R156). -/
def State.drainRow (s : State) (t : Nat) (g : Region) (d : RegD) (row : Nat) : List Byte × Bool :=
  let f := (Fmt.ofCode d.gfmt).getD .bf16
  let vs := (List.range d.cols).map (fun c => (toFmt f false false (acc48 (mget 0 s.blot (g.key t (row * 128 + c))))).1)
  (bytesAt (vs.flatMap (leBytes 2)) 0 256, vs.any (fun v => !(decodeNum f v).isFin))

/-- DRAIN: rows to DRAIN_DST in whole lines, then closed (R155, R156). -/
def State.blDrainGo (s : State) (p t r : Nat) (d : RegD) (g : Region) : State :=
  let rows := (List.range d.rows).map (s.drainRow t g d)
  let bytes := bytesAt (rows.flatMap (·.1)) 0 d.dstLen
  let s := s.memPut p t d.dst bytes .alloc
  let s := if rows.any (·.2) then (s.fset (TIL_BL_STATUS_NONFINITE t) 1).nonfinite p else s
  s.blRelease t r 4

/-- Does the operation apply to region `r` as it stands: OPEN of one that is not open in this step, FILL of a SPILLED one, SPILL of a resident one,
FOLD and DRAIN of an open one whose FILL and FOLD have not stopped; a FOLD_SOURCE region is never drained (R144, R149, R152, R157)? -/
def State.blApplies (s : State) (p t : Nat) (o : BlOp) : Bool :=
  let g := s.region t o.region
  let st := match g with | some g => g.state | none => 0
  let lives := (st == 1 || st == 2) && !(match g with | some g => g.stopped | none => false)
  match o.op with
  | 1 => !(st == 1 || st == 2) || (match g with | some g => g.step != s.blStep p | none => false)
  | 2 => st == 1
  | 3 => st == 2
  | 4 => lives
  | 5 => lives && !(match s.regDesc p o.region with | some d => d.source | none => false)
  | _ => true

/-- Do regions with these view blocks and one of the list overlap in the view? -/
def State.viewMeets (s : State) (p : Nat) (d : RegD) (qs : List Nat) : Bool :=
  qs.any (fun q => match s.regDesc p q with | some e => viewClash (e.vbase / 32) e.nblocks (d.vbase / 32) d.nblocks | none => false)

/-- Is the operation withheld for now: its region, or a source of its FOLD, is named by a running task of that region's tile, or lies with a
pre-empted task; or an OPEN or FILL would take view blocks of a region that the running task names (R145)? -/
def State.blHeld (s : State) (p t : Nat) (o : BlOp) : Bool :=
  let d := s.regDesc p o.region
  s.regionBusy t o.region || s.savedRegion p o.region ||
  (match d, o.op with
   | some d, 4 => (d.fold.take d.foldCount).any (fun q => s.savedRegion p q || (match s.regionTile p q with | some u => s.regionBusy u q | none => false))
   | some d, 1 | some d, 3 => s.viewMeets p d (s.runRegions t)
   | _, _ => false)

/-- The first unreleased entry of the schedule table whose template names region `r` (R152, R221); none when no entry does. -/
def State.nextUse (s : State) (p r : Nat) : Option Nat :=
  let x := s.sqp p
  let base := s.sqTable p (s.fget (SCH_SQ_EPOCH_SLOT p))
  match s.memGet p base 64 with
  | none => none
  | some h =>
    (List.range (leAt h 8 4)).find? (fun i =>
      !x.rel.contains i &&
      match s.sqEnt p i with
      | none => false
      | some e =>
        [1, 3, 4].contains (leAt e 0 1) &&
          match s.memGet p (leAt h 0x10 8 + 128 * leAt e 4 2) 128 with
          | some t => (parseTask t).regions.contains r
          | none => false)

/-- What the search for that entry reads: the table's header, the entries up to it and their templates. -/
def State.useSpans (s : State) (p r : Nat) : List (Nat × Nat) :=
  let base := s.sqTable p (s.fget (SCH_SQ_EPOCH_SLOT p))
  let h := (s.memGet p base 64).getD []
  let n := match s.nextUse p r with | some i => i + 1 | none => leAt h 8 4
  (base, 64) :: ((List.range n).filter (fun i => !(s.sqp p).rel.contains i)).flatMap (fun i =>
    (s.sqEntAddr p i, 16) :: match s.sqEnt p i with
      | some e => if [1, 3, 4].contains (leAt e 0 1) then [(leAt h 0x10 8 + 128 * leAt e 4 2, 128)] else []
      | none => [])

/-- Resident regions of tile `t` but `r` and those that its task names. -/
def State.spillable (s : State) (t r : Nat) : List (Nat × Region) :=
  (s.tile t).regions.filter (fun e => e.2.state == 1 && e.1 != r && !(s.namedRegions t).contains e.1 && !s.regionBusy t e.1)

/-- The victim of a missing block: the resident region that the task does not name whose next use lies furthest ahead, the lower ID on a tie
(R152). -/
def State.spillVictim (s : State) (p t r : Nat) : Option Nat :=
  minBy (fun r => match s.nextUse p r with | some i => (2 ^ 24 - i) * 2 ^ 16 + r | none => r) ((s.spillable t r).map (·.1))

/-- Do the free blocks of tile `t`, with those that region `r` holds, suffice? -/
def State.blRoom (s : State) (t r n : Nat) : Bool :=
  decide (n ≤ (s.freeBlocks t).length + (match s.region t r with | some g => g.blocks.length | none => 0))

/-- What the scheduler does before an operation: for an OPEN or FILL, SPILLs of the regions whose view blocks it takes (log entry 158) and of victims
until the free blocks suffice; for a FOLD or DRAIN of a SPILLED region, its FILL (R152). -/
def State.blBefore (s : State) (p t : Nat) (o : BlOp) (d : RegD) : List BlOp :=
  if o.op = 1 || o.op = 3 then
    match (s.spillable t o.region).filter (fun e => viewClash e.2.vb e.2.blocks.length (d.vbase / 32) d.nblocks) with
    | [] => if s.blRoom t o.region d.nblocks then [] else match s.spillVictim p t o.region with | some v => [⟨2, v⟩] | none => []
    | es => es.map (fun e => ⟨2, e.1⟩)
  else if (o.op = 4 || o.op = 5) && (match s.region t o.region with | some g => g.state == 2 | none => false) then [⟨3, o.region⟩]
  else []

/-- The reads of the schedule table with which the victim of a missing block is chosen (R152). -/
def State.blLook (s : State) (p t : Nat) (o : BlOp) (d : RegD) : State :=
  if (o.op = 1 || o.op = 3) && !s.blRoom t o.region d.nblocks then
    ((s.spillable t o.region).flatMap (fun e => s.useSpans p e.1)).foldl (fun s e => s.memSee p schedSrc e.1 e.2) s
  else s

/-- The memory that the operation reads or writes. -/
def State.blSpans (s : State) (p t : Nat) (o : BlOp) (d : RegD) : List (Nat × Nat) :=
  match o.op with
  | 2 | 3 => [(d.backing, d.backLen)]
  | 5 => [(d.dst, d.dstLen)]
  | 4 => (s.foldSources p d).filterMap (fun e =>
      match e.2, s.regionTile p e.1 with
      | some x, some u => if (match s.region u e.1 with | some g => g.state == 2 | none => false) then some (x.backing, x.backLen) else none
      | _, _ => none)
  | _ => let _ := t; []

/-- The pages of that memory that are not resident (R203). -/
def State.blAbsent (s : State) (p t : Nat) (o : BlOp) (d : RegD) : List Nat :=
  ((s.blSpans p t o d).flatMap (fun e => (linePieces e.1 e.2).filterMap (fun pc => match s.loc p pc.1 with | .absent g => some g | _ => none))).eraseDups

/-- The operation's effect, with BUSY and OP; or code 0x05, and the engine stays idle. -/
def State.blDo (s : State) (p t : Nat) (o : BlOp) (d : RegD) : State :=
  let r := o.region
  let idle := fun (s : State) => ((s.setTile t { s.tile t with blStall := none }).fset (TIL_BL_STATUS_BUSY t) 0).fset (TIL_BL_STATUS_OP t) 0
  let busy := fun (s : State) =>
    ((s.setTile t { s.tile t with blCur := some o, blStall := none }).fset (TIL_BL_STATUS_BUSY t) 1).fset (TIL_BL_STATUS_OP t) o.op
  let need := (s.namedRegions t).contains r
  match o.op, s.region t r with
  | 1, _ => busy (s.blAlloc p t r d)
  | 2, some g => busy (s.blSpillGo p t r d g)
  | 3, _ => let (s, bad) := s.blFillGo p t r d; if bad then (idle s).blFault p t r 5 need else busy s
  | 4, _ => let (s, bad) := s.blFoldGo p t r d; if bad then (idle s).blFault p t r 5 need else busy s
  | 5, some g => busy (s.blDrainGo p t r d g)
  | 6, _ => busy (s.blRelease t r 0)
  | _, _ => s

/-- The engine of tile `t` starts an operation that has passed its checks; it stalls on pages that are not resident, which are paged in on demand
(R204). -/
def State.blGo (s : State) (p t : Nat) (o : BlOp) (d : RegD) : State :=
  let pages := s.blAbsent p t o d
  if pages.isEmpty then s.blDo p t o d
  else
    let s := s.demand p t pages
    ((s.setTile t { s.tile t with blStall := some o }).fset (TIL_BL_STATUS_BUSY t) 1).fset (TIL_BL_STATUS_OP t) o.op

/-- The next of the operations that wait which is not withheld and follows no other on its region, and the rest. -/
def State.blPick (s : State) (p t : Nat) : List BlOp → List BlOp → Option (BlOp × List BlOp)
  | _, [] => none
  | before, o :: rest =>
    if s.blHeld p t o || before.any (fun x => x.region == o.region) then State.blPick s p t (before ++ [o]) rest else some (o, before ++ rest)

/-- The operation `o` in turn, `rest` the others that wait: dropped when it does not apply; a fault by R157 of it or of what must come first; what
must come first; left waiting while no block can be freed; else started. True when the engine may take another. -/
def State.blTurn (s : State) (p t : Nat) (o : BlOp) (rest : List BlOp) : State × Bool :=
  let put := fun (s : State) (q : List BlOp) => s.setTile t { s.tile t with blQueue := q }
  let s := s.memSee p t (s.fget (SCH_REGION_BASE_BASE p) * 64 + 64 * o.region) 64
  if !s.blApplies p t o then (put s rest, true) else
  let need := (s.namedRegions t).contains o.region
  let c := s.blCheck p t o.region o.op
  let s := if c.1 = 4 then s.stray p t c.2 else s
  if c.1 ≠ 0 then ((put s rest).blFault p t o.region c.1 need, true) else
  match s.regDesc p o.region with
  | none => (put s rest, true)
  | some d =>
    let s := s.blLook p t o d
    let pre := s.blBefore p t o d
    match pre.find? (fun x => (s.blCheck p t x.region x.op).1 != 0) with
    | some x =>
      let c := s.blCheck p t x.region x.op
      let s := if c.1 = 4 then s.stray p t c.2 else s
      ((put s rest).blFault p t x.region c.1 need, true)
    | none =>
      if !pre.isEmpty then (put s (pre ++ o :: rest), true)
      else if (o.op = 1 || o.op = 3) && !s.blRoom t o.region d.nblocks then (put s (o :: rest), false)
      else ((put s rest).blGo p t o d, true)

/-- The engine takes the operations that wait until one runs (R144). -/
def State.blNext (p t : Nat) : Nat → State → State
  | 0, s => s
  | n + 1, s =>
    if s.fbit (TIL_BL_STATUS_BUSY t) || s.fatal || s.paused t then s else
    match s.blPick p t [] (s.tile t).blQueue with
    | none => s
    | some (o, rest) =>
      let (s, more) := s.blTurn p t o rest
      if more then State.blNext p t n s else s

/-- The operations of tile `t` that wait go on as far as they can. -/
def State.blKick (s : State) (p t : Nat) : State := State.blNext p t (2 * (s.tile t).blQueue.length + 8) s

/-- The scheduler issues an operation to the engine of tile `t`, as soon as R145 allows (R144). -/
def State.blIssue (s : State) (t op r : Nat) : State :=
  match s.tilePart t with
  | none => s
  | some p => (s.setTile t { s.tile t with blQueue := (s.tile t).blQueue ++ [⟨op, r⟩] }).blKick p t

/-- The tile of partition `p` to which region `r` belongs: that on which it is open, or to which the pre-empted task that holds it returns. -/
def State.regionHome (s : State) (p r : Nat) : Option Nat :=
  (s.regionTile p r).orElse (fun _ => (s.sp p).tasks.findSome? (fun e =>
    (e.2.saved.find? (fun w => match mfind w.2.x.regions r with | some g => g.isOpen | none => false)).map (·.1)))

/-- An operation on a region, issued on its tile; one on a region that lies with a pre-empted task waits for its return (R145, R206). -/
def State.blAsk (s : State) (p t op r : Nat) : State :=
  if (s.region t r).any Region.isOpen then s.blIssue t op r
  else
    let sp := s.sp p
    s.setSp p { sp with tasks := sp.tasks.map (fun e =>
      (e.1, { e.2 with saved := e.2.saved.map (fun w =>
        if w.1 == t && (match mfind w.2.x.regions r with | some g => g.isOpen | none => false) then
          (w.1, { w.2 with x := { w.2.x with blQueue := w.2.x.blQueue ++ [⟨op, r⟩] } })
        else w) })) }

/-- An operation that waited for pages goes on when they have come (R204), but not while its tile is stopped (R154). -/
def State.blResume (s : State) (p t : Nat) : State :=
  match (s.tile t).blStall with
  | none => s
  | some o =>
    if s.paused t then s else
    match s.regDesc p o.region with
    | none => s
    | some d => if (s.blAbsent p t o d).isEmpty then s.blDo p t o d else s

/-- The engine of a restored tile goes on: with an operation that stalled on pages, or with the next that waits (R154). -/
def State.blAgain (s : State) (p t : Nat) : State :=
  match (s.tile t).blStall with
  | none => s.blKick p t
  | some o => match s.regDesc p o.region with | none => s | some d => s.blGo p t o d

/-- An operation finishes: it counts, and the engine takes the next one (R144). While the tile is paused, or the operation waits for pages, none does
(R154, R204). -/
def State.blComplete (s : State) (t : Nat) : State :=
  if !s.fbit (TIL_BL_STATUS_BUSY t) || s.paused t || (s.tile t).blStall.isSome then s else
  let cur := (s.tile t).blCur
  let s := ((s.fset (TIL_BL_STATUS_BUSY t) 0).fset (TIL_BL_STATUS_OP t) 0).finc (TIL_BL_DONE_COUNT t) 1
  let s := s.setTile t { s.tile t with blCur := none }
  match s.tilePart t with
  | none => s
  | some p =>
    let s := match cur with | some o => s.sqBlDone p t o.op o.region | none => s
    s.blKick p t

/-- Operands of a blotter command: a tile and a REGION_ID. -/
def blOk (t r : Nat) : Bool := decide (t < 152) && decide (r < 0x10000)

def execBlotterOpen (t r : Nat) (s : State) : Host.Outcome State Fault Refusal := onUnit (blOk t r) (s.blIssue t 1 r)
def execBlotterSpill (t r : Nat) (s : State) : Host.Outcome State Fault Refusal := onUnit (blOk t r) (s.blIssue t 2 r)
def execBlotterFill (t r : Nat) (s : State) : Host.Outcome State Fault Refusal := onUnit (blOk t r) (s.blIssue t 3 r)
def execBlotterFold (t r : Nat) (s : State) : Host.Outcome State Fault Refusal := onUnit (blOk t r) (s.blIssue t 4 r)
def execBlotterDrain (t r : Nat) (s : State) : Host.Outcome State Fault Refusal := onUnit (blOk t r) (s.blIssue t 5 r)
def execBlotterClose (t r : Nat) (s : State) : Host.Outcome State Fault Refusal := onUnit (blOk t r) (s.blIssue t 6 r)
def execBlotterOpComplete (t : Nat) (s : State) : Host.Outcome State Fault Refusal := onUnit (t < 152) (s.blComplete t)

end Sys2Proof.Machine
end

