-- ==== Sys2Proof/Machine/Watch.lean ====
section
/-!
DEFINITION. The numeric watch's collector: the watch table (R86, R87), summaries (R91), the items of the final reduction (R92), the
boundary update (R93, R94), gradient-noise statistics (R99), report records (R100) and the commands WATCH_SUMMARY, WATCH_ENABLE,
WATCH_DISABLE and WATCH_IDLE (R104).
-/
namespace Sys2Proof.Machine

/-- PMS address of entry `e` of partition `p`'s watch table (R85). -/
def State.nwAddr (s : State) (p e : Nat) : Nat := s.fget (SCH_NW_TABLE_BASE p) * 512 + 512 * e

/-- The collector's access to its structures failed (R467): AREA_FAULT, and an isolation violation when it lay outside the space. -/
def State.nwArea (s : State) (p a : Nat) (outside : Bool) : State :=
  let s := s.fset (SCH_NW_PSTATUS_AREA_FAULT p) 1
  if outside then s.stray p watchSrc a else s

/-- Entry `e` is read; one that lies outside or reads poisoned takes no part in the step (R467). -/
def State.nwRead (s : State) (p e : Nat) : State × Option (List Byte) :=
  if (s.nwp p).dead.contains e then (s, none) else
  let a := s.nwAddr p e
  let (s, r) := s.memRead p a 512 .inPlace
  if r.ok then (s, some r.bytes)
  else
    let w := s.nwp p
    ((s.setNwp p { w with dead := sins w.dead e, acc := mdel w.acc e }).nwArea p a (!r.out.isEmpty), none)

/-- Does the entry's RULE choose scales: POW2 or FINE with a narrow FMT (R86, R94)? -/
def nwRule (b : List Byte) : Option Nat :=
  match Fmt.ofCode (leAt b 0 1) with
  | some f => if f.narrow ∧ (leAt b 1 1 = 1 ∨ leAt b 1 1 = 2) then some (leAt b 1 1) else none
  | none => none

/-- S in force: 1 without a rule, INIT_S while the history is empty, else S (R86, R94). -/
def nwScale (b : List Byte) : Num :=
  match nwRule b with
  | none => .one
  | some _ => fp32 (leAt b (if leAt b 5 1 = 0 then 8 else 0xC) 4)

/-- rup32 of a value that is not negative (R90). -/
def rup32 (x : Num) : Nat :=
  match x with
  | .inf _ => maxFinite .fp32
  | _ => let v := encIeee .fp32 .up x; if v = infEnc .fp32 false then maxFinite .fp32 else v

/-- The two items of an entry for the final reduction: its step amax and its NONFINITE count (R90, R92). -/
def nwItem (b : List Byte) (a : NwAcc) : Nat × Nat :=
  (if a.amax.isZero then 0 else rup32 (a.amax.mul (nwScale b)), min a.nonfin (2 ^ 32 - 1))

/-- The items of every entry of partition `p`, in order of ENTRY; 0 and 0 for one that takes no part (R92, R467). -/
def State.nwItems (s : State) (p : Nat) : State × List (Nat × Nat) :=
  (List.range (s.fget (SCH_NW_ENTRIES_COUNT p))).foldl (fun (acc : State × List (Nat × Nat)) e =>
    match mfind (acc.1.nwp p).acc e with
    | none => (acc.1, acc.2 ++ [(0, 0)])
    | some a =>
      let (s, b) := acc.1.nwRead p e
      (s, acc.2 ++ [match b with | some b => nwItem b a | none => (0, 0)])) (s, [])

/-- The larger of two FP32 values, as bits. -/
def max32 (a b : Nat) : Nat := if (fp32 a).lt (fp32 b) then b else a

/-- Bunting-wide items: the maximum of the amax values and the saturating sum of the counts (R92). -/
def nwCombine (a b : List (Nat × Nat)) : List (Nat × Nat) :=
  (List.range (max a.length b.length)).map (fun i =>
    let x := a.getD i (0, 0)
    let y := b.getD i (0, 0)
    (max32 x.1 y.1, min (x.2 + y.2) (2 ^ 32 - 1)))

/-- ⌈log2 t⌉ of a positive value. -/
def Num.ceilLog2 : Num → Int
  | .fin _ m e => if m = 2 ^ m.log2 then (m.log2 : Int) + e else (m.log2 : Int) + 1 + e
  | _ => 0

/-- S clamped to 2^−126 to 2^127 (R93 step 6). -/
def nwClamp (x : Num) : Num :=
  if x.lt (.fin false 1 (-126)) then .fin false 1 (-126) else if Num.lt (.fin false 1 127) x then .fin false 1 127 else x

/-- One entry's update at the boundary of step `n` (R93, R94): the new entry and whether BACKOFF holds. An INIT_S that is NaN has no
stated scale: `nanS` stands for S then (log entry 9). -/
def nwUpdate (b : List Byte) (n amax nonfin nanS : Nat) : List Byte × Bool :=
  let wr := fun (b : List Byte) (s q : Nat) =>
    patch (patch b 0xC (leBytes 4 s ++ leBytes 4 q ++ leBytes 4 (n + 1))) 0x40 (List.replicate 64 0)
  match nwRule b with
  | none => (wr (patch b 5 [0]) 0x3F800000 0x3F800000, false)
  | some rule =>
    let len := clamp 1 64 (leAt b 2 1)
    let margin := max (-8) (min 8 (toSigned 8 (leAt b 3 1)))
    let pos := leAt b 4 1 % len
    let fill := min (leAt b 5 1) len
    let hist := fun (b : List Byte) (pos fill : Nat) =>
      (List.range fill).foldl (fun a i => max32 a (leAt b (0x100 + 4 * ((pos + len - 1 - i) % len)) 4)) 0
    let aPrev := hist b pos fill
    let push := if nonfin > 0 then max32 amax (rup32 ((Num.fin false 2 0).mul (fp32 aPrev))) else amax
    let b := patch b (0x100 + 4 * pos) (leBytes 4 push)
    let pos := (pos + 1) % len
    let fill := min (fill + 1) len
    let b := patch b 4 [byteOf pos, byteOf fill]
    let a := fp32 (hist b pos fill)
    let fmax := match Fmt.ofCode (leAt b 0 1) with | some f => decodeNum f (maxFinite f) | none => .one
    let (s, exact) :=
      if a.isZero then
        let i := leAt b 8 4
        (if (fp32 i).isNan then fp32 nanS else nwClamp (fp32 i), false)
      else
        let t := (a.mul (.fin false 1 margin)).divSticky 40 fmax
        if rule = 1 then
          -- the quotient's exact power of two: t is exact when its sticky bit is 0
          (nwClamp (.fin false 1 t.ceilLog2), true)
        else (nwClamp (fp32 (rup32 t)), false)
    let q := if exact then rne32 (Num.one.divSticky 40 s) else encIeee .fp32 .tz (Num.one.divSticky 40 s)
    (wr b (rne32 s) q, decide (nonfin > 0))

/-- The report record of an entry (R100). -/
def nwRecord (e n amax flags : Nat) (b : List Byte) (a : NwAcc) : List Byte :=
  leBytes 1 1 ++ bytesAt b 0 1 ++ leBytes 2 flags ++ leBytes 2 e ++ leBytes 2 0 ++ leBytes 4 n ++ leBytes 4 0 ++
  leBytes 8 a.total ++ leBytes 8 a.sat ++ leBytes 8 a.flush ++ leBytes 8 a.nonfin ++ leBytes 4 amax ++ bytesAt b 0xC 8 ++
  leBytes 4 (a.bins.map (·.2)).sum ++ leBytes 4 a.mbs.length ++ leBytes 4 0 ++ leBytes 4 (rne32 a.sumsqMb) ++ leBytes 4 a.sumsqAcc ++
  List.replicate 48 0 ++ (List.range 32).flatMap (fun i => leBytes 4 (min (mget 0 a.bins i) (2 ^ 32 - 1)))

/-- Slots of the report ring (4–20; other values act as the nearer limit, R104). -/
def State.nwSlots (s : State) (p : Nat) : Nat := 2 ^ clamp 4 20 (s.fget (SCH_NW_RING_SIZE_SIZE_LOG2 p))

/-- Writes a report record, or drops it: no free slot, or a slot outside the space or on a poisoned line (R100, R467). -/
def State.nwReport (s : State) (p : Nat) (rec : List Byte) : State :=
  let head := s.fget (SCH_NW_RING_HEAD_HEAD p)
  if ahead 21 head (s.fget (SCH_NW_RING_TAIL_TAIL p)) ≥ s.nwSlots p then
    ((s.fsat (SCH_NW_DROPPED_COUNT p) 1).fset (SCH_NW_PSTATUS_RING_FULL p) 1).noteEv 0x09 2 p (Config.evDetail 0x09).toNat
  else
    let a := s.fget (SCH_NW_RING_BASE p) * 256 + head % s.nwSlots p * 256
    let (s, r) := s.memWrite p a rec .inPlace
    if r.ok then s.finc (SCH_NW_RING_HEAD_HEAD p) 1
    else ((s.fsat (SCH_NW_DROPPED_COUNT p) 1).nwArea p a false).broke p watchSrc r

/-- The boundary update of one entry (R93 to R95, R100). -/
def State.nwBoundaryEntry (p n : Nat) (skipped : Bool) (items : List (Nat × Nat)) (s : State) (e : Nat) : State :=
  let (s, b) := s.nwRead p e
  match b with
  | none => s
  | some b =>
    let (amax, nonfin) := items.getD e (0, 0)
    let needFree := (nwRule b).isSome && (fp32 (leAt b 8 4)).isNan
    let (v, s) := if needFree then s.free 32 else (0, s)
    let (nb, backoff) := nwUpdate b n amax nonfin v
    let w := s.nwp p
    let a := mget NwAcc.init w.acc e
    let s := s.memPut p watchSrc (s.nwAddr p e) nb .inPlace
    let flags := b2n w.partialStep + 2 * b2n a.rerun + 4 * b2n a.mismatch + 8 * b2n backoff + 16 * b2n skipped +
      32 * b2n (decide (2 < leAt b 1 1))
    if a.total > 0 || rne32 (nwScale b) != leAt nb 0xC 4 then s.nwReport p (nwRecord e n amax flags nb a) else s

/-- The boundary update of partition `p` after step `n` (R93), with the bunting-wide items; nothing while the watch is off. -/
def State.nwBoundary (s : State) (p n : Nat) (skipped : Bool) (items : List (Nat × Nat)) : State :=
  if !s.fbit (SCH_NW_PCTRL_ENABLE p) then s else
  let s := (List.range (s.fget (SCH_NW_ENTRIES_COUNT p))).foldl (State.nwBoundaryEntry p n skipped items) s
  (s.setNwp p { s.nwp p with acc := [], partialStep := false, dead := [], due := (n + 1) % 2 ^ 32 }).fset (SCH_NW_LAST_STEP_STEP p) n

/-- SUMSQ_ACC of an entry: the norm that the ligature unit computed (R99, R168), in the record that the entry's next boundary writes: that of its step,
unless the norm comes after that one (log entry 157). -/
def State.nwSumsq (s : State) (p e v : Nat) : State :=
  if s.watched p e && s.fbit (SCH_NW_PCTRL_GN_ENABLE p) then
    let w := s.nwp p
    s.setNwp p { w with acc := mupd NwAcc.init w.acc (tagEntry e) (fun a => { a with sumsqAcc := v }) }
  else s

/-- A summary added to its entry's running counts (R91, R99). -/
def NwAcc.add (a : NwAcc) (m : Summary) (fmt : Nat) : NwAcc :=
  { total := a.total + m.total, sat := a.sat + m.sat, flush := a.flush + m.flush, nonfin := a.nonfin + m.nonfin,
    amax := if a.amax.lt m.amax then m.amax else a.amax, rerun := a.rerun || m.rerun, mismatch := a.mismatch || m.fmt != fmt,
    bins := m.bins.foldl (fun b e => mupd 0 b e.1 (· + e.2)) a.bins,
    mbs := if m.sumsq.isSome then sins a.mbs m.mb else a.mbs,
    sumsqMb := match m.sumsq with | some v => a.sumsqMb.add (fp32 v) | none => a.sumsqMb, sumsqAcc := a.sumsqAcc }

/-- WATCH_SUMMARY: the oldest summary of partition `p` reaches the collector and is added into its entry (R91). -/
def State.watchSummary (s : State) (p : Nat) : State :=
  let w := s.nwp p
  match w.flight with
  | [] => s
  | m :: rest =>
    let s := s.setNwp p { w with flight := rest }
    let (s, b) := s.nwRead p m.entry
    match b with
    | none => s
    | some b =>
      let w := s.nwp p
      let m := if s.fbit (SCH_NW_PCTRL_GN_ENABLE p) then m else { m with sumsq := none }
      s.setNwp p { w with acc := mupd NwAcc.init w.acc m.entry (fun a => a.add m (leAt b 0 1)) }

/-- Is a step in progress whose boundary is still to come: the sequencer runs and the step's combined record has not arrived? -/
def State.stepOpen (s : State) (p : Nat) : Bool := s.fbit (SCH_SQ_CTRL_ENABLE p) && (s.sqp p).combined.isNone

/-- The boundary update that tasks wait for next (R95): that of the step in progress, or of the next once the combined record of the step has arrived. -/
def State.nwFrom (s : State) (p : Nat) : State :=
  s.setNwp p { s.nwp p with due := (s.fget (SCH_SQ_STEP_STEP p) + b2n (s.sqp p).combined.isSome) % 2 ^ 32 }

/-- ENABLE written to 1 (R104): PARTIAL for the step in progress, if there is one; the tiles' counts of eligible descriptors start from 0 (R96). -/
def State.watchOn (s : State) (p : Nat) : State :=
  let s1 := (s.fset (SCH_NW_PCTRL_ENABLE p) 1).fset (SCH_NW_PSTATUS_IDLE p) 0
  let s1 := if s.stepOpen p then s1.setNwp p { s1.nwp p with partialStep := true } else s1
  if s.fbit (SCH_NW_PCTRL_ENABLE p) then s1
  else let s1 := s1.nwFrom p; (s.partTiles p).foldl (fun s t => s.setTile t { s.tile t with eligible := 0 }) s1

/-- ENABLE written to 0 (R104): counting stops, and the summaries in flight and the running counts are discarded. -/
def State.watchOff (s : State) (p : Nat) : State :=
  let s := s.fset (SCH_NW_PCTRL_ENABLE p) 0
  s.setNwp p { s.nwp p with flight := [], acc := [], dead := [] }

/-- The write-back ends: IDLE (R104). -/
def State.watchIdle (s : State) (p : Nat) : State :=
  if s.fbit (SCH_NW_PCTRL_ENABLE p) then s else s.fset (SCH_NW_PSTATUS_IDLE p) 1

def execWatchSummary (p : Nat) (s : State) : Host.Outcome State Fault Refusal := onUnit (p < 16) (s.watchSummary p)
def execWatchIdle (p : Nat) (s : State) : Host.Outcome State Fault Refusal := onUnit (p < 16) (s.watchIdle p)

end Sys2Proof.Machine
end

