-- ==== Sys2Proof/Machine/Ligature.lean ====
section
/-!
DEFINITION. The ligature units (chapter 07): update rules (R164 to R166), norm and clip (R168, R169), tag checks (R171), the journal
(R172 to R174), commit and skip (R175 to R177), the slow tier (R178 to R180) and faults (R181).
-/
namespace Sys2Proof.Machine

-- Arithmetic (R164, R165) -----------------------------------------------------------------------------------------------------------------

/-- fma(a, b, c) on FP32 bits, rounded once. -/
def fma32 (a b c : Nat) : Nat := rne32 (((fp32 a).mul (fp32 b)).add (fp32 c))
def mul32 (a b : Nat) : Nat := rne32 ((fp32 a).mul (fp32 b))
def add32 (a b : Nat) : Nat := rne32 ((fp32 a).add (fp32 b))
def sub32 (a b : Nat) : Nat := rne32 ((fp32 a).sub (fp32 b))
def div32 (a b : Nat) : Nat := rne32 (Num.divSticky 40 (fp32 a) (fp32 b))
def sqrt32 (a : Nat) : Nat := rne32 (Num.sqrtSticky 40 (fp32 a))
/-- −a. -/
def neg32 (a : Nat) : Nat := if a < 2 ^ 31 then a + 2 ^ 31 else a - 2 ^ 31

/-- A result beyond the FP32 range becomes the largest finite value (R168). -/
def satFin32 (v : Nat) : Nat := if v = infEnc .fp32 false then maxFinite .fp32 else v

/-- The software coefficients of an entry's snapshot (R162). -/
def teLR (e : List Byte) : Nat := leAt e 0x30 4
def teWD (e : List Byte) : Nat := leAt e 0x34 4
def teB1 (e : List Byte) : Nat := leAt e 0x38 4
def teOMB1 (e : List Byte) : Nat := leAt e 0x3C 4
def teB2 (e : List Byte) : Nat := leAt e 0x40 4
def teOMB2 (e : List Byte) : Nat := leAt e 0x44 4
def teEPS (e : List Byte) : Nat := leAt e 0x48 4
def teGradMul (e : List Byte) : Nat := leAt e 0x4C 4
def teClipT (e : List Byte) : Nat := leAt e 0x50 4
def teP1 (e : List Byte) : Nat := leAt e 0x54 4
def teP2 (e : List Byte) : Nat := leAt e 0x58 4
def teApplied (e : List Byte) : Nat := leAt e 0x5C 4
def teStep (e : List Byte) : Nat := leAt e 0x60 4

/-- P1′ and P2′ (R165). -/
def teP1n (e : List Byte) : Nat := mul32 (teP1 e) (teB1 e)
def teP2n (e : List Byte) : Nat := mul32 (teP2 e) (teB2 e)

/-- The update rules of R165: w′, m′ and v′ from w, m, v and g; a field that the rule leaves keeps its bits. -/
def ligRule (e : List Byte) (w m v g : Nat) : Nat × Nat × Nat :=
  let nlr := neg32 (teLR e)
  match leAt e 4 1 with
  | 0 => (fma32 nlr (fma32 (teWD e) w g) w, m, v)
  | 1 =>
    let m1 := fma32 (teB1 e) m (fma32 (teWD e) w g)
    (fma32 nlr m1 w, m1, v)
  | 2 =>
    let m1 := fma32 (teB1 e) m (mul32 (teOMB1 e) g)
    let v1 := fma32 (teB2 e) v (mul32 (teOMB2 e) (mul32 g g))
    let mh := div32 m1 (sub32 0x3F800000 (teP1n e))
    let vh := div32 v1 (sub32 0x3F800000 (teP2n e))
    let u := div32 mh (add32 (sqrt32 vh) (teEPS e))
    (fma32 nlr (fma32 (teWD e) w u) w, m1, v1)
  | _ =>
    let c := fma32 (teB1 e) m (mul32 (teOMB1 e) g)
    let u := if (fp32 c).isNan then canonNan .fp32 else if Num.lt .zero (fp32 c) then 0x3F800000
      else if (fp32 c).lt .zero then 0xBF800000 else 0
    (fma32 nlr (fma32 (teWD e) w u) w, fma32 (teB2 e) m (mul32 (teOMB2 e) g), v)

/-- WCOPY of a master weight (R166). -/
def wcopyOf (w : Nat) : Nat := (toFmt .bf16 false false (fp32 w)).1

/-- ge of a reduced-gradient element (R164 step 1). -/
def ligGe (e : List Byte) (gr : Nat) : Nat :=
  rne32 ((decodeNum (if leAt e 6 1 = 1 then .fp16 else .bf16) gr).mul (fp32 (teGradMul e)))

/-- The new contents of line `l` for the gradient elements `ges` (ge values, one for each non-padding element): R164 step 2, R165, R166;
and whether a new master weight is Inf or NaN. -/
def ligNew (e : List Byte) (factor step epoch : Nat) (old : List Byte) (ges : List Nat) : List Byte × Bool :=
  let el := (List.range 32).map (fun k =>
    let w := leAt old (4 * k) 4
    let m := leAt old (0x80 + 4 * k) 4
    let v := leAt old (0x100 + 4 * k) 4
    match ges[k]? with
    | none => (w, m, v, leAt old (0x180 + 2 * k) 2, false)
    | some ge =>
      let (w1, m1, v1) := ligRule e w m v (mul32 ge factor)
      (w1, m1, v1, wcopyOf w1, !(fp32 w1).isFin))
  (el.flatMap (fun x => leBytes 4 x.1) ++ el.flatMap (fun x => leBytes 4 x.2.1) ++ el.flatMap (fun x => leBytes 4 x.2.2.1) ++
   el.flatMap (fun x => leBytes 2 x.2.2.2.1) ++ bytesAt old 0x1C0 8 ++ leBytes 4 step ++ leBytes 2 epoch ++ bytesAt old 0x1CE 2 ++
   List.replicate 48 0, el.any (fun x => x.2.2.2.2))

/-- FACTOR (R169). -/
def ligFactor (e : List Byte) (norm : Nat) : Nat :=
  match bitsAt (teFlags e) 1 2 with
  | 1 => if (fp32 norm).le (fp32 (teClipT e)) then 0x3F800000 else div32 (teClipT e) norm
  | 2 => if (fp32 norm).isZero then 0x3F800000 else div32 (teClipT e) norm
  | _ => 0x3F800000

/-- SUMSQ, NORM and FACTOR from the shard sums (R168, R169). -/
def ligNorm (e : List Byte) (ps : List Nat) : Nat × Nat × Nat :=
  let sumsq := satFin32 (rne32 (Num.sum (ps.map fp32)))
  let norm := sqrt32 sumsq
  (sumsq, norm, ligFactor e norm)

-- Faults (R181) ---------------------------------------------------------------------------------------------------------------------------

/-- The unit beside the stack that holds a PMS address; the lowest unit where the address has none. -/
def State.ligUnit (s : State) (p a : Nat) : Nat := match s.toDpa p a with | some d => d / 2 ^ 36 | none => 0

/-- Records a ligature fault in unit `u` (R181); LINE 0xFFFF_FFFF for tensor scope. -/
def State.ligFault (s : State) (p u code tensor line : Nat) : State :=
  s.recErr { idx := 0x60 + u, valid := LIG_UFAULT_VALID u, ovf := some (LIG_UFAULT_OVERFLOW u),
             fill := [(LIG_UFAULT_PARTITION u, p), (LIG_UFAULT_CODE u, code), (LIG_UFAULT_WHERE_LINE u, line),
                      (LIG_UFAULT_WHERE_TENSOR_ID u, tensor)],
             ev := mkEv 0x0B 2 (some p) true code tensor }

/-- A line fault: it stays in force until its line is repaired and updated (R181, R441). -/
def State.ligLineFault (s : State) (p u code t l : Nat) : State :=
  let s := s.ligFault p u code t l
  let x := s.lp p
  s.setLp p { x with bad := (u, t, l) :: x.bad.filter (fun b => b != (u, t, l)) }

/-- The faults of the lines that `here` names are no longer in force. -/
def State.ligHeal (s : State) (p : Nat) (here : Nat × Nat → Bool) : State :=
  let x := s.lp p
  s.setLp p { x with bad := x.bad.filter (fun b => !here b.2) }

/-- A tensor-scope fault, with the isolation violation of code 0x06. -/
def State.ligTensorFault (s : State) (p code tensor base : Nat) (viol : Option Nat) : State :=
  let s := match viol with | some a => s.stray p ligSource a | none => s
  s.ligFault p (s.ligUnit p base) code tensor 0xFFFFFFFF

/-- Code 0x02: an entry field is out of range or misaligned, or a reserved field is not 0. -/
def teBad (e : List Byte) : Bool :=
  decide (3 < leAt e 4 1) || decide (teFlags e ≥ 16) || bitsAt (teFlags e) 1 2 == 3 || (leAt e 6 1 != 1 && leAt e 6 1 != 2) ||
  decide (leAt e 7 1 < 1 ∨ 128 < leAt e 7 1) || teLines e == 0 || teState e % 512 != 0 || leAt e 0x20 8 % 512 != 0 ||
  (teSlow e && leAt e 0x20 8 != 0) || !(zeroAt e 0x2A 6 && zeroAt e 0x70 16) || (bitsAt (teFlags e) 1 2 != 0 && !posNormal32 (teClipT e))

-- Gradients -------------------------------------------------------------------------------------------------------------------------------

/-- The reduced-gradient elements of line `l` from GRAD_BASE, in the layout of R155: drained row r at 256 × r (R160, R162); none where a
line reads poisoned. -/
def State.gradLine (s : State) (p : Nat) (e : List Byte) (l : Nat) : State × Option (List Nat) :=
  let n := teCount e l
  if n = 0 then (s, some []) else
  let gc := leAt e 7 1
  let at_ := fun i => (32 * l + i) / gc * 256 + 2 * ((32 * l + i) % gc)
  let (s, r) := s.memRead p (leAt e 0x20 8 + at_ 0) (at_ (n - 1) + 2 - at_ 0) .inPlace
  (s, if r.ok then some ((List.range n).map (fun i => ligGe e (leAt r.bytes (at_ i - at_ 0) 2))) else none)

/-- The exact sum of the squares of a line's gradient (R168). -/
def gradSq (ges : List Nat) : List Num := ges.map (fun g => fp32 (mul32 g g))

/-- The shard sum p over lines `l` to `l + n − 1`; lines whose gradient cannot be read take no part (log entry 13). -/
def State.shardSum (s : State) (p : Nat) (e : List Byte) : State × Nat :=
  let (s, ts) := (List.range (teLines e)).foldl (fun (a : State × List Num) i =>
    let (s, g) := a.1.gradLine p e (teFirst e + i)
    (s, a.2 ++ gradSq (g.getD []))) (s, [])
  (s, satFin32 (rne32 (Num.sum ts)))

-- Lines -----------------------------------------------------------------------------------------------------------------------------------

/-- Is the ligature unit of an address administratively disabled (R442)? -/
def State.ligOff (s : State) (p a : Nat) : Bool := (s.fget EVT_ADMIN_UNIT_LIG_DISABLE).testBit (s.ligUnit p a)

/-- One whole-line write by the ligature unit of the line's home stack (R161), with its palimpsest side (R239); `old` is none where the line read
poisoned. LIG_ULINES counts these writes (log entry 198). -/
def State.ligWrite (s : State) (p t l a : Nat) (e : List Byte) (old : Option (List Byte)) (new : List Byte) : State :=
  let s := s.memPut p ligSource a new .inPlace
  let s := s.finc (LIG_ULINES_COUNT (s.ligUnit p a)) 1
  s.palSide p t l e old new

/-- What became of a line: 0 it holds the step, 1 fault or a unit that is disabled, 2 held for the flag, 3 a page is absent. -/
abbrev LineRes := Nat

/-- One line of an update (R171, R173, R174): `ges` gives its gradient, `prov` says whether the write is provisional. A poisoned gradient is not
rebuilt: the member forces a skip (R260). -/
def State.ligLine (s : State) (p : Nat) (u : LUpd) (factor : Nat) (prov : Bool) (l : Nat) (ges : State → State × Option (List Nat)) :
    State × LineRes :=
  let t := u.note.tensor
  let n := u.note.step
  let a := teState u.ent + 512 * (l - teFirst u.ent)
  let unit := s.ligUnit p a
  if s.ligOff p a then (s, 1) else
  let s := s.ligHeal p (fun b => b == (t, l))
  let (s, r) := s.memRead p a 512 .inPlace
  if !r.absent.isEmpty then (s, 3)
  else if !r.out.isEmpty then (s.ligTensorFault p 6 t (teState u.ent) (some a), 1)
  else if !r.bad.isEmpty then (s.ligLineFault p unit 5 t l, 1)
  else
    let old := r.bytes
    if leAt old 0x1C0 4 != t || leAt old 0x1C4 4 != l || leAt old 0x1CC 2 != u.note.epoch then (s.ligLineFault p unit 3 t l, 1)
    else if leAt old 0x1C8 4 = n then (s, 0)
    else if leAt old 0x1C8 4 ≠ teStep u.ent then (s.ligLineFault p unit 4 t l, 1)
    else
      let (s, g) := ges s
      match g with
      | none => ((s.ligLineFault p unit 5 t l).forceSkip p, 1)
      | some g =>
        -- a line has at most one slot in a step (R173)
        let prov := prov && !(s.lp p).jlines.contains (t, l)
        let used := s.fget (LIG_JRNL_USED_USED p)
        let lines := s.fget (LIG_JRNL_LINES_LINES p)
        if prov && used ≥ lines then
          ((s.fset (LIG_PSTATUS_HELD p) 1).fsets (if lines = 0 then [] else [(LIG_PSTATUS_JOURNAL_FULL p, 1)]), 2)
        else
          let s := if prov then
              let s := s.setLp p { s.lp p with jlines := (s.lp p).jlines ++ [(t, l)] }
              (s.memPut p ligSource (s.fget (LIG_JRNL_BASE_BASE p) * 512 + 512 * used) old .inPlace).fset (LIG_JRNL_USED_USED p) (used + 1)
            else s
          let (new, nf) := ligNew u.ent factor n u.note.epoch old g
          let s := s.ligWrite p t l a u.ent (some old) new
          let s := if nf then (s.fset (LIG_PSTATUS_NONFINITE_W p) 1).noteEv 0x0A 0 p t else s
          (s, 0)

/-- The lines of a fast-tier update in increasing LINE, up to the first that is held (R174); true when every line holds the step. -/
def State.ligLines (s : State) (p : Nat) (u : LUpd) (factor : Nat) (prov : Bool) : State × Bool :=
  let r := (List.range (teLines u.ent)).foldl (fun (a : State × Bool × Bool) i =>
    if a.2.2 then a else
    let l := teFirst u.ent + i
    let (s, res) := a.1.ligLine p u factor prov l (fun s => s.gradLine p u.ent l)
    (s, a.2.1 && res == 0, res == 2)) (s, true, false)
  (r.1, r.2.1 && !r.2.2)

-- Updates ---------------------------------------------------------------------------------------------------------------------------------

/-- Members whose shard sums the update waits for (R228). -/
def notePeers (n : LNote) : List Nat := bitsOf n.peers 128

/-- SUMSQ, NORM and FACTOR once every shard sum is there (R168); SUMSQ_ACC for the watch (R99). -/
def State.ligFormNorm (s : State) (p : Nat) (u : LUpd) : State × LUpd :=
  if u.norm.isSome then (s, u) else
  let x := s.lp p
  let key := fun m => u.note.tensor * 128 + m
  if (notePeers u.note).all (fun m => mhas x.sums (key m)) then
    let n := ligNorm u.ent (u.own :: (notePeers u.note).map (fun m => (mfind x.sums (key m)).getD 0))
    let s := s.setLp p { x with sums := x.sums.filter (fun e => e.1 / 128 != u.note.tensor) }
    (s.nwSumsq p (leAt u.ent 0x28 2) n.1, { u with norm := some n })
  else (s, u)

/-- Runs what can run of a fast-tier update (R169, R172): provisional before the flag, direct after a clear flag, nothing after a set one
or in a rollback. A tensor with CLIP waits for SUMSQ. -/
def State.ligRun (s : State) (p : Nat) (u : LUpd) : State × LUpd :=
  let (s, u) := s.ligFormNorm p u
  let flag := (s.lp p).flag
  if u.frozen || u.done || flag == some true || (s.lp p).rolling then (s, u) else
  let clip := bitsAt (teFlags u.ent) 1 2
  match (if clip = 0 then some 0x3F800000 else u.norm.map (·.2.2)) with
  | none => (s, u)
  | some f =>
    let (s, ok) := s.ligLines p u f flag.isNone
    (s, { u with done := ok })

/-- Every update of the step in progress runs as far as it can. -/
def State.ligRunAll (s : State) (p : Nat) : State :=
  let (s, us) := (s.lp p).upds.foldl (fun (a : State × List LUpd) u =>
    let (s, u) := a.1.ligRun p u
    (s, a.2 ++ [u])) (s, [])
  s.setLp p { s.lp p with upds := us }

/-- IDLE of LIG_PSTATUS: no update, commit or rollback in progress. -/
def State.ligIdle (s : State) (p : Nat) : State :=
  let x := s.lp p
  s.fset (LIG_PSTATUS_IDLE p) (b2n (x.cur.isNone && x.slow.all (fun w => w.upd.isNone)))

/-- The entry of a tensor, checked as R181 orders it; or a tensor-scope fault has been recorded. -/
def State.ligEntry (s : State) (p : Nat) (n : LNote) : State × Option (Nat × List Byte) :=
  match s.tensorTable p n.epoch with
  | none => (s.ligTensorFault p 1 n.tensor 0 none, none)
  | some (base, cnt) =>
    if cnt ≤ n.tensor then (s.ligTensorFault p 1 n.tensor 0 none, none) else
    let a := base + 128 * n.tensor
    let (s, r) := s.memRead p a 128 .inPlace
    if !r.out.isEmpty || !r.absent.isEmpty then (s.ligTensorFault p 6 n.tensor a (some a), none)
    else if !r.bad.isEmpty then (s.ligTensorFault p 5 n.tensor a none, none)
    else if leAt r.bytes 0 4 ≠ n.tensor then (s.ligTensorFault p 1 n.tensor a none, none)
    else if teBad r.bytes then (s.ligTensorFault p 2 n.tensor (teState r.bytes) none, none)
    else (s, some (a, r.bytes))

/-- The ranges of code 0x06: the shard, its gradient and the journal; the first address outside, if any. -/
def State.ligOutside (s : State) (p : Nat) (e : List Byte) : Option Nat :=
  let gc := leAt e 7 1
  let hi := min (teElems e) (32 * (teFirst e + teLines e))
  let r0 := 32 * teFirst e / gc
  let jl := s.fget (LIG_JRNL_LINES_LINES p)
  let jb := s.fget (LIG_JRNL_BASE_BASE p) * 512
  if !s.inSpace p (teState e) (512 * teLines e) then some (teState e)
  else if 32 * teFirst e < hi && !s.inSpace p (leAt e 0x20 8 + 256 * r0) (256 * ((hi - 1) / gc - r0 + 1)) then some (leAt e 0x20 8 + 256 * r0)
  else if jl > 0 && !s.inSpace p jb (512 * jl) then some jb
  else none

/-- Sends the shard sum to every member of NORM_PEERS (R228). -/
def State.ligSendSum (s : State) (p : Nat) (n : LNote) (own : Nat) : State :=
  (notePeers n).foldl (fun s m => s.toMember p 3 m none none (leBytes 4 n.tensor ++ leBytes 4 own ++ leBytes 8 0)) s

/-- The update of a tensor shard starts (R170): the entry is read once (R163), the shard sum formed and sent, and the lines run. -/
def State.ligBegin (s : State) (p : Nat) (n : LNote) : State :=
  let (s, r) := s.ligEntry p n
  match r with
  | none => s
  | some (a, e) =>
    match (if (teFlags e).testBit 3 then none else s.ligOutside p e) with
    | some v => s.ligTensorFault p 6 n.tensor (teState e) (some v)
    | none =>
      let frozen := (teFlags e).testBit 3
      let (s, own) := if frozen then (s, 0) else s.shardSum p e
      let s := if frozen then s else s.ligSendSum p n own
      let x := s.lp p
      let u : LUpd := ⟨n, e, a, own, if frozen then some (0, 0, 0x3F800000) else none, frozen, frozen⟩
      let s := s.setLp p { x with cur := some n.step, notes := x.notes.filter (fun y => y != n), upds := x.upds ++ [u] }
      s.ligRunAll p

/-- May work of step `n` start: ENABLE in force, and no other step in progress (R185)? -/
def LigP.takes (x : LigP) (n : Nat) : Bool := x.on && !x.rolling && (match x.cur with | none => true | some c => c == n)

/-- Was step `n` already committed or skipped? -/
def LigP.past (x : LigP) (n : Nat) : Bool := match x.last with | some l => decide (n ≤ l) | none => false

/-- The shard sum of a tensor whose step has been skipped before its update began: it is formed and sent, for the other members' norms (R168, R228). -/
def State.ligSumOnly (s : State) (p : Nat) (n : LNote) : State :=
  let (s, r) := s.ligEntry p n
  match r with
  | none => s
  | some (_, e) =>
    if (teFlags e).testBit 3 || (s.ligOutside p e).isSome then s else
    let (s, own) := s.shardSum p e
    s.ligSendSum p n own

/-- LIGATURE_UPDATE_START: the update of tensor `t` whose notification is the oldest starts; or the update of `t` runs again over its shard, for the
lines that do not hold the step (R170, R171, R181). In a step whose flag is set the update only forms its norm (R176); a notification of a step
already ended is dropped (log entry 14). -/
def State.ligStart (s : State) (p t : Nat) : State :=
  if s.fatal then s else
  let x := s.lp p
  match x.notes.find? (fun n => n.tensor == t) with
  | some n =>
    if x.past n.step then
      let s := s.setLp p { x with notes := x.notes.filter (fun y => y != n) }
      if x.skipped.contains n.step then s.ligSumOnly p n else s
    else if x.flag = some true && x.cur = some n.step then s.ligBegin p n
    else if !x.takes n.step then s
    else (s.ligBegin p n).ligIdle p
  | none =>
    if x.upds.any (fun u => u.note.tensor == t) && x.on then
      (s.setLp p { x with upds := x.upds.map (fun u => if u.note.tensor == t && !u.frozen then { u with done := false } else u) }).ligRunAll p
    else s

/-- NORM_EXCHANGE_ARRIVAL: member `m`'s shard sum of tensor `t` arrives; when all are in, SUMSQ and NORM are formed (R168, R228). A member
that no team has changes nothing. -/
def State.normArrival (s : State) (p m t v : Nat) : State :=
  if 128 ≤ m then s
  else
  let x := s.lp p
  (s.setLp p { x with sums := mins x.sums (t * 128 + m) v }).ligRunAll p

-- Commit and skip (R175, R176) --------------------------------------------------------------------------------------------------------------

/-- The entry of an update at the end of its step: SUMSQ, NORM and FACTOR always; with `commit` also P1′, P2′, APPLIED + 1 and STEP. Only
bytes 0x54 to 0x6F are written (R163). -/
def State.ligEntryEnd (s : State) (p : Nat) (u : LUpd) (commit : Bool) : State :=
  match u.norm, u.frozen with
  | some (sq, nm, f), false =>
    let tail := leBytes 4 sq ++ leBytes 4 nm ++ leBytes 4 f
    if commit then
      s.memPut p ligSource (u.addr + 0x54) (leBytes 4 (teP1n u.ent) ++ leBytes 4 (teP2n u.ent) ++ leBytes 4 (teApplied u.ent + 1) ++
        leBytes 4 u.note.step ++ tail) .inPlace
    else s.memPut p ligSource (u.addr + 0x64) tail .inPlace
  | _, _ => s

/-- All tags of the partition's inkwell pages are dropped when LIG_STEP changes (R192), those in the control records of spilled tiles among them. -/
def State.dropTags (s : State) (p : Nat) : State :=
  let sp := s.sp p
  let s := s.setSp p { sp with tasks := sp.tasks.map (fun e =>
    (e.1, { e.2 with saved := e.2.saved.map (fun w => (w.1, { w.2 with x := { w.2.x with tags := [] } })) })) }
  (s.partTiles p).foldl (fun s t => s.setTile t { s.tile t with tags := [] }) s

/-- The step in progress ends: the journal is emptied without being read, LIG_STEP becomes `n` unless the drain timeout ended it (R183),
and ENABLE's written value comes into force. -/
def State.ligEndStep (s : State) (p n : Nat) (advance : Bool) : State :=
  let x := s.lp p
  let s := s.setLp p { x with cur := none, upds := [], jlines := [], back := [], flag := none, rolling := false, on := s.fbit (LIG_PCTRL_ENABLE p),
                              last := if advance then some n else x.last }
  let s := (s.fset (LIG_JRNL_USED_USED p) 0).fset (LIG_PSTATUS_HELD p) 0
  let s := if advance then (s.fset (LIG_STEP_STEP p) n).dropTags p else s
  s.ligIdle p

/-- Are all fast-tier updates of the step complete, with their norms (R175 step 2)? -/
def LigP.complete (x : LigP) (n : Nat) : Bool :=
  x.upds.all (fun u => u.done && u.norm.isSome) && x.notes.all (fun y => y.step != n)

/-- Slot `i` of the journal needs no more writing back. -/
def State.ligBack (s : State) (p i : Nat) : State := s.setLp p { s.lp p with back := sins (s.lp p).back i }

/-- A journal slot is written back to the line that its tag names (R176 step 2). One that reads poisoned, or lies outside the space, leaves its line to
rebuilding: the line is poisoned (R181, R260, R262). A line of a disabled unit, or of an absent page, waits (R442). -/
def State.ligRestore (s : State) (p i : Nat) : State :=
  let x := s.lp p
  let line := fun (t l : Nat) => (x.upds.find? (fun u => u.note.tensor == t)).map (fun u => (u.ent, teState u.ent + 512 * (l - teFirst u.ent)))
  let (jt, jl) := x.jlines.getD i (0, 0)
  let off := match line jt jl with | some d => s.ligOff p d.2 | none => false
  if x.back.contains i || off then s else
  let a := s.fget (LIG_JRNL_BASE_BASE p) * 512 + 512 * i
  let (s, r) := s.memRead p a 512 .inPlace
  if !r.absent.isEmpty then s
  else if !r.ok then
    let s := if r.out.isEmpty then s.ligLineFault p (s.ligUnit p a) 5 jt jl else s.ligTensorFault p 6 jt a (some a)
    (match line jt jl with | some d => s.memPoison p ligSource d.2 | none => s).ligBack p i
  else
    let t := leAt r.bytes 0x1C0 4
    let l := leAt r.bytes 0x1C4 4
    match line t l with
    | none => s.ligBack p i
    | some (e, la) =>
      let (s, o) := s.memRead p la 512 .inPlace
      if !o.absent.isEmpty then s
      else (s.ligWrite p t l la e (if o.ok then some o.bytes else none) r.bytes).ligBack p i

/-- Has every occupied journal slot been written back? -/
def State.ligUndone (s : State) (p : Nat) : Bool := (s.lp p).back.length == s.fget (LIG_JRNL_USED_USED p)

/-- Every occupied journal slot is written back, as far as it can be; the updates stop (R176 steps 1 to 3). -/
def State.ligUndo (s : State) (p : Nat) : State :=
  let x := s.lp p
  let s := if x.rolling then s else (s.setLp p { x with rolling := true }).ligHeal p (fun b => x.upds.any (fun u => u.note.tensor == b.1))
  ((List.range (s.fget (LIG_JRNL_USED_USED p))).foldl (fun s i => s.ligRestore p i) s).fsets [(LIG_PSTATUS_HELD p, 0), (LIG_PSTATUS_IDLE p, 0)]

/-- The updates of the step in progress that have not begun begin. -/
def State.ligBeginAll (s : State) (p : Nat) : State :=
  let x := s.lp p
  (x.notes.filter (fun y => some y.step == x.cur)).foldl (fun s n => s.ligBegin p n) s

/-- The rollback of a skipped step begins or goes on: the updates that have not begun form their norms alone, and the journal is written back (R176). -/
def State.ligRollback (s : State) (p : Nat) : State :=
  let s := s.ligUndo p
  if (s.lp p).flag.isSome then s.ligBeginAll p else s

/-- The flag of step `n` arrives at the ligature units (R172): clear, held and remaining lines run directly; set, the step is rolled back. -/
def State.ligFlag (s : State) (p n : Nat) (nonfinite : Bool) : State :=
  let x := s.lp p
  if x.past n || x.flag.isSome then s else
  let s := s.setLp p { x with flag := some nonfinite, cur := some n }
  let s := s.ligIdle p
  if nonfinite then s.ligRollback p
  else (s.fset (LIG_PSTATUS_HELD p) 0).ligRunAll p

/-- STEP_COMMIT: with the flag clear and `fast` (no reduction of a fast-tier tensor is outstanding), the step commits (R175). -/
def State.ligCommit (s : State) (p : Nat) (fast : Bool) : State :=
  let x := s.lp p
  match x.cur with
  | none => s
  | some n =>
    if x.flag = some false && x.complete n && fast then
      (x.upds.foldl (fun s u => s.ligEntryEnd p u true) s).ligEndStep p n true
    else s

/-- The step's rollback ends, once the journal is written back, no reduction of a fast-tier tensor is outstanding (`fast`) and every norm of the step is
formed: entries record the skipped step, LIG_STEP becomes n, LIG_SKIPS counts, SKIPPED and the step-skipped event (R176 steps 4 and 5). A step that the
drain timeout rolled back ends without them (R183). -/
def State.ligSkipEnd (s : State) (p : Nat) (fast : Bool) : State :=
  let x := s.lp p
  if !x.rolling || !s.ligUndone p then s else
  match x.cur, x.flag with
  | some n, some true =>
    if !fast || x.upds.any (fun u => u.norm.isNone) then s else
    let s := x.upds.foldl (fun s u => s.ligEntryEnd p u false) s
    let s := s.ligEndStep p n true
    let s := s.setLp p { s.lp p with skipped := sins (s.lp p).skipped n }
    ((s.fsat (LIG_SKIPS_COUNT p) 1).fset (LIG_PSTATUS_SKIPPED p) 1).noteEv 0x0C 0 p n
  | some n, none => s.ligEndStep p n false
  | _, _ => s

-- Slow tier (R178 to R180) --------------------------------------------------------------------------------------------------------------------

/-- Record `i` of a slow-tier list: GRAD bytes, LINE, TENSOR_ID, STEP. -/
def State.slowRec (s : State) (p list i : Nat) : State × Option (List Byte) :=
  let (s, r) := s.memRead p (list + 128 * i) 128 .inPlace
  (s, if r.ok then some r.bytes else none)

/-- The records of a list that can be read, and how many cannot. -/
def State.slowList (s : State) (p : Nat) (w : LSlow) : State × List (List Byte) × Nat :=
  (List.range w.count).foldl (fun (a : State × List (List Byte) × Nat) i =>
    let (s, r) := a.1.slowRec p w.list i
    match r with
    | some r => (s, a.2.1 ++ [r], a.2.2)
    | none => (s, a.2.1, a.2.2 + 1)) (s, [], 0)

/-- Records that read poisoned stop their lines alone (R181); which lines they name cannot be read (log entry 161), and the member forces a skip
(R260). -/
def State.slowPoison (s : State) (p t n : Nat) : State :=
  (List.range n).foldl (fun s _ => let (l, s) := s.free 32; (s.ligLineFault p 0 5 t l).forceSkip p) s

/-- LINE of a record. -/
def recLine (r : List Byte) : Nat := leAt r 0x40 4

/-- Strictly increasing LINE? -/
def recRising : List (List Byte) → Bool
  | a :: b :: l => decide (recLine a < recLine b) && recRising (b :: l)
  | _ => true

/-- The ge values of a record (R164, R178). -/
def recGes (e : List Byte) (r : List Byte) : List Nat :=
  (List.range (teCount e (recLine r))).map (fun k => ligGe e (leAt r (2 * k) 2))

/-- Does the record list or the shard lie outside the partition's space (code 0x06)? -/
def State.slowOutside (s : State) (p : Nat) (w : LSlow) (e : List Byte) : Option Nat :=
  if !s.inSpace p w.list (128 * w.count) then some w.list
  else if !s.inSpace p (teState e) (512 * teLines e) then some (teState e) else none

/-- Runs a slow-tier update: the lines of its list, directly and without a journal (R179); stops at an absent page (R204). -/
def State.slowRun (s : State) (p : Nat) (u : LUpd) (recs : List (List Byte)) : State × LUpd :=
  let (s, u) := s.ligFormNorm p u
  match (if bitsAt (teFlags u.ent) 1 2 = 0 then some 0x3F800000 else u.norm.map (·.2.2)) with
  | none => (s, u)
  | some f =>
    let r := (recs.filter (fun r => decide (teFirst u.ent ≤ recLine r ∧ recLine r < teFirst u.ent + teLines u.ent))).foldl
      (fun (a : State × Bool × Bool) r =>
        if a.2.2 then a else
        let (s, res) := a.1.ligLine p u f false (recLine r) (fun s => (s, some (recGes u.ent r)))
        let s := if res = 3 then
            let g := (teState u.ent + 512 * (recLine r - teFirst u.ent) - pagedBase) / 2 ^ 21
            let sp := s.sp p
            let d := (152 + s.ligUnit p (teState u.ent), g)
            if sp.demand.contains d then s else s.setSp p { sp with demand := sp.demand ++ [d] }
          else s
        (s, a.2.1 && res == 0, res == 3)) (s, true, false)
    (r.1, { u with done := r.2.1 && !r.2.2 })

/-- The slow-tier step to be updated next: the lowest with a list. -/
def LigP.slowStep (x : LigP) : Option Nat := (minBy (fun w => w.note.step) x.slow).map (fun w => w.note.step)

/-- One tensor's slow-tier update starts or goes on. -/
def State.slowOne (p j : Nat) (s : State) (w : LSlow) : State :=
  if w.note.step ≠ j then s else
  let keep := fun (s : State) (u : LUpd) =>
    s.setLp p { s.lp p with slow := (s.lp p).slow.map (fun y => if y.note == w.note then { y with upd := some u } else y) }
  let run := fun (s : State) (u : LUpd) (l : List (List Byte) × Nat) =>
    if u.frozen then keep s u else
    let s := s.slowPoison p w.note.tensor l.2
    let (s, v) := s.slowRun p u l.1
    keep s { v with done := v.done && l.2 == 0 }
  match w.upd with
  | some u => let (s, l) := s.slowList p w; run s u l
  | none =>
    let (s, r) := s.ligEntry p w.note
    match r with
    | none => s
    | some (a, e) =>
      match s.slowOutside p w e with
      | some v => s.ligTensorFault p 6 w.note.tensor (teState e) (some v)
      | none =>
        let (s, l) := s.slowList p w
        if !recRising l.1 then s.ligTensorFault p 7 w.note.tensor (teState e) none else
        let frozen := (teFlags e).testBit 3
        let own := if frozen then 0 else satFin32 (rne32 (Num.sum (l.1.flatMap (fun r => gradSq (recGes e r)))))
        let s := if frozen then s else s.ligSendSum p w.note own
        run s ⟨w.note, e, a, own, if frozen then some (0, 0, 0x3F800000) else none, frozen, frozen⟩ l

/-- SLOW_UPDATE_START: after step j commits, and once the slow step before it is verified (R245), its slow-tier updates run (R179). -/
def State.slowStart (s : State) (p : Nat) : State :=
  let x := s.lp p
  match x.slowStep with
  | none => s
  | some j =>
    let verified := !s.fbit (PAL_CTRL_ENABLE p) || decide (j ≤ s.fget (PAL_SLOW_VERIFIED_STEP p) + 1)
    if x.on && x.past j && !x.skipped.contains j && verified && !s.fatal then ((x.slow.foldl (State.slowOne p j) s).ligIdle p) else s

/-- SLOW_UPDATE_COMPLETE: the slow-tier update of the next step is complete, or its step was skipped; its entries commit, and
LIG_SLOW_DONE advances (R180). With none outstanding it follows LIG_STEP (log entry 15). -/
def State.slowComplete (s : State) (p : Nat) : State :=
  let x := s.lp p
  match x.slowStep, x.last with
  | some j, _ =>
    let ws := x.slow.filter (fun w => w.note.step == j)
    let rest := { x with slow := x.slow.filter (fun w => w.note.step != j), bad := x.bad.filter (fun b => ws.all (fun w => w.note.tensor != b.2.1)), skipped := x.skipped.filter (fun n => n > j) }
    if x.skipped.contains j then ((s.setLp p rest).fset (LIG_SLOW_DONE_STEP p) j).ligIdle p
    else if ws.all (fun w => match w.upd with | some u => u.done && u.norm.isSome | none => false) then
      let s := ws.foldl (fun s w => match w.upd with | some u => s.ligEntryEnd p u true | none => s) s
      ((s.setLp p rest).fset (LIG_SLOW_DONE_STEP p) j).ligIdle p
    else s
  | none, some l => (s.setLp p { x with skipped := [] }).fset (LIG_SLOW_DONE_STEP p) l
  | none, none => s

def execLigatureUpdateStart (p t : Nat) (s : State) : Host.Outcome State Fault Refusal := onUnit (p < 16) (s.ligStart p t)
def execNormExchangeArrival (p m t v : Nat) (s : State) : Host.Outcome State Fault Refusal :=
  onUnit (p < 16) (s.normArrival p m t v)
def execSlowUpdateStart (p : Nat) (s : State) : Host.Outcome State Fault Refusal := onUnit (p < 16) (s.slowStart p)

end Sys2Proof.Machine
end

