-- ==== Sys2Proof/Machine/Plan.lean ====
section
/-!
DEFINITION. Cutting the model: the plan request, the division of layers, heads and experts, and the plan result (R213 to R217), in IEEE
binary64 where the spec says so.
-/
namespace Sys2Proof.Machine

-- Binary64 --------------------------------------------------------------------------------------------------------------------------------

/-- The value of FP64 bits. -/
def dec64 (v : Nat) : Num :=
  let sg := decide (2 ^ 63 ≤ v)
  let e : Nat := v / 2 ^ 52 % 2048
  let m := v % 2 ^ 52
  if e = 2047 then (if m = 0 then .inf sg else .nan)
  else if e = 0 then .fin sg m (-1074) else .fin sg (2 ^ 52 + m) ((e : Int) - 1075)

/-- A value rounded to binary64, to nearest with ties to even. -/
def rnd64 : Num → Num
  | .fin n m e =>
    let (q, f) := roundMag .ne n 53 (-1074) m e
    if magGt q f (2 ^ 53 - 1) 971 then .inf n else .fin n q f
  | x => x

/-- FP64 bits of a value that binary64 holds. -/
def enc64 : Num → Nat
  | .nan => 0x7FF8000000000000
  | .inf n => (if n then 2 ^ 63 else 0) + 2047 * 2 ^ 52
  | .fin n m e =>
    let sg := if n then 2 ^ 63 else 0
    if m = 0 then sg else
    -- the exponent of the lowest bit, once the significand has 53 bits or ends at 2^−1074
    let up := 52 - (m.log2 : Int)
    let low := max (-1074) (e - up)
    let q := if low ≤ e then m * 2 ^ (e - low).toNat else m / 2 ^ (low - e).toNat
    if q < 2 ^ 52 then sg + q else sg + (low + 1075).toNat * 2 ^ 52 + (q - 2 ^ 52)

def add64 (a b : Num) : Num := rnd64 (a.add b)
def mul64 (a b : Num) : Num := rnd64 (a.mul b)
def div64 (a b : Num) : Num := rnd64 (Num.divSticky 70 a b)

-- The division ----------------------------------------------------------------------------------------------------------------------------

/-- The remainder of the layers, one at a time to stages S − 1, S − 2 and so on, returning to S − 1 after stage 0 (R214). -/
def handOut (ns : List Nat) : Nat → Nat → List Nat
  | 0, _ => ns
  | r + 1, k =>
    let i := ns.length - 1 - k % ns.length
    handOut (ns.set i (ns.getD i 0 + 1)) r (k + 1)

/-- ⌈h/T⌉ for the first h mod T slices and ⌊h/T⌋ for the others (R215). -/
def sliceShare (h t i : Nat) : Nat := h / t + (if i < h % t then 1 else 0)

/-- Running sums: the first of each share. -/
def firsts : Nat → List Nat → List Nat
  | _, [] => []
  | a, n :: l => a :: firsts (a + n) l

/-- Experts by member (R216): ⌊X × f/F⌋, and the rest one each to the largest remainders, lower index first. -/
def expertShare (x : Nat) (fs : List (Nat × Nat)) : List (Nat × Nat) :=
  let f : Nat := (fs.map (fun (e : Nat × Nat) => e.2)).sum
  let base := fs.map (fun e => (e.1, x * e.2 / f, x * e.2 % f))
  let rest := x - (base.map (fun e => e.2.1)).sum
  base.map (fun e =>
    let before := (base.filter (fun y => decide (e.2.2 < y.2.2) || (y.2.2 == e.2.2 && decide (y.1 < e.1)))).length
    (e.1, e.2.1 + (if before < rest then 1 else 0)))

/-- A plan: τ, layers by stage, heads and column groups by slice, experts by member. -/
structure PlanR where
  tau : Num
  layers : List Nat
  heads : List Nat
  cols : List Nat
  experts : List (Nat × Nat)

/-- Code 0x01 of a plan request (R217). -/
def planBad (b : Bunt) (q : List Byte) : Bool :=
  let w := dec64 (leAt q 8 8)
  let a := dec64 (leAt q 0x10 8)
  leAt q 0 2 == 0 || !w.isFin || !a.isFin || (w.neg? && !w.isZero) || (a.neg? && !a.isZero) || !zeroAt q 0x28 24 ||
    decide (2 ^ b.n ≤ leAt q 0x18 16) || (List.range b.stages).any (fun i => leAt q (0x40 + i) 1 == 0)

/-- The plan (R214 to R216) and its code. `mem` and `tiles` give each member's MEM_MIB and TILES; `open_ s` stands for n_s where x_s is not
finite, which the spec states no result for (log entry 21). -/
def planGo (b : Bunt) (q : List Byte) (mem tiles : Nat → Nat) (open_ : Nat → Nat) : PlanR × Nat :=
  let w := dec64 (leAt q 8 8)
  let a := dec64 (leAt q 0x10 8)
  let l := leAt q 0 2
  let nat := fun (n : Nat) => Num.fin false n 0
  let ss := List.range b.stages
  let per := b.reps * b.slices
  let c := fun (i : Nat) => nat (((List.range per).map (fun j => mem (i * per + j))).foldl min (mem (i * per)))
  let m := fun (i : Nat) => add64 w (mul64 (nat (leAt q (0x40 + i) 1)) a)
  let e := fun (i : Nat) => dec64 (leAt q (0x80 + 8 * i) 8)
  let se := (ss.map (fun i => div64 (e i) (m i))).foldl add64 (nat 0)
  let sc := (ss.map (fun i => div64 (c i) (m i))).foldl add64 (nat 0)
  let tau := div64 (add64 (nat l) se) sc
  let ns := ss.map (fun i =>
    let x := div64 (add64 (mul64 tau (c i)) (e i).negate) (m i)
    match x with
    | .fin n _ _ => if n then 0 else x.floorInt.toNat
    | _ => open_ i)
  let ns := handOut ns (l - ns.sum) 0
  let hs := (List.range b.slices).map (sliceShare (leAt q 2 2) b.slices)
  let cs := (List.range b.slices).map (sliceShare (leAt q 4 2) b.slices)
  let fs := (bitsOf (leAt q 0x18 16) 128).map (fun i => (i, tiles i))
  let f : Nat := (fs.map (fun (e : Nat × Nat) => e.2)).sum
  let xs := if f = 0 then [] else expertShare (leAt q 6 2) fs
  let code :=
    if ns.any (· == 0) || (leAt q 2 2 != 0 && hs.any (· == 0)) || (leAt q 4 2 != 0 && cs.any (· == 0)) then 2
    else if ss.any (fun i => (c i).lt (add64 (mul64 (nat (ns.getD i 0)) (m i)) (e i))) then 3
    else if f = 0 && leAt q 6 2 != 0 then 5 else 0
  (⟨tau, ns, hs, cs, xs⟩, code)

/-- The plan result, 1 KiB, of a plan that succeeds (R213). -/
def planResult (r : PlanR) : List Byte :=
  let two := fun (n : Nat) (l : List Nat) => bytesAt (l.flatMap (leBytes 2)) 0 (2 * n)
  let ex := (List.range 128).map (fun i => (mfind r.experts i).getD 0)
  let fi := firsts 0 ex
  let efi := (List.range 128).map (fun i => if mhas r.experts i then fi.getD i 0 else 0)
  bytesAt (leBytes 8 0 ++ leBytes 8 (enc64 r.tau) ++ two 64 r.layers ++ two 64 (firsts 0 r.layers) ++ two 16 r.heads ++ two 16 r.cols ++
    List.replicate 48 0 ++ two 128 ex ++ two 128 efi) 0 1024

/-- A plan request of partition `p` (R213): the result or its CODE is written, PLAN_CODE is set and the plan-done event raised. -/
def State.sqPlan (s : State) (p : Nat) : State :=
  let a := s.fget (SCH_SQ_PLAN_BASE p) * 2 ^ 11
  let stages := match s.bunt p with | some b => b.stages | none => 0
  let s' := { s with freeN := s.freeN + stages }
  let (code, out) := match s.memGet p a 1024, s.bunt p with
    | some q, some b =>
      if planBad b q then (1, none)
      else if !s.fbit (SCH_SQ_STATUS_FORMED p) then (4, none)
      else
        let (r, code) := planGo b q (fun i => leAt (s.buntEnt p i) 0x10 4) (fun i => leAt (s.buntEnt p i) 0x14 2)
          (fun i => (Config.fresh (s.freeN + i)).toNat % 2 ^ 16)
        (code, if code = 0 then some (planResult r) else none)
    | none, _ => (1, none)
    | _, none => (4, none)
  let s := match out with
    | some b => s'.memPut p sqSrc (a + 0x400) b .inPlace
    | none => s'.memPut p sqSrc (a + 0x400) [byteOf code] .inPlace
  (s.fset (SCH_SQ_STATUS_PLAN_CODE p) code).noteEv 0x0E 0 p (Config.evDetail 0x0E).toNat

end Sys2Proof.Machine
end

