-- ==== Sys2Proof/Machine/Clocks.lean ====
section
/-!
DEFINITION. Clock sources, the clock monitor, the root PLL and the arithmetic frequency (R362 to R372).
-/
namespace Sys2Proof.Machine

/-- Is the recovered clock available (R362)? -/
def State.recAvail (s : State) : Bool :=
  let j := s.fget CLK_SRC_RECOV_PORT
  s.fbit CLK_SRC_RECOV_EN && s.portThere j &&
    (match s.fab.image with | some i => i.dev.portMode.getD j 0 != 0 | none => false) && s.fbit (ETH_LINK_UP j 0)

/-- Is a source passing: 0 REFCLK, 1 the recovered clock, 2 the oscillator? -/
def State.srcPasses (s : State) : Nat → Bool
  | 0 => s.fbit CLK_MON_STATUS_REF_OK
  | 1 => s.fbit CLK_MON_STATUS_RECOV_OK && s.recAvail
  | _ => true

/-- The first passing source in the order of R362. -/
def State.firstSrc (s : State) : Nat := if s.srcPasses 0 then 0 else if s.srcPasses 1 then 1 else 2

/-- The source in use fails (R366): holdover, the next source is selected and relocking begins; the event is non-maskable. -/
def State.srcFail (s : State) : State :=
  let s := s.fset CLK_SRC_HOLDOVER 1
  let s := { s with clk := { s.clk with relock := some (s.firstSrc, true), failWin := true } }
  s.allEv 0x20 3 (Config.evCode 0x20).toNat (Config.evDetail 0x20).toNat true false

/-- An earlier source that passes again replaces the source in use, with REVERT at 1; in the window of a failure the failure stands (R367). -/
def State.srcRevert (s : State) : State :=
  if s.fbit CLK_SRC_REVERT && s.clk.relock.isNone && !s.clk.failWin && decide (s.firstSrc < s.fget CLK_SRC_ACTIVE) && s.fbit CLK_PLL_STATUS_LOCKED then
    { s with clk := { s.clk with relock := some (s.firstSrc, false) } }.devEv 0x21 0 (Config.evCode 0x21).toNat (Config.evDetail 0x21).toNat
  else s

/-- REFCLK is found failed (R365). -/
def State.refFails (s : State) : State :=
  let s := (s.fset CLK_MON_STATUS_REF_OK 0).fset CLK_MON_STATUS_REF_FAIL 1
  let s := { s with clk := { s.clk with refFailed := true, refGood := 0 } }
  s

/-- The recovered clock is found failed (R365). -/
def State.recFails (s : State) : State :=
  let s := (s.fset CLK_MON_STATUS_RECOV_OK 0).fset CLK_MON_STATUS_RECOV_FAIL 1
  { s with clk := { s.clk with recFailed := true, recGood := 0 } }

/-- After a check: RECOV_OK is for an available clock only, whose windows count as consecutive only while it is available (R364), and the source in use has failed if it was passing before and is not now. -/
def State.afterCheck (before s : State) : State :=
  let s := if s.recAvail then s else { s with clk := { s.clk with recGood := 0 } }.fset CLK_MON_STATUS_RECOV_OK 0
  let a := s.fget CLK_SRC_ACTIVE
  if a < 2 ∧ before.srcPasses a ∧ !s.srcPasses a then s.srcFail else s

/-- Windows that must pass after a failure (R364). -/
def State.recoverWindows (s : State) : Nat := max 1 (s.fget CLK_MON_CFG_RECOVER_WINDOWS)

/-- A window within tolerance for REFCLK. -/
def State.refGoodWin (s : State) : State :=
  let g := s.clk.refGood + 1
  let ok := !s.clk.refFailed || decide (s.recoverWindows ≤ g)
  let s := { s with clk := { s.clk with refGood := if ok then 0 else g, refFailed := !ok } }
  if ok then s.fset CLK_MON_STATUS_REF_OK 1 else s

/-- A window within tolerance for the recovered clock. -/
def State.recGoodWin (s : State) : State :=
  let g := s.clk.recGood + 1
  let ok := !s.clk.recFailed || decide (s.recoverWindows ≤ g)
  let s := { s with clk := { s.clk with recGood := if ok then 0 else g, recFailed := !ok } }
  if ok then s.fset CLK_MON_STATUS_RECOV_OK 1 else s

/-- The end of a window with its two counts (R364, R365, R367). After OSC_FAIL no frequency is checked. A window that held a missing edge
is not one within tolerance. -/
def State.windowEnd (s : State) (ref rec_ : Nat) : State :=
  let before := s
  let tol := max 1 (s.fget CLK_MON_CFG_TOL)
  let dev := fun c : Nat => (c : Int) - 15625
  let out := fun c : Nat => decide ((tol : Int) < (dev c).natAbs)
  let avail := s.recAvail
  let rm := s.clk.refMiss
  let cm := s.clk.recMiss
  let s := s.fset CLK_MON_STATUS_REF_COUNT (min 0xFFFF ref)
  let s := { s with clk := { s.clk with refMiss := false, recMiss := false } }
  let s :=
    if s.clk.oscBad then s
    else
      let refBad := out ref
      let recBad := avail && out rec_
      let same := decide (0 < dev ref * dev rec_) && decide ((dev ref - dev rec_).natAbs ≤ tol)
      if refBad && recBad && same then
        ({ s with clk := { s.clk with oscBad := true } }.fset CLK_MON_STATUS_OSC_FAIL 1).allEv 0x22 3 (Config.evCode 0x22).toNat (Config.evDetail 0x22).toNat true false
      else
        let s := if refBad then s.refFails else if rm then s else s.refGoodWin
        if !avail then s else if recBad then s.recFails else if cm then s else s.recGoodWin
  let s := (before.afterCheck s).srcRevert
  { s with clk := { s.clk with failWin := false } }

/-- No edge of a clock for 64 oscillator cycles (R364): 0 REFCLK, 1 the recovered clock, where it is available or in use. -/
def State.missingEdge (s : State) (c : Nat) : State :=
  if c = 0 then s.afterCheck { s.refFails with clk := { s.refFails.clk with refMiss := true } }
  else if s.recAvail || s.fget CLK_SRC_ACTIVE == 1 then s.afterCheck { s.recFails with clk := { s.recFails.clk with recMiss := true } }
  else s

/-- The PLL has locked to the selected source (R366 steps 2 and 3, R367); if that source has failed meanwhile, R366 applies again. -/
def State.relockDone (s : State) : State :=
  match s.clk.relock with
  | none => s
  | some (src, _) =>
    let s := { s with clk := { s.clk with relock := none } }
    let s := (s.fsets [(CLK_SRC_ACTIVE, src), (CLK_SRC_HOLDOVER, 0), (CLK_PLL_STATUS_LOCKED, 1)]).fsat CLK_PLL_STATUS_SWITCHES 1
    if s.srcPasses src then s.srcRevert else s.srcFail

/-- The PLL's first lock after a device reset (R367, R461 stage 2). -/
def State.firstLock (s : State) : State := s.fsets [(CLK_SRC_ACTIVE, s.firstSrc), (CLK_PLL_STATUS_LOCKED, 1)]

/-- One step of K towards TARGET (R371); none while the arithmetic clock is stopped (R369, R401). -/
def State.kStep (s : State) : State :=
  let k := s.fget CLK_ARITH_K
  let t := s.fget CLK_ARITH_TARGET
  if s.clk.divBusy ∨ s.asleep then s
  else if k < t then s.fset CLK_ARITH_K (k + 1) else if t < k then s.fset CLK_ARITH_K (k - 1) else s

/-- The target set by the controller, within the limits (R372). -/
def State.setTarget (s : State) (k : Nat) : State := s.fset CLK_ARITH_TARGET (clamp s.kMin s.kMax k)

/-- A write of CLK_ARITH_LIMIT (R372): both fields, and the target moved to the nearer limit. -/
def State.arithLimit (s : State) (v : Nat) : State :=
  let s := s.fsets [(CLK_ARITH_LIMIT_K_MIN, bitsAt v 0 7), (CLK_ARITH_LIMIT_K_MAX, bitsAt v 16 7)]
  if s.asleep then s else s.setTarget (s.fget CLK_ARITH_TARGET)

def execMonitorWindowEnd (ref rec_ : Nat) (s : State) : Host.Outcome State Fault Refusal := .next (s.windowEnd ref rec_)
def execMissingEdge (c : Nat) (s : State) : Host.Outcome State Fault Refusal := onUnit (c < 2) (s.missingEdge c)
def execPllRelockComplete (s : State) : Host.Outcome State Fault Refusal := .next s.relockDone
def execArithKStep (s : State) : Host.Outcome State Fault Refusal := .next s.kStep

end Sys2Proof.Machine
end

