-- ==== Sys2Proof/Machine/Events.lean ====
section
/-!
DEFINITION. Delivery of events to partition rings and management sessions (R431 to R439, R467), the device-fatal state (R440), the
administrative state of units (R441), the ledger (R443 to R446) and the logbook's records (R427, R428).
-/
namespace Sys2Proof.Machine

-- Functions -----------------------------------------------------------------------------------------------------------------------------

/-- The function that serves partition `p` (R339): p + 1 if enabled, else function 0 if bound to it. -/
def State.fnOf (s : State) (p : Nat) : Option Nat :=
  if bitAt (s.fget HIF_BIND_FN_EN) p = 1 then some (p + 1) else if s.fget HIF_BIND_F0_PARTITION = p then some 0 else none

/-- The partition that function `f` is bound to (R339). -/
def State.fnPart (s : State) (f : Nat) : Option Nat :=
  if f = 0 then (if s.fget HIF_BIND_F0_PARTITION < 16 then some (s.fget HIF_BIND_F0_PARTITION) else none)
  else if f ≤ 16 ∧ bitAt (s.fget HIF_BIND_FN_EN) (f - 1) = 1 then some (f - 1) else none

-- The logbook ---------------------------------------------------------------------------------------------------------------------------

/-- The latest record of the logbook, in flash or still held. -/
def State.lastRec (s : State) : Option (List Byte) := (s.sec.held.getLast?).orElse (fun _ => s.nv.log.head?)

/-- A logbook record (R427) with the next SEQ. -/
def State.logRec (s : State) (role cred op status count : Nat) (arg : List Byte) : List Byte :=
  leBytes 8 s.nv.logSeq ++ leBytes 8 s.now ++ leBytes 4 s.nv.boots ++ leBytes 1 role ++ leBytes 1 cred ++ leBytes 2 op ++ leBytes 2 status ++
    leBytes 2 count ++ leBytes 4 0 ++ bytesAt arg 0 16 ++ (match s.lastRec with | some r => shake256 r 16 | none => List.replicate 16 0)

/-- The held records reach the flash ring of 262,144 records, oldest first. -/
def State.logFlush (s : State) : State :=
  { s with nv := { s.nv with log := (s.sec.held.reverse ++ s.nv.log).take 262144 }, sec := { s.sec with held := [] } }

/-- The open shared record is closed: it never changes again (R427). -/
def State.logClose (s : State) : State :=
  match s.sec.openRec with
  | none => s
  | some r => { s with sec := { s.sec with openRec := none, held := s.sec.held ++ [r.bytes] } }

/-- A record joins the logbook: held (an operator's), or in flash at once. -/
def State.logPut (s : State) (flash : Bool) (role cred op status : Nat) (arg : List Byte) : State :=
  let s := s.logClose
  let s := { s with sec := { s.sec with held := s.sec.held ++ [s.logRec role cred op status 1 arg] }, nv := { s.nv with logSeq := s.nv.logSeq + 1 } }
  if flash then s.logFlush else s

/-- A record that the device makes on its own (ROLE 0xFF). -/
def State.logDevice (s : State) (op status : Nat) (arg : List Byte) : State := s.logPut true 0xFF 0xFF op status arg

/-- A device record of something that is no operation (log entry 7). -/
def State.logOwn (s : State) (what : Nat) (arg : List Byte) : State := s.logDevice (Config.recOp what).toNat (Config.recStatus what).toNat arg

-- The ledger ----------------------------------------------------------------------------------------------------------------------------

/-- The ledger's counts as they stand now: those carried from earlier boots with those since reset (R444). -/
def State.ledgerNow (s : State) : Ledger :=
  { s.led with
    powerOn := s.led.powerOn + s.gen.onUs / 1000000
    energy := s.led.energy + s.fget PWR_ENERGY_TOTAL_UJ / 1000000 }

/-- The bytes of a fault record beside its SEQ (R445), and its place in the ring. -/
def State.recordPut (s : State) (r : List Byte) : State :=
  { s with nv := { s.nv with faults := ((leBytes 8 s.nv.faultSeq ++ r) :: s.nv.faults).take 524288, faultSeq := s.nv.faultSeq + 1 } }

/-- The flash takes ledger writes again: the fault records that waited with the failed write follow it (R443). -/
def State.recordsOut (s : State) : State :=
  s.gen.recs.foldl State.recordPut { s with gen := { s.gen with flashBad := false, recs := [] } }

/-- A ledger write fails (R443): WRITE_FAULT, its event, and a retry every 15 s. -/
def State.writeFails (s : State) : State :=
  ({ s with gen := { s.gen with flashBad := true } }.fset LDG_STATUS_WRITE_FAULT 1).devEv 0x26 2 (Config.evCode 0x26).toNat
    (Config.evDetail 0x26).toNat

/-- A snapshot written with its REASON into the ring of 256 (R443, R444); a failed one is due again. -/
def State.snapshot (s : State) (reason : Nat) (ok : Bool) : State :=
  if ok then
    let new : Snap := ⟨((s.nv.snap.map Snap.seq).getD 0 + 1 : Nat), s.nv.boots, reason, s.ledgerNow⟩
    { s with nv := { s.nv with snaps := (new :: s.nv.snaps).take 256 } }.recordsOut.fset LDG_STATUS_LAST_REASON reason
  else { s with gen := { s.gen with snaps := s.gen.snaps ++ [reason] } }.writeFails

/-- A snapshot is due (R443). -/
def State.snapDue (s : State) (reason : Nat) : State := { s with gen := { s.gen with snaps := s.gen.snaps ++ [reason] } }

/-- A change of a persistent fact (R443): a snapshot is due within 1 s. -/
def State.ledFact (s : State) (led : Ledger) : State := { s with led }.snapDue 4

/-- LEDGER_SNAPSHOT: the oldest snapshot that is due, else the periodic one. -/
def State.ledgerSnapshot (s : State) (ok : Bool) : State :=
  match s.gen.snaps with
  | r :: rest => { s with gen := { s.gen with snaps := rest } }.snapshot r ok
  | [] => s.snapshot 1 ok

/-- The retry of a failed write (R443). -/
def State.ledgerRetry (s : State) (ok : Bool) : State :=
  match s.gen.snaps with
  | r :: rest => { s with gen := { s.gen with snaps := rest } }.snapshot r ok
  | [] => s

/-- Counts as little-endian fields of `w` bytes from a table. -/
def ledBytes (w n : Nat) (m : NMap Nat) : List Byte := (List.range n).flatMap (fun i => leBytes w (min (2 ^ (8 * w) - 1) (mget 0 m i)))

/-- A bitmap of `n` bytes. -/
def maskBytes (n : Nat) (m : NSet) : List Byte := leBytes n (m.foldl (fun a i => setBit a i) 0)

/-- The bytes of a snapshot from offset 0x40 (R444). -/
def State.snapBody (s : State) (l : Ledger) : List Byte :=
  let z := fun n => List.replicate n (0 : Byte)
  leBytes 8 l.powerOn ++ leBytes 8 l.energy ++ leBytes 4 l.cycles ++ leBytes 4 l.furls ++ leBytes 4 l.exceeded ++ leBytes 8 (l.throttle / 1000) ++
    leBytes 1 l.peak ++ z 27 ++
  z 0x80 ++ maskBytes 24 l.failed ++ z 8 ++ maskBytes 32 l.mapped ++
  (List.range 152).flatMap (fun t => leBytes 2 ((mfind l.aged t).getD (s.fusedMhz t))) ++ z 0x90 ++
  (List.range 152).flatMap (fun t => leBytes 4 (mget 0 l.meas t) ++ leBytes 4 (mget 0 l.drift t)) ++ z 0x840 ++
  ledBytes 8 256 l.ce ++ ledBytes 4 256 l.ue ++ z 0x400 ++ ledBytes 4 2048 l.eye ++ ledBytes 8 256 l.fec ++ ledBytes 4 64 l.linkDown ++
  ledBytes 4 320 ((l.temp.map (fun e => (e.1, e.2 / 100)))) ++ z 0x1B200

/-- The 128 KiB of a snapshot. -/
def State.snapBytes (s : State) (n : Snap) : List Byte :=
  let body := s.snapBody n.led
  [0x4C, 0x44, 0x47, 0x39] ++ leBytes 2 1 ++ leBytes 8 n.seq ++ leBytes 4 n.boots ++ leBytes 1 n.reason ++ shake256 body 16 ++
    List.replicate 29 0 ++ body

/-- Appends a fault record (R445). While a failed ledger write waits for its retry, the flash takes no record either: WRITE_FAULT is set and the record
is written with the retry (R443, log entry 210). -/
def State.faultRecord (s : State) (ev : List Byte) : State :=
  let r := leBytes 8 s.now ++ leBytes 4 s.nv.boots ++ leBytes 4 0 ++ bytesAt ev 0 32 ++ leBytes 8 0
  if s.gen.flashBad then { s with gen := { s.gen with recs := s.gen.recs ++ [r] } }.fset LDG_STATUS_WRITE_FAULT 1
  else s.recordPut r

-- Delivery ------------------------------------------------------------------------------------------------------------------------------

/-- FLAGS of an event record. -/
def Ev.flags (e : Ev) : Nat := b2n e.nmi + 2 * b2n e.pennant + 4 * b2n e.esc

/-- The 32-byte event record (R431). -/
def Ev.bytes (e : Ev) (part seq detail : Nat) : List Byte :=
  leBytes 2 e.typ ++ leBytes 1 e.sev ++ leBytes 1 e.flags ++ leBytes 2 e.src ++ leBytes 1 part ++ leBytes 1 0 ++ leBytes 4 seq ++
    leBytes 4 e.code ++ leBytes 8 detail ++ leBytes 8 e.time

/-- Slots of the event ring of `p`. -/
def State.evtSlots (s : State) (p : Nat) : Nat := 2 ^ clamp 4 12 (s.fget (EVT_P_CFG_SIZE_LOG2 p))

/-- A vector of the function that serves `p`; held while `p` is host-lost (R433, R434). -/
def State.evtIrq (s : State) (p : Nat) : State :=
  if s.hostLost p then { s with evt := { s.evt with irqHeld := sins s.evt.irqHeld p } }
  else match s.fnOf p with
    | some f => s.msix f (s.fget (EVT_P_CFG_VECTOR p))
    | none => s

/-- A record for the ring of `p`, whose ENABLE is 1 (R431, R439, R467). -/
def State.evtRing (s : State) (p : Nat) (e : Ev) (detail : Nat) : State :=
  let head := s.fget (EVT_P_PTR_HEAD p)
  if ahead 16 head (s.fget (EVT_P_PTR_TAIL p)) ≥ s.evtSlots p then
    (s.fsat (EVT_P_LOST_COUNT p) 1).fset (EVT_P_STATUS_RING_FULL p) 1
  else
    let a := s.fget (EVT_P_RING_BASE_BASE p) * 32 + 32 * (head % s.evtSlots p)
    let seq := mget 0 s.evt.seq p
    let (s1, r) := s.memWrite p a (e.bytes p seq detail) .inPlace
    if r.out.isEmpty && r.absent.isEmpty && r.ro.isEmpty then
      if r.bad.isEmpty then { s1 with evt := { s1.evt with seq := mset 0 s1.evt.seq p ((seq + 1) % 2 ^ 32) } }.fset (EVT_P_PTR_HEAD p) (head + 1)
      else s1.fsat (EVT_P_LOST_COUNT p) 1
    else (s.fsat (EVT_P_LOST_COUNT p) 1).broke p eventSrc r

/-- The message on the pennant connection (R435). -/
def State.pennantSend (s : State) (p : Nat) (e : Ev) (detail : Nat) : State :=
  let c := s.fget (EVT_P_PENNANT_CONN_CONN p)
  let open_ := match mfind s.zt.ctx (c % 2 ^ 20) with
    | some x => x.part == p && x.state == 3 && mget 0 s.zt.gens (c % 2 ^ 20) == c / 2 ^ 20
    | none => false
  if !e.pennant || c == 0xFFFFFFFF || !open_ then s
  else s.zSend { zMsg p c 5 (some (s.fget (EVT_P_PENNANT_ADDR_ADDR p))) none (e.bytes p (mget 0 s.evt.seq p) detail) with imm := e.typ }

/-- Delivery to one partition (R433, R434). -/
def State.evtPart (e : Ev) (s : State) (d : Nat × Nat) : State :=
  let p := d.1
  let s := s.pennantSend p e d.2
  if s.fbit (EVT_P_CFG_ENABLE p) then
    if e.nmi then s.evtRing p e d.2
    else if e.sev ≥ s.fget (EVT_P_CFG_MIN_SEV p) then
      let s := s.evtRing p e d.2
      if s.fbit (EVT_P_CFG_IRQ p) then s.evtIrq p else s
    else s
  else if e.nmi then s.fset (EVT_P_STATUS_NMI_PENDING p) 1 else s

/-- An NMI goes to every partition: to the enabled rings, NMI_PENDING of the others, and the vector of every served partition (R434). -/
def State.evtNmi (e : Ev) (s : State) : State :=
  let d := fun p => ((e.parts.find? (·.1 == p)).map (·.2)).getD e.detail
  let s := (List.range 16).foldl (fun s p => s.evtPart e (p, d p)) s
  (List.range 16).foldl (fun s p => if (s.fnOf p).isSome then s.evtIrq p else s) s

/-- PARTITION of an event's record for the management path: the partition concerned, where there is one (R433). -/
def Ev.concerned (e : Ev) : Nat :=
  match e.part, e.parts with
  | some p, _ => p
  | none, [d] => d.1
  | none, _ => 0xFF

/-- The partitions whose ring took a record between two states. -/
def State.received (before s : State) : Nat :=
  (List.range 16).foldl (fun a p => if s.fget (EVT_P_PTR_HEAD p) = before.fget (EVT_P_PTR_HEAD p) then a else setBit a p) 0

/-- Delivery to the sessions (R433): the record, the DPA and the mask of the partitions that received it. -/
def State.evtMgmt (s : State) (e : Ev) (mask : Nat) : State :=
  let part := e.concerned
  let body := e.bytes part 0 e.detail ++ leBytes 8 e.dpa ++ leBytes 2 mask ++ List.replicate 22 0
  let low := min 4 (s.fget EVT_MGMT_CFG_MIN_SEV)
  s.sec.sess.foldl (fun s x => if e.nmi || (x.2.subscribed && decide (low ≤ e.sev)) then s.emit (.jexEvent x.1 body) else s) s

/-- One event is delivered (R433 to R435, R445). -/
def State.deliverEv (s : State) (e : Ev) : State :=
  let t := if e.typ = 0x30 ∧ e.code = 4 then s else if e.nmi then s.evtNmi e else e.parts.foldl (State.evtPart e) s
  let t := t.evtMgmt e (s.received t)
  if e.sev ≥ 2 ∨ e.typ = 0x20 ∨ e.typ = 0x22 then t.faultRecord (e.bytes e.concerned 0 e.dpa) else t

/-- The next event: a pennant goes ahead of every other (R435). -/
def State.deliver (s : State) : State :=
  match s.evt.pend with
  | [] => s
  | e0 :: _ =>
    let e := (s.evt.pend.find? (·.pennant)).getD e0
    { s with evt := { s.evt with pend := s.evt.pend.erase e } }.deliverEv e

-- Device-fatal --------------------------------------------------------------------------------------------------------------------------

/-- A device-fatal event (R440): FAULT_N, EVT_FATAL, the pennant and a snapshot. A later cause changes nothing, but for a rail fault, which turns the
device off whatever came before (R451). -/
def State.goFatal (s : State) (cause : Nat) : State :=
  if s.fatal ∧ cause ≠ 4 then s else
  let s := s.fsets [(GEN_PINS_FAULT_N, 0), (EVT_FATAL_VALID, 1), (EVT_FATAL_CAUSE, cause), (EVT_STATUS_FATAL, 1)]
  let s := { s with gen := { s.gen with alert := true } }
  (s.allEv 0x30 4 cause (Config.evDetail 0x30).toNat true true).snapDue 4

-- Management and data paths (R441) ---------------------------------------------------------------------------------------------------------

/-- Does the data path report tile `t`, ligature unit `u` or port `j` as faulty? -/
def State.tileFaulty (s : State) (t : Nat) : Bool := s.role t == 3 || s.role t == 4 || s.role t == 5
def State.ligFaulty (s : State) (u : Nat) : Bool := s.lig.any (fun e => e.2.bad.any (fun l => l.1 == u))
def State.portFaulty (s : State) (j : Nat) : Bool :=
  let m := s.fget (ETH_STATUS_MODE j)
  s.eth.fecBad.contains j || (List.range (if m = 4 then 4 else m)).any (fun k => !s.fbit (ETH_LINK_UP j k))

/-- A write that enables a faulty unit is a management conflict (R441). -/
def State.conflict (s : State) : State :=
  (s.devEv 0x25 1 (Config.evCode 0x25).toNat (Config.evDetail 0x25).toNat).logOwn 0 []

/-- A write of EVT_ADMIN_TILEn. -/
def State.adminTile (s : State) (n v : Nat) : State :=
  let old := s.fget (EVT_ADMIN_TILE_DISABLE n)
  let v := if n = 4 then v % 2 ^ 24 else v
  let en := (bitsOf old 32).filter (fun j => !v.testBit j)
  en.foldl (fun s j => if s.tileFaulty (32 * n + j) then s.conflict else s) (s.fset (EVT_ADMIN_TILE_DISABLE n) v)

/-- A write of EVT_ADMIN_UNIT. -/
def State.adminUnit (s : State) (v : Nat) : State :=
  let oldL := s.fget EVT_ADMIN_UNIT_LIG_DISABLE
  let oldP := s.fget EVT_ADMIN_UNIT_PORT_DISABLE
  let l := bitsAt v 0 8
  let p := bitsAt v 8 16
  let s := s.fsets [(EVT_ADMIN_UNIT_LIG_DISABLE, l), (EVT_ADMIN_UNIT_PORT_DISABLE, p)]
  let s := ((bitsOf oldL 8).filter (fun u => !l.testBit u)).foldl (fun s u => if s.ligFaulty u then s.conflict else s) s
  ((bitsOf oldP 16).filter (fun j => !p.testBit j)).foldl (fun s j => if s.portFaulty j then s.conflict else s) s

def execEventDelivery (s : State) : Host.Outcome State Fault Refusal := .next s.deliver
def execLedgerSnapshot (ok : Bool) (s : State) : Host.Outcome State Fault Refusal := .next (s.ledgerSnapshot ok)
def execLedgerWriteRetry (ok : Bool) (s : State) : Host.Outcome State Fault Refusal := .next (s.ledgerRetry ok)
def execControlStoreParityError (s : State) : Host.Outcome State Fault Refusal := .next (s.goFatal 3)
def execD2dRetryExhausted (s : State) : Host.Outcome State Fault Refusal := .next (s.goFatal 1)
def execD2dBlockRetry (s : State) : Host.Outcome State Fault Refusal := .next s
def execEntropyFailure (s : State) : Host.Outcome State Fault Refusal := .next ((s.fset SEC_STATUS_RNG_FAULT 1).goFatal 2)

end Sys2Proof.Machine
end

