-- ==== Sys2Proof/Machine/Sched.lean ====
section
/-!
DEFINITION. The scheduler (chapter 08): task descriptors and their checks (R187, R190, R209), readiness (R194), rounds and placement
(R195, R196), launches and the page cache (R191, R192), completion (R193), models (R200, R201), paging (R203, R204), pre-emption and
spilling (R205 to R207).
-/
namespace Sys2Proof.Machine

-- Descriptors -------------------------------------------------------------------------------------------------------------------------------

/-- Page and touch entries of a launch record (R190). -/
structure PageE where
  vpage : Nat
  mode : Nat
  reuse : Bool
  modelRel : Bool
  stride : Nat
  src : Nat
  rsv : Bool
  deriving DecidableEq, Repr

def parsePage (b : List Byte) : PageE :=
  ⟨leAt b 0 1, leAt b 1 1, (leAt b 2 1).testBit 0, (leAt b 2 1).testBit 1, leAt b 4 4, leAt b 8 8,
   decide (leAt b 2 1 ≥ 4) || leAt b 3 1 != 0⟩

def recPages (rcd : List Byte) : List PageE := (List.range (leAt rcd 0x1C 1)).map (fun i => parsePage (bytesAt rcd (64 + 16 * i) 16))

/-- Touch entries: base, pages, FLAGS. -/
def recTouch (rcd : List Byte) : List (Nat × Nat × Nat) :=
  (List.range (leAt rcd 0x1D 1)).map (fun i =>
    let o := 64 + 16 * leAt rcd 0x1C 1 + 16 * i
    (leAt rcd o 8, leAt rcd (o + 8) 4, leAt rcd (o + 0xC) 4))

/-- The pages of the paged window that a launch record touches. -/
def touchPages (rcd : List Byte) : List Nat :=
  (recTouch rcd).flatMap (fun e => (List.range e.2.1).map (fun i => (e.1 - pagedBase) / 2 ^ 21 + i))

-- Models (R200, R201) -----------------------------------------------------------------------------------------------------------------------

/-- Does the partition keep a hot set (R200)? -/
def State.hotset (s : State) (p : Nat) : Bool := s.fbit (SCH_PSTATUS_HOTSET p)

def State.modelAddr (s : State) (p m : Nat) : Nat := s.fget (SCH_MODEL_BASE_BASE p) * 256 + 32 * m

/-- Entry `m` of the model table. -/
def State.modelEnt (s : State) (p m : Nat) : List Byte := (s.memGet p (s.modelAddr p m) 32).getD []

/-- The scheduler's read of entry `m` as an access (R56, R272). -/
def State.modelSee (s : State) (p m : Nat) : State := s.memSee p schedSrc (s.modelAddr p m) 32

def meFlags (e : List Byte) : Nat := leAt e 0 1
def meState (e : List Byte) : Nat := leAt e 2 1
def meHost (e : List Byte) : Nat := leAt e 8 8
def meDev (e : List Byte) : Nat := leAt e 0x10 8
def meBytes (e : List Byte) : Nat := leAt e 0x18 8

/-- Is model `m` resident: a SHARED one whenever its region exists (R201)? -/
def State.modelResident (s : State) (p m : Nat) : Bool :=
  let e := s.modelEnt p m
  if (meFlags e).testBit 2 then (s.shared (leAt e 1 1)).isSome else meState e == 2

/-- Where model `m` lies. -/
def State.modelPlace (s : State) (p m : Nat) : Nat :=
  let e := s.modelEnt p m
  if (meFlags e).testBit 2 then sharedBase + leAt e 1 1 * sharedStep else meDev e

/-- The scheduler's write of a model's STATE and DEV_ADDR. -/
def State.setModel (s : State) (p m st : Nat) (dev : Option Nat) : State :=
  let s := s.memPut p schedSrc (s.modelAddr p m + 2) (leBytes 1 st) .inval
  match dev with
  | some a => s.memPut p schedSrc (s.modelAddr p m + 0x10) (leBytes 8 a) .inval
  | none => s

/-- Places in the hot-set area that are taken: first address and bytes. -/
def State.modelTaken (s : State) (p : Nat) : List (Nat × Nat) :=
  (List.range 8).filterMap (fun m =>
    let e := s.modelEnt p m
    if !(meFlags e).testBit 2 && (meState e == 1 || meState e == 2) then some (meDev e, meBytes e) else none)

/-- The lowest 2 MiB-aligned address of the hot-set area where `n` bytes fit. -/
def State.modelFit (s : State) (p n : Nat) : Option Nat :=
  let base := s.fget (SCH_HOTSET_BASE_BASE p) * 2 ^ 21
  let top := base + s.fget (SCH_HOTSET_SIZE_PAGES p) * 2 ^ 21
  let taken := s.modelTaken p
  minBy id ((base :: taken.map (fun e => (e.1 + e.2 + 2 ^ 21 - 1) / 2 ^ 21 * 2 ^ 21)).filter (fun a =>
    decide (base ≤ a ∧ a + n ≤ top) && taken.all (fun e => decide (a + n ≤ e.1 ∨ e.1 + e.2 ≤ a))))

/-- May model `m` be evicted: resident, neither PINNED nor SHARED, and named by no queued or running task? -/
def State.modelEvictable (s : State) (p m : Nat) : Bool :=
  let e := s.modelEnt p m
  meState e == 2 && !(meFlags e).testBit 1 && !(meFlags e).testBit 2 && ((s.sp p).tasks.all (fun k => k.2.d.model != m))

/-- The model to evict where `n` bytes do not fit: the least recently dispatched (R201). -/
def State.modelVictim (s : State) (p n : Nat) : Option Nat :=
  if (s.modelFit p n).isSome then none
  else minBy (fun m => mget 0 (s.sp p).modelUse m) ((List.range 8).filter (s.modelEvictable p))

/-- Evicts models until `n` bytes fit or none is left to evict (R201). -/
def State.modelRoom (p n : Nat) : Nat → State → State
  | 0, s => s
  | k + 1, s => (s.modelVictim p n).elim s (fun m => State.modelRoom p n k (s.setModel p m 0 none))

/-- The scheduler's fields of a SHARED model: resident at its region's first address whenever the region exists (R200, R201). -/
def State.modelShared (s : State) (p m : Nat) (e : List Byte) : State :=
  let here := (s.shared (leAt e 1 1)).isSome
  let dev := sharedBase + leAt e 1 1 * sharedStep
  if meState e = (if here then 2 else 0) && (!here || meDev e = dev) then s
  else if here then s.setModel p m 2 (some dev) else s.setModel p m 0 none

/-- MODEL_LOAD_START: an absent model's load starts where a place exists, if need be after every eviction that is allowed (R201); while the host is
lost nothing is read (R358). -/
def State.modelStart (s : State) (p m : Nat) : State :=
  let s := s.modelSee p m
  let e := s.modelEnt p m
  if !(meFlags e).testBit 0 then s
  else if (meFlags e).testBit 2 then s.modelShared p m e
  else if meState e != 0 then s else
  let s := State.modelRoom p (meBytes e) 8 s
  match s.modelFit p (meBytes e) with
  | some a => s.setModel p m 1 (some a)
  | none => s

/-- Every absent model that a task names starts its load, in order of arrival. -/
def State.modelsWant (s : State) (p : Nat) : State :=
  (s.sp p).tasks.foldl (fun s e => if e.2.d.model < 8 && s.hotset p then s.modelStart p e.2.d.model else s) s

/-- MODEL_LOAD_COMPLETE: the copy of BYTES from HOST_ADDR is there, and the model is resident (R201). -/
def State.modelDone (s : State) (p m : Nat) : State :=
  let s := s.modelSee p m
  let e := s.modelEnt p m
  if meState e ≠ 1 || s.hostLost p then s else
  let s := s.memPut p schedSrc (meDev e) (s.hostRead (meHost e) (meBytes e)) .inval
  (s.setModel p m 2 none).modelsWant p

-- Paging (R203, R204) -----------------------------------------------------------------------------------------------------------------------

def State.pageAddr (s : State) (p g : Nat) : Nat := s.fget (SCH_PAGE_TABLE_BASE p) * 2 ^ 12 + 8 * g

def State.setPage (s : State) (p g v : Nat) : State := s.memPut p schedSrc (s.pageAddr p g) (leBytes 8 v) .inval

def State.frameAddr (s : State) (p f : Nat) : Nat := (s.fget (SCH_PAGE_FRAMES_BASE p) + f) * 2 ^ 21

def State.pageResident (s : State) (p g : Nat) : Bool := s.pageEntry p g % 4 == 1

/-- A frame for a page-in: a free one, lowest first; else the least recently used whose page is not pinned (R204). -/
def State.frameFor (s : State) (p : Nat) : Option Nat :=
  let sp := s.sp p
  let all := List.range (s.fget (SCH_PAGE_CFG_FRAMES p))
  match all.find? (fun f => !mhas sp.frames f && !(sp.transit.any (fun e => e.2 == f))) with
  | some f => some f
  | none =>
    minBy (fun f => mget 0 sp.frameUse f) (all.filter (fun f => match mfind sp.frames f with | some g => mget 0 sp.pins g == 0 | none => false))

/-- The page in frame `f` is written to its place in host memory. -/
def State.pageBack (s : State) (p f g : Nat) : State :=
  let r := s.memRead p (s.frameAddr p f) (2 ^ 21) .inval
  (r.1.broke p schedSrc r.2).hostWrite (s.fget (SCH_PAGE_HOST_BASE p) * 2 ^ 21 + 2 ^ 21 * g) r.2.bytes

/-- The page of a frame leaves it; a DIRTY one is written back to host memory first (R204). -/
def State.pageOut (s : State) (p f : Nat) : State :=
  match mfind (s.sp p).frames f with
  | none => s
  | some g =>
    let s := s.readEntry p (pagedBase + 2 ^ 21 * g)
    let s := if (s.pageEntry p g).testBit 2 then s.pageBack p f g else s
    (s.setSp p { s.sp p with frames := mdel (s.sp p).frames f }).setPage p g 0

/-- A page-in starts, if a frame can be had and the host is there (R204). -/
def State.pageIn (s : State) (p g : Nat) : State :=
  let s := s.readEntry p (pagedBase + 2 ^ 21 * g)
  if s.pageEntry p g % 4 ≠ 0 || mhas (s.sp p).transit g then s
  else if s.hostLost p then s.fset (SCH_PSTATUS_PAGING_STALLED p) 1
  else
    match s.frameFor p with
    | none => s
    | some f =>
      let s := s.pageOut p f
      (s.setSp p { s.sp p with transit := mins (s.sp p).transit g f }).setPage p g (f * 2 ^ 32 + 2)

/-- The pages that queued tasks touch and that counted demand accesses wait for are paged in. -/
def State.pagesWant (s : State) (p : Nat) : State :=
  let sp := s.sp p
  let touch := sp.tasks.flatMap (fun e => if e.2.st == .queued || e.2.st == .retry then touchPages e.2.rcd else [])
  (touch ++ sp.counted.map (·.2)).foldl (fun s g => s.pageIn p g) s

/-- Fills a frame with poisoned lines (R360). -/
def State.poisonFrame (s : State) (p a : Nat) : State := (List.range 4096).foldl (fun s i => s.memPoison p schedSrc (a + 512 * i)) s

/-- PAGE_IN_COMPLETE: page `g` is in its frame and resident; accesses that waited for it go on (R204). A page lost with host memory fills
its frame with poison (R360). -/
def State.pageDone (s : State) (p g : Nat) : State :=
  let sp := s.sp p
  match mfind sp.transit g with
  | none => s
  | some f =>
    if s.hostLost p then s else
    let a := s.frameAddr p f
    let s := if sp.lost.contains g then s.poisonFrame p a
      else s.memPut p schedSrc a (s.hostRead (s.fget (SCH_PAGE_HOST_BASE p) * 2 ^ 21 + 2 ^ 21 * g) (2 ^ 21)) .inval
    let sp := s.sp p
    let s := s.setSp p { sp.useNow f with
      transit := mdel sp.transit g, frames := mins sp.frames f g, lost := sdel sp.lost g
      demand := sp.demand.filter (fun e => e.2 != g), counted := sp.counted.filter (fun e => e.2 != g) }
    let s := (s.setPage p g (f * 2 ^ 32 + 1)).fsat (SCH_PAGE_INS_COUNT p) 1
    ((s.partTiles p).foldl (fun s t => s.blResume p t) s).pagesWant p

/-- DEMAND_PAGE_FAULT: an access of unit `t` (a tile, or 152 + a ligature unit) outside its touch list waits for page `g`, which is
counted and paged in (R204). -/
def State.demandFault (s : State) (p t g : Nat) : State :=
  let sp := s.sp p
  if !sp.demand.contains (t, g) || sp.counted.contains (t, g) then s else
  ((s.setSp p { sp with counted := sp.counted ++ [(t, g)] }).fsat (SCH_DEMAND_FAULTS_COUNT p) 1).pageIn p g

-- Fetching and checks (R186, R209) ------------------------------------------------------------------------------------------------------------

/-- The tiles that TSET admits (R196): every tile of the partition, or those of the set's mask. -/
def State.tsetTiles (s : State) (p ts : Nat) : List Nat :=
  let ps := s.partTiles p
  if ts = 0xFF then ps else
  let m := leNat ((s.memGet p (s.fget (SCH_TSET_BASE_BASE p) * 512 + 32 * ts) 32).getD [] |>.take 24)
  ps.filter (fun t => m.testBit t)

/-- Code 0x01. -/
def taskBad01 (d : TaskDesc) (b : List Byte) : Bool :=
  (d.kind != 1 && d.kind != 2 && d.kind != 3) || leAt b 7 1 != 0 || decide (leAt b 3 1 ≥ 16) || decide (d.level ≥ 8) || decide (d.phase ≥ 63) ||
    !zeroAt b 0x50 48

/-- Code 0x02. -/
def State.taskBad02 (s : State) (p : Nat) (d : TaskDesc) : Bool :=
  if d.kind = 1 then d.tiles == 0 || decide (d.tiles > (s.partTiles p).length) ||
    (decide (d.tset < 16) && decide (d.tiles > (s.tsetTiles p d.tset).length))
  else d.tiles != 0

/-- Code 0x03. -/
def State.taskBad03 (s : State) (p : Nat) (d : TaskDesc) : Bool :=
  if d.model = 0xFF then false
  else if !s.hotset p || d.model > 7 then true
  else
    let e := s.modelEnt p d.model
    !(meFlags e).testBit 0 || decide (meBytes e > s.fget (SCH_HOTSET_SIZE_PAGES p) * 2 ^ 21)

/-- Code 0x05 for the entries of a launch record: a VPAGE out of range or repeated, an invalid MODE, a misaligned source, MODEL_REL without
a model. -/
def recBad05 (d : TaskDesc) (rcd : List Byte) : Bool :=
  let ps := recPages rcd
  !zeroAt rcd 0x1E 34 || decide (leAt rcd 0x1C 1 > 44) || decide (leAt rcd 0x1D 1 > 64) ||
  ps.any (fun e => e.rsv || decide (e.vpage > 43) || decide (e.mode > 1) || e.src % 512 != 0 || e.stride % 512 != 0 || (e.mode == 0 && e.src != 0) ||
    (e.modelRel && d.model == 0xFF)) || !(ps.map (·.vpage)).Nodup

/-- Bytes of a launch record whose header is `h`. -/
def recLen (h : List Byte) : Nat := 64 + 16 * (min (leAt h 0x1C 1) 44 + min (leAt h 0x1D 1) 64)

/-- Code 0x07. -/
def State.recBad07 (s : State) (p : Nat) (rcd : List Byte) : Bool :=
  (recTouch rcd).any (fun e => e.1 % 2 ^ 21 != 0 || e.2.1 == 0 || decide (e.2.2 ≥ 2) || decide (e.1 < pagedBase) ||
    decide ((e.1 - pagedBase) / 2 ^ 21 + e.2.1 > s.pages p)) ||
  decide ((touchPages rcd).eraseDups.length > s.fget (SCH_PAGE_CFG_FRAMES p))

/-- Code 0x06. -/
def taskBad06 (d : TaskDesc) : Bool := [d.w0, d.w1, d.postSig].any (fun x => decide (x > 255) && x != 0xFFFF)

/-- What fetching a descriptor finds: the launch record, the lowest failing code of R209, or a poisoned launch record (its address). -/
def State.taskCheck (s : State) (p : Nat) (d : TaskDesc) (b : List Byte) : List Byte × Nat × Option Nat :=
  let early := if taskBad01 d b then 1 else if s.taskBad02 p d then 2 else if s.taskBad03 p d then 3
    else if !d.regions.isEmpty && d.tiles != 1 then 4 else 0
  if early ≠ 0 then ([], early, none)
  else
    let late := fun (rcd : List Byte) =>
      if taskBad06 d then 6 else if s.recBad07 p rcd then 7 else if decide (d.tset > 15) && d.tset != 0xFF then 8 else 0
    if d.kind = 2 then ([], late [], none)
    else if d.launch % 64 ≠ 0 || !s.inSpace p d.launch 64 then ([], 5, none)
    else
      let h := (s.memRead p d.launch 64 .inPlace).2
      if !h.ok then ([], late [], some d.launch)
      else if !s.inSpace p d.launch (recLen h.bytes) then ([], 5, none)
      else
        let r := (s.memRead p d.launch (recLen h.bytes) .inPlace).2
        if !r.ok then ([], late [], some (r.bad.headD d.launch))
        else if recBad05 d r.bytes then ([], 5, none)
        else (r.bytes, late r.bytes, none)

/-- A completion record of a task (R353). -/
def taskRecord (status tile unit code : Nat) (d : TaskDesc) : List Byte :=
  leBytes 1 0x10 ++ leBytes 1 status ++ leBytes 1 tile ++ leBytes 1 code ++ leBytes 1 unit ++ leBytes 3 0 ++ leBytes 8 d.taskId ++ d.user

/-- A rejection (R209): recorded, reported, and the task ends REJECTED. -/
def State.taskReject (s : State) (p code : Nat) (d : TaskDesc) : State :=
  let s := s.recErr { idx := 0x40 + p, valid := SCH_FAULT_VALID p, ovf := some (SCH_FAULT_OVERFLOW p),
                      fill := [(SCH_FAULT_CODE p, code), (SCH_FAULT_TASK_TASK_ID p, d.taskId)],
                      ev := mkEv 0x0D 2 (some p) true code d.taskId }
  s.cplPut p (taskRecord 3 0xFF 5 code d)

/-- Pins on the pages of a touch list, plus or minus one each (R203, R204). -/
def State.pin (s : State) (p : Nat) (rcd : List Byte) (up : Bool) : State :=
  let sp := s.sp p
  s.setSp p { sp with pins := (touchPages rcd).foldl (fun m g => mupd 0 m g (fun n => if up then n + 1 else n - 1)) sp.pins }

/-- The task that a descriptor becomes. -/
def newTask (d : TaskDesc) (rcd : List Byte) (level src entry : Nat) : Task :=
  { d, rcd, level, src, entry, st := .queued, ready := false, tiles := [], done := [], started := [], slots := [], was := .queued,
    wasDone := [], saved := [], retried := 0, bad := none, aborted := false, fault := none, disp := 0 }

/-- The structures that fetching a descriptor reads: the entries of its tile set and its model, the launch record and the page-table entries of its
touch list. -/
def State.taskSpans (s : State) (p : Nat) (d : TaskDesc) : List (Nat × Nat) :=
  let rec_ := if d.kind = 2 || d.launch % 64 ≠ 0 then [] else
    let h := (s.memGet p d.launch 64).getD []
    (d.launch, if h.isEmpty then 64 else recLen h) ::
      (touchPages ((s.memGet p d.launch (recLen h)).getD [])).map (fun g => (s.pageAddr p g, 8))
  (if d.tset < 16 then [(s.fget (SCH_TSET_BASE_BASE p) * 512 + 32 * d.tset, 32)] else []) ++
    (if s.hotset p && d.model < 8 then [(s.modelAddr p d.model, 32)] else []) ++ rec_

/-- A descriptor is fetched: checked, then queued with its arrival number; its model's load and its pages' start (R186, R201, R204). -/
def State.taskTake (s : State) (p src arr entry : Nat) (b : List Byte) : State :=
  let d := parseTask b
  let (rcd, code, bad) := s.taskCheck p d b
  let s := (s.taskSpans p d).foldl (fun s e => s.memSee p schedSrc e.1 e.2) s
  if code ≠ 0 then s.taskReject p code d
  else if bad.isSome then (s.forceSkip p).cplPut p (taskRecord 4 0xFF 0xFF 0 d)
  else
    let ceil := ((s.sect p).map (·.prioCeil)).getD 7
    let sp := s.sp p
    let s := s.setSp p { sp with tasks := mins sp.tasks arr (newTask d rcd (min d.level ceil) src entry) }
    ((s.pin p rcd true).modelsWant p).pagesWant p

/-- The next source: ring descriptors in turn over the rings; the sequencer's in the order of their release. -/
def SchP.nextIn (x : SchP) : Option (Nat × Nat × Nat × List Byte) :=
  match x.inq.find? (fun e => e.1 == 8) with
  | some e => some e
  | none => minBy (fun e => ahead 3 e.1 x.turn) x.inq

/-- TASK_FETCH (R186): nothing while the partition is not ACTIVE; from command rings nothing while SCH_PCTRL.ENABLE is 0. -/
def State.taskFetch (s : State) (p : Nat) : State :=
  let sp := s.sp p
  if !s.active p || s.stopped || s.asleep then s else
  match sp.nextIn with
  | none => s
  | some (src, arr, ent, b) =>
    if src = 8 then (s.setSp p { sp with inq := sp.inq.erase (src, arr, ent, b) }).taskTake p src arr ent b
    else if !s.fbit (SCH_PCTRL_ENABLE p) then s
    else (s.setSp p { sp with inq := sp.inq.erase (src, arr, ent, b), turn := (src + 1) % 8, nextArr := sp.nextArr + 1 }).taskTake p src sp.nextArr ent b

-- Readiness (R194) --------------------------------------------------------------------------------------------------------------------------

/-- a ≥ b for 32-bit steps (R188's comparison). -/
def stepGe (a b : Nat) : Bool := decide (ahead 32 a b < 2 ^ 31)

/-- Both signal waits. -/
def State.waitsMet (s : State) (p : Nat) (d : TaskDesc) : Bool := s.sigMet p d.w0 d.v0 && s.sigMet p d.w1 d.v1

/-- Condition 3: the watch updates, where a watch has boundaries to update (log entry 159), and LIG_STEP of step n − 1. -/
def State.stepMet (s : State) (p : Nat) (d : TaskDesc) : Bool :=
  d.step == 0xFFFFFFFF ||
    ((!s.fbit (SCH_NW_PCTRL_ENABLE p) || !s.fbit (SCH_SQ_CTRL_ENABLE p) || stepGe (s.nwp p).due d.step) &&
     stepGe (s.fget (LIG_STEP_STEP p)) (d.step + 2 ^ 32 - 1))

/-- STALE_K in effect (R185, R466). -/
def State.staleK (s : State) (p : Nat) : Nat := clamp 1 8 (s.fget (LIG_PCTRL_STALE_K p))

/-- Condition 4: LIG_SLOW_DONE at least n − k − 1. -/
def State.slowMet (s : State) (p : Nat) (d : TaskDesc) : Bool :=
  !d.slowRead || d.step == 0xFFFFFFFF || stepGe (s.fget (LIG_SLOW_DONE_STEP p)) (d.step + 2 ^ 32 - s.staleK p - 1)

/-- Condition 5. -/
def State.modelMet (s : State) (p : Nat) (d : TaskDesc) : Bool := d.model == 0xFF || s.modelResident p d.model

/-- Condition 6. -/
def State.pagesMet (s : State) (p : Nat) (rcd : List Byte) : Bool := (touchPages rcd).all (s.pageResident p)

/-- Condition 7: the regions' descriptors can be read, and open ones lie on one tile. (Regions that overlap or need more than 84 blocks meet code 0x02
of R157 at their first operation.) -/
def State.regionsMet (s : State) (p : Nat) (d : TaskDesc) : Bool :=
  (d.regions.map (s.regDesc p)).all Option.isSome && ((d.regions.filterMap (s.regionTile p)).eraseDups.length ≤ 1)

/-- All conditions but 4. -/
def State.readyBut4 (s : State) (p : Nat) (k : Task) : Bool :=
  if k.d.kind = 2 then s.waitsMet p k.d
  else s.active p && (s.waitsMet p k.d || k.d.early) && s.stepMet p k.d && s.modelMet p k.d && s.pagesMet p k.rcd && s.regionsMet p k.d

/-- Is a queued task ready (R194)? A MARKER needs only its waits, and a PREFETCH completes once its model and its pages are there. -/
def State.isReady (s : State) (p : Nat) (k : Task) : Bool :=
  if k.d.kind = 3 then s.modelMet p k.d && s.pagesMet p k.rcd else s.readyBut4 p k && (k.d.kind == 2 || s.slowMet p k.d)

def State.setTask (s : State) (p a : Nat) (k : Task) : State :=
  let sp := s.sp p
  s.setSp p { sp with tasks := mins sp.tasks a k }

/-- Task `a`, as it stands now, changed by `f`: a fault that its rings have meanwhile recorded stays. -/
def State.modTask (s : State) (p a : Nat) (f : Task → Task) : State :=
  let sp := s.sp p
  s.setSp p { sp with tasks := mmod sp.tasks a f }

-- Ends (R193) --------------------------------------------------------------------------------------------------------------------------------

/-- The rings of a tile stop as by ABORT (R193). -/
def State.stopTile (s : State) (t : Nat) : State :=
  [TU.mx, TU.nb, TU.sm 0, TU.sm 1].foldl (fun s u => (s.ringAbort t u).fset (u.enable t) 0) s

/-- A task ends with a status: it leaves its tiles, its place and its pins; OK adds POST_INC to POST_SIG and completes a sequencer's entry; a
completion record is written with NOTIFY and for every other status. -/
def State.taskEnd (s : State) (p a status tile unit code : Nat) (k : Task) : State :=
  let s := if status = 0 || !k.holds then s else k.tiles.foldl State.stopTile s
  let s := if k.tiles.isEmpty || k.st == .queued || k.st == .retry then s else
    k.tiles.foldl (fun s t =>
      let x := s.tile t
      if k.holds && status = 0 then s.setTile t { x with tags := x.cand.foldl (fun m e => mins m e.1 e.2) x.tags, cand := [] }
      else if k.holds then s.setTile t { x with cand := [] } else s) s
  let sp := s.sp p
  let s := s.setSp p { sp with tasks := mdel sp.tasks a }
  let s := s.pin p k.rcd false
  let h := s.hp p
  let s := if k.holds || !k.slots.isEmpty then s.setHp p { h with reserved := h.reserved - 1 } else s
  let s := if status = 0 && k.d.postSig ≤ 255 then s.sigAdd p k.d.postSig k.d.postInc else s
  let s := if k.d.notify || status ≠ 0 then s.cplPut p (taskRecord status tile unit code k.d) else s
  let s := if status = 0 && k.src = 8 then s.sqEntryDone p k.entry else s
  k.tiles.foldl (fun s t => s.blKick p t) s

/-- Have all rings of every tile of the task HEAD at TAIL, none BUSY and none HALTED (R193)? -/
def State.ringsDone (s : State) (k : Task) : Bool :=
  k.tiles.all (fun t => [TU.mx, TU.nb, TU.sm 0, TU.sm 1].all (fun u =>
    s.fget (u.head t) == s.fget (u.tail t) && !s.ringBusy t u && !s.halted t u))

/-- Does PMS address `a` lie in a ligature line of a shard of partition `p`? -/
def State.inShard (s : State) (p a : Nat) : Bool :=
  [0, 1].any (fun n =>
    (s.tensors p (s.fget (LIG_TT_CFG_EPOCH p n))).any (fun e => decide (teState e.2 ≤ a ∧ a < teState e.2 + 512 * teLines e.2)))

/-- Does PMS address `a` lie in a line that R260 can rebuild: a ligature line of a shard, that of the WRITER of a shared region among them (R202), or a
line of an INFER model? -/
def State.rebuildable (s : State) (p a : Nat) : Bool :=
  s.inShard p a ||
  (decide (sharedBase ≤ a) && (match s.shared ((a - sharedBase) / sharedStep) with | some e => s.inShard e.writer a | none => false)) ||
  (s.hotset p && (List.range 8).any (fun m =>
    let e := s.modelEnt p m
    (meFlags e).testBit 0 && (meFlags e).testBit 3 && s.modelResident p m &&
      decide (s.modelPlace p m ≤ a ∧ a < s.modelPlace p m + meBytes e)))

/-- A task that read poison ends: it waits for the rebuilt line to be retried (R202), or ends POISONED; poison that R260 does not rebuild, and the end of a
task of the bunting's step, force a skip (R260 to R262). -/
def State.taskPoisoned (s : State) (p a addr : Nat) (k : Task) : State :=
  if k.d.idem && k.d.regions.isEmpty && decide (k.retried < s.fget (SCH_PCTRL_RETRIES p)) && s.rebuildable p addr then
    let s := k.tiles.foldl State.stopTile s
    let h := s.hp p
    (s.setHp p { h with reserved := h.reserved - 1 }).setTask p a { k with st := .retry, tiles := [], done := [], started := [], aborted := false, ready := false }
  else
    let s := if k.src = 8 || !s.rebuildable p addr then s.forceSkip p else s
    s.taskEnd p a 4 0xFF 0xFF 0 k

/-- TASK_COMPLETE: a running task whose rings have all reached TAIL ends OK, or ABORTED when software aborted one of them; one with a fault or with
poison ends so (R193, R202). -/
def State.taskComplete (s : State) (p a : Nat) : State :=
  match mfind (s.sp p).tasks a with
  | none => s
  | some k =>
    match k.st with
    | .running | .launching | .remote =>
      match k.fault, k.bad with
      | some (t, u, c), _ => s.taskEnd p a 2 t u c k
      | none, some addr => s.taskPoisoned p a addr k
      | none, none => if k.st == .running && s.ringsDone k then s.taskEnd p a (b2n k.aborted) 0xFF 0xFF 0 k else s
    | _ => s

/-- TASK_READY (R194): a queued task whose conditions hold becomes ready; MARKER and PREFETCH complete. A task that only the staleness bound
holds sets LAGGING (R179). -/
def State.taskReady (s : State) (p a : Nat) : State :=
  match mfind (s.sp p).tasks a with
  | none => s
  | some k =>
    if k.st != .queued || k.ready then s else
    let s := if k.d.model < 8 && s.hotset p then s.modelSee p k.d.model else s
    let s := (touchPages k.rcd).foldl (fun s g => s.readEntry p (pagedBase + 2 ^ 21 * g)) s
    if s.isReady p k then
      (if k.d.kind = 1 then s.setTask p a { k with ready := true } else s.taskEnd p a 0 0xFF 0xFF 0 k)
    else if k.d.kind = 1 && s.readyBut4 p k then s.fset (LIG_PSTATUS_LAGGING p) 1
    else s

/-- TASK_RETRY: the poisoned line has been rebuilt; the task starts again from its launch record (R202). -/
def State.taskRetry (s : State) (p a : Nat) : State :=
  match mfind (s.sp p).tasks a with
  | none => s
  | some k =>
    match k.st, k.bad with
    | .retry, some addr =>
      if s.poisoned (s.loc p addr) then s
      else s.setTask p a { k with st := .queued, ready := false, bad := none, retried := k.retried + 1 }
    | _, _ => s

-- Launch (R191, R192) --------------------------------------------------------------------------------------------------------------------------

/-- The source of a page entry on the tile of rank `r`. -/
def State.loadSrc (s : State) (p : Nat) (k : Task) (e : PageE) (r : Nat) : Nat :=
  (if e.modelRel then s.modelPlace p k.d.model else 0) + e.src + r * e.stride

/-- The tagged page that satisfies a LOAD with REUSE: the lowest matching physical number (R192). -/
def Tile.hit (x : Tile) (src step : Nat) (taken : List Nat) : Option Nat :=
  (x.tags.find? (fun e => e.2.src == src && e.2.step == step && !taken.contains e.1)).map (·.1)

/-- Physical pages in the order in which new contents take them: untagged by number, then tagged, least recently used first (R192). -/
def Tile.fresh (x : Tile) (taken : List Nat) : List Nat :=
  let free := (List.range 44).filter (fun q => !taken.contains q)
  let un := free.filter (fun q => !mhas x.tags q)
  let tg := free.filter (fun q => mhas x.tags q)
  un ++ sortBy (fun a b => decide ((mget ⟨0, 0, 0⟩ x.tags a).used ≤ (mget ⟨0, 0, 0⟩ x.tags b).used)) tg

/-- The page map of a launch on a tile: for each of the 44 task pages its physical page, and the task pages that the cache satisfies. -/
def State.pagePlan (s : State) (p t r : Nat) (k : Task) : List Nat × List Nat :=
  let x := s.tile t
  let step := s.fget (LIG_STEP_STEP p)
  let es := recPages k.rcd
  let hits := es.foldl (fun (h : NMap Nat) e =>
    if e.mode = 1 && e.reuse then
      match x.hit (s.loadSrc p k e r) step (h.map (·.2)) with
      | some q => mins h e.vpage q
      | none => h
    else h) []
  let named := (es.map (·.vpage)).filter (fun v => !mhas hits v)
  let unnamed := (List.range 44).filter (fun v => !(es.map (·.vpage)).contains v)
  let plan := ((sortBy (fun a b => decide (a ≤ b)) named ++ unnamed).zip (x.fresh (hits.map (·.2)))).foldl (fun m e => mins m e.1 e.2) hits
  ((List.range 44).map (fun v => mget 0 plan v), hits.map (·.1))

/-- A page that a LOAD reads from `src`: its bytes, and with REUSE the tag that it leaves (R192). -/
def State.loadPage (s : State) (p t : Nat) (e : PageE) (src step : Nat) : State :=
  let q := (s.tile t).page e.vpage
  let r := s.memRead p src 0x10000 .alloc
  if r.2.ok then
    let s := r.1.inkWrite t (e.vpage * 0x10000) r.2.bytes
    if e.reuse then s.setTile t { s.tile t with cand := mins (s.tile t).cand q ⟨src, step, (s.sp p).nextDisp⟩ } else s
  else r.1

/-- The pieces that a LOAD from `src` cannot read: poisoned or absent, and outside. -/
def State.loadBad (s : State) (p src : Nat) : List Nat × List Nat :=
  let r := (s.memRead p src 0x10000 .alloc).2
  if r.ok then ([], []) else (r.bad ++ r.absent, r.out)

/-- One page of the launch record: a page already there, a zeroed page, or a load. -/
def State.onePage (p t r : Nat) (k : Task) (hits : List Nat) (a : State × List Nat × List Nat) (e : PageE) : State × List Nat × List Nat :=
  let s := a.1
  let q := (s.tile t).page e.vpage
  if hits.contains e.vpage then
    (s.setTile t { s.tile t with tags := mmod (s.tile t).tags q (fun g => { g with used := (s.sp p).nextDisp }), wr := sins (s.tile t).wr q }, a.2)
  else if e.mode = 0 then (s.inkWrite t (e.vpage * 0x10000) (List.replicate 0x10000 0), a.2)
  else
    let src := s.loadSrc p k e r
    let m := s.loadBad p src
    (s.loadPage p t e src (s.fget (LIG_STEP_STEP p)), a.2.1 ++ m.1, a.2.2 ++ m.2)

/-- The reads of one launch on a tile: ZERO and LOAD entries that the cache does not satisfy (R191 step 2). A line that reads poisoned, or
lies outside, comes back. -/
def State.loadPages (s : State) (p t r : Nat) (k : Task) (hits : List Nat) : State × List Nat × List Nat :=
  (recPages k.rcd).foldl (State.onePage p t r k hits) (s, [], [])

/-- The task word (R191 step 3). -/
def taskWord (r : Nat) (d : TaskDesc) : List Byte :=
  leBytes 4 r ++ leBytes 4 d.tiles ++ leBytes 8 d.taskId ++ leBytes 4 d.step ++ leBytes 4 d.mb ++ leBytes 8 0

/-- Ring registers, ET5_WINDOW, HEAD 0, TAIL, DONE 0, and ENABLE (R191 steps 4 and 5). -/
def State.ringStart (s : State) (t : Nat) (rcd : List Byte) : State :=
  let set := fun (s : State) (u : TU) (ring tail : Nat) =>
    let lo := (u.base t).lo
    let s := (s.fset (u.base t) (bitsAt ring lo (u.base t).width)).fset (u.size t) (ring % 16)
    let s := ((s.fset (u.head t) 0).fset (u.doneF t) 0).fset (u.enable t) 1
    s.ringTail t u tail
  let s := s.fset (TIL_NB_ET5_WINDOW_BASE t) (bitsAt (leAt rcd 0x18 4) (TIL_NB_ET5_WINDOW_BASE t).lo (TIL_NB_ET5_WINDOW_BASE t).width)
  set (set (set (set s .mx (leAt rcd 0 4) (leAt rcd 0x10 2)) .nb (leAt rcd 4 4) (leAt rcd 0x12 2)) (.sm 0) (leAt rcd 8 4) (leAt rcd 0x14 2))
    (.sm 1) (leAt rcd 0xC 4) (leAt rcd 0x16 2)

/-- Is region `r` resident on tile `t`, opened in the step in progress (R152)? -/
def State.regionHere (s : State) (p t r : Nat) : Bool :=
  match s.region t r with | some g => g.state == 1 && g.step == s.blStep p | none => false

/-- Regions of a task that are not resident on tile `t`. -/
def State.regionsLeft (s : State) (p t : Nat) (d : TaskDesc) : List Nat := d.regions.filter (fun r => !s.regionHere p t r)

/-- Does the engine of tile `t` still work on a region that the task names, or is such an operation waiting? -/
def State.regionsBusy (s : State) (t : Nat) (d : TaskDesc) : Bool :=
  let x := s.tile t
  (x.blQueue ++ x.blCur.toList ++ x.blStall.toList).any (fun o => d.regions.contains o.region)

/-- Starts the rings of the tiles of task `a` whose loads are complete and whose rings have not been started (R191 steps 4 and 5). -/
def State.startRings (s : State) (p a : Nat) (k : Task) (done : NSet) : State :=
  let ts := k.tiles.filter (fun t => done.contains t && !k.started.contains t)
  (ts.foldl (fun s t => s.ringStart t k.rcd) s).modTask p a (fun k => { k with started := ts.foldl sins k.started })

/-- PAGE_LOADS_COMPLETE: the loads of tile `t`'s launch are done and its regions resident; the task word and, unless an EARLY task still
waits (R197), the ring registers are written and the rings enabled (R191). -/
def State.loadsDone (s : State) (t : Nat) : State :=
  match s.tilePart t, s.tileTask t with
  | some p, some k =>
    match (s.sp p).tasks.find? (fun e => e.2 == k) with
    | none => s
    | some (a, _) =>
      if k.st != .launching || k.done.contains t || k.fault.isSome || k.bad.isSome || s.regionsBusy t k.d || !(s.regionsLeft p t k.d).isEmpty then s
      else
      let r := (k.tiles.findIdx? (· == t)).getD 0
      let (plan, hits) := s.pagePlan p t r k
      let s := s.setTile t { s.tile t with pmap := plan, cand := [], wr := [] }
      let (s, bad, out) := s.loadPages p t r k hits
      let s := out.foldl (fun s a => s.stray p schedSrc a) s
      if !(bad ++ out).isEmpty then s.setTask p a { k with bad := some ((bad ++ out).headD 0) }
      else
        let s := s.inkWrite t 0 (taskWord r k.d)
        let done := sins k.done t
        let wait := k.d.early && !s.waitsMet p k.d
        let s := if wait then s else s.startRings p a k done
        let all := k.tiles.all (fun x => done.contains x)
        s.modTask p a (fun k => { k with done := done, st := if all then (if wait then .remote else .running) else .launching })
  | _, _ => s

/-- EARLY_WAITS_MET: the waits of an EARLY task that holds loaded tiles are met; the rings of those tiles start (R197). -/
def State.earlyMet (s : State) (p a : Nat) : State :=
  match mfind (s.sp p).tasks a with
  | none => s
  | some k =>
    if (k.st == .remote || k.st == .launching) && k.d.early && s.waitsMet p k.d then
      (s.startRings p a k k.done).modTask p a (fun k => { k with st := if k.st == .remote then .running else k.st })
    else s

-- Placement (R196) ---------------------------------------------------------------------------------------------------------------------------------

/-- Row of a tile on its die (R14). -/
def tileRow (t : Nat) : Nat := (t % 76) / 19

/-- Bytes of LOAD entries with REUSE that R192 would satisfy on tile `t`; sources without their rank part (log entry 16). -/
def State.affinity (s : State) (p t : Nat) (k : Task) : Nat := 0x10000 * (s.pagePlan p t 0 k).2.length

/-- The die that holds the home channel of the task's first LOAD source, or of its first touch page. -/
def State.homeDie (s : State) (p : Nat) (k : Task) : Option Nat :=
  let a := match (recPages k.rcd).find? (fun e => e.mode == 1) with
    | some e => some (s.loadSrc p k e 0)
    | none => (recTouch k.rcd).head?.map (fun (e : Nat × Nat × Nat) => e.1)
  (a.bind (s.toDpa p)).map (fun d => if d / 2 ^ 31 < 128 then 0 else 1)

/-- A candidate's rank as one number: score, die, row, ID. -/
def State.rankKey (s : State) (p : Nat) (k : Task) (t : Nat) : Nat :=
  let other := match s.homeDie p k with | some d => b2n (dieOf t != d) | none => 0
  ((44 * 0x10000 - s.affinity p t k) * 2 + other) * 2 ^ 16 + tileRow t * 256 + t

/-- The tile on which the task's regions are open. -/
def State.regionsTile (s : State) (p : Nat) (d : TaskDesc) : Option Nat := d.regions.findSome? (s.regionTile p)

/-- The tiles that the task may use: of its tile set; the tile of its open regions. -/
def State.allowed (s : State) (p : Nat) (k : Task) : List Nat :=
  let base := (s.tsetTiles p k.d.tset).filter (fun t => bitAt (s.fget (EVT_ADMIN_TILE_DISABLE (t / 32))) (t % 32) == 0)
  match s.regionsTile p k.d with
  | some t => if base.contains t then [t] else []
  | none => if k.d.regions.any (s.savedRegion p) then [] else base

/-- The tiles chosen for a task: the first TILES candidates of the ranking, in rank order of the task (R191, R196). -/
def State.choose (s : State) (p : Nat) (k : Task) : Option (List Nat) :=
  let cs := sortBy (fun a b => decide (s.rankKey p k a ≤ s.rankKey p k b)) ((s.allowed p k).filter s.tileFree)
  if cs.length < k.d.tiles then none else some (sortBy (fun a b => decide (a ≤ b)) (cs.take k.d.tiles))

/-- The task's regions take the tile's region slots, in the order of the descriptor. -/
def State.slotRegions (s : State) (t : Nat) (d : TaskDesc) : State :=
  ((List.range 8).foldl (fun s n => s.fset (TIL_BL_SLOT_REGION_ID t n) (d.regions.getD n 0xFFFF)) s).blSlots t

/-- Makes one region resident on tile `t`: OPEN if it was not opened in the step, FILL if it is SPILLED (R152). -/
def State.bringRegion (p t : Nat) (s : State) (r : Nat) : State :=
  if s.regionHere p t r then s
  else match s.region t r with
    | some g => s.blIssue t (if g.state = 2 && g.step = s.blStep p then 3 else 1) r
    | none => s.blIssue t 1 r

/-- TASK_PLACE and TASK_LAUNCH: the task takes its tiles and a place in the host-lost queue (R354); its regions are brought in. -/
def State.place (s : State) (p a : Nat) (k : Task) (ts : List Nat) : State :=
  let sp := s.sp p
  let k := { k with st := .launching, tiles := ts, done := [], started := [], disp := sp.nextDisp }
  let s := s.setSp p { sp with nextDisp := sp.nextDisp + 1, modelUse := if k.d.model < 8 then mset 0 sp.modelUse k.d.model (sp.nextDisp + 1) else sp.modelUse,
                               tasks := mins sp.tasks a k,
                               frameUse := ((touchPages k.rcd).foldl (fun (x : SchP) g =>
                                 match sp.frames.find? (fun e => e.2 == g) with | some e => x.useNow e.1 | none => x) sp).frameUse }
  let s := ts.foldl (fun s t => s.setTile t { s.tile t with wr := [] }) s
  let h := s.hp p
  let s := s.setHp p { h with reserved := h.reserved + 1 }
  ts.foldl (fun s t => k.d.regions.foldl (State.bringRegion p t) (if k.d.regions.isEmpty then s else s.slotRegions t k.d)) s

/-- A tile's operations go on; a region that a launch still lacks is asked for again. -/
def State.regionsAgain (s : State) (t : Nat) : State :=
  match s.tilePart t with
  | none => s
  | some p =>
    match s.tileTask t with
    | some k =>
      if k.st == .launching && k.fault.isNone && k.bad.isNone && !k.done.contains t && !s.regionsBusy t k.d then
        ((s.regionsLeft p t k.d).foldl (State.bringRegion p t) s).blKick p t
      else s.blKick p t
    | none => s.blKick p t

-- Pre-emption (R205 to R207) ---------------------------------------------------------------------------------------------------------------------

/-- Registers that a control record holds. -/
def savedFlds (t : Nat) : List Fld :=
  [TU.mx, TU.nb, TU.sm 0, TU.sm 1].flatMap (fun u => [u.enable t, u.base t, u.size t, u.head t, u.tail t, u.doneF t]) ++
  [TIL_MX_STATUS_BUSY t, TIL_MX_STATUS_HALTED t, TIL_MX_STATUS_BANK t, TIL_NB_STATUS_BUSY t, TIL_NB_STATUS_HALTED t, TIL_NB_STATUS_WAITING t,
   TIL_NB_ET5_WINDOW_BASE t, TIL_BL_STATUS_BUSY t, TIL_BL_STATUS_OP t, TIL_MX_STATUS_SAVED t, TIL_NB_STATUS_SAVED t, TIL_BL_STATUS_SAVED t] ++
  (List.range 84).map (blMap t) ++
  (List.range 8).flatMap (fun n => [TIL_BL_SLOT_REGION_ID t n, TIL_BL_SLOT_STATE t n, TIL_BL_SLOT_TENSOR_ID t n])

/-- One piece of the scheduler's own write into the spill area. -/
def State.ownPiece (o : Nat) (s : State) (pc : Nat × List Byte) : State :=
  match s.ownLoc o pc.1 with
  | .mem o' a d =>
    if s.closed (.mem o' a d) || (s.lineBad o' a d && pc.2.length != 512) then s else
    let s := (s.snoop o' a d true).llcTouch o (d / 512) .inval true
    let s := if pc.2.length = 512 then s.lineGood o' a d else s
    { s with mem := putBytes s.mem (fun i => d + i) 0 pc.2 }
  | _ => s

def State.ownWrite (s : State) (o a : Nat) (bs : List Byte) : State :=
  ((linePieces a bs.length).map (fun pc => (pc.1, (bs.drop (pc.1 - a)).take pc.2))).foldl (State.ownPiece o) s

/-- The scheduler's own read of the spill area: the bytes, and whether a line was poisoned. -/
def State.ownRead (s : State) (o a n : Nat) : State × List Byte × Bool :=
  (linePieces a n).foldl (fun (r : State × List Byte × Bool) pc =>
    match r.1.ownLoc o pc.1 with
    | .mem o' x d =>
      let bad := r.1.poisoned (.mem o' x d)
      ((r.1.snoop o' x d false).llcTouch o (d / 512) .inval false, r.2.1 ++ (if bad then List.replicate pc.2 0 else (List.range pc.2).map (fun i => r.1.memByte (d + i))),
        r.2.2 || bad)
    | _ => (r.1, r.2.1 ++ List.replicate pc.2 0, true)) (s, [], false)

/-- First address of spill slot `n` in the partition's space (R205). -/
def State.slotBase (s : State) (p n : Nat) : Nat := ((s.owner p).map Owner.spillBase).getD 0 + n * 0x500000

/-- The matrix sequencer's state, as words: HEAD, TAIL, DONE, BUSY, HALTED and BANK (log entry 160). -/
def State.seqWords (s : State) (t : Nat) : List Byte :=
  [TIL_MX_HEAD_HEAD t, TIL_MX_TAIL_TAIL t, TIL_MX_DONE_COUNT t, TIL_MX_STATUS_BUSY t, TIL_MX_STATUS_HALTED t, TIL_MX_STATUS_BANK t].flatMap
    (fun f => leBytes 4 (s.fget f))

/-- The banks and the sequencer state of tile `t` in the save area (R71, R82). -/
def State.saveBanks (s : State) (t : Nat) : State :=
  let bank := fun (b : Nat) => (List.range 16384).flatMap (fun i => leBytes 6 (mget 0 s.acc (t * 32768 + b * 16384 + i)))
  let ink := putBytes (putBytes s.ink (fun i => t * 0x300000 + 0x2C0000 + i) 0 (bank 0)) (fun i => t * 0x300000 + 0x2D8000 + i) 0 (bank 1)
  { s with ink := putBytes ink (fun i => t * 0x300000 + 0x2F0000 + i) 0 (s.seqWords t) }

/-- The array reloads the banks from the save area (R82). -/
def State.loadBanks (s : State) (t : Nat) : State :=
  let acc := s.acc.filter (fun e => e.1 / 32768 != t)
  let one := fun (m : NMap Nat) (b base : Nat) => (List.range 16384).foldl (fun m i =>
    mset 0 m (t * 32768 + b * 16384 + i) (leNat ((List.range 6).map (fun j => mget 0 s.ink (t * 0x300000 + base + 6 * i + j))))) m
  { s with acc := one (one acc 0 0x2C0000) 1 0x2D8000 }

/-- Physical blotter blocks that the view maps. -/
def State.mappedBlocks (s : State) (t : Nat) : List Nat :=
  (List.range 84).filter (fun b => (List.range 84).any (fun v => s.fget (blMap t v) == 128 + b))

/-- A tile as it passes on: its rings have nothing in progress, and its blotter is unmapped; its regions went with the victim (R206 step 3). -/
def State.unmapAll (s : State) (t : Nat) : State :=
  let s := (List.range 84).foldl (fun s v => s.fset (blMap t v) 0) s
  let s := s.fsets [(TIL_MX_STATUS_BUSY t, 0), (TIL_NB_STATUS_BUSY t, 0), (TIL_NB_STATUS_WAITING t, 0),
                    (TIL_MX_STATUS_SAVED t, 0), (TIL_NB_STATUS_SAVED t, 0), (TIL_BL_STATUS_SAVED t, 0)]
  let s := (List.range 8).foldl (fun s n => s.fsets [(TIL_BL_SLOT_REGION_ID t n, 0xFFFF), (TIL_BL_SLOT_STATE t n, 0), (TIL_BL_SLOT_TENSOR_ID t n, 0)]) s
  s.fsets [(TIL_BL_STATUS_BUSY t, 0), (TIL_BL_STATUS_OP t, 0)]

/-- A sampled descriptor whose recomputation the pre-emption cuts short: the sample is discarded and the descriptor completes (R98). -/
def State.dropSample (s : State) (t : Nat) : State :=
  match (s.tile t).shadow with
  | none => s
  | some w =>
    let s := (s.setTile t { s.tile t with shadow := none }).fset (TIL_MX_STATUS_BUSY t) 0
    (s.tileSummary t (parseMx w.desc).tag w.sum).ringDone t .mx

/-- Where the control record lies in a spill slot (R206). -/
def controlOff : Nat := 0x4F8000

/-- What a tile's units hold beside their registers, as words: the page map, the nib ring's and the movers' WAITs and the movers' halts, and the blotter
engine's queue, operations and regions. -/
def Tile.words (x : Tile) : List Nat :=
  let op := fun (o : Option BlOp) => match o with | some o => [o.op, o.region] | none => [0, 0]
  let wait := fun (w : Option (Nat × Nat)) => match w with | some w => [1, w.1, w.2] | none => [0, 0, 0]
  (List.range 44).map x.page ++ wait x.nbWait ++ wait (mfind x.smWait 0) ++ wait (mfind x.smWait 1) ++ [b2n (x.smHalt.contains 0), b2n (x.smHalt.contains 1)] ++
    op x.blCur ++ op x.blStall ++ x.blQueue.length :: x.blQueue.flatMap (fun o => [o.op, o.region]) ++
    x.regions.flatMap (fun e => [e.1, e.2.tensor, e.2.state, e.2.vb, b2n e.2.stopped, e.2.step, e.2.blocks.length] ++ e.2.blocks)

/-- The control record's 32 KiB: the saved registers and the units' state as words, then zeros (R206; log entry 160). -/
def TileSave.control (w : TileSave) : List Byte := bytesAt ((w.flds ++ w.x.words).flatMap (leBytes 4)) 0 0x8000

/-- The units of a victim's tile stop (R206 step 1): where the rings run, the banks go to the save area (R82), and the state that the spill is to carry is
held (R134, R154; log entry 193). -/
def State.stopVictim (run : Bool) (s : State) (t : Nat) : State :=
  let s := if run then s.saveBanks t else s
  s.fsets [(TIL_MX_STATUS_SAVED t, b2n run), (TIL_NB_STATUS_SAVED t, b2n run), (TIL_BL_STATUS_SAVED t, s.fget (TIL_BL_STATUS_BUSY t))]

/-- TILE_SPILL_COMPLETE: the state of victim tile `t` is in its spill slot, and the tile passes on (R206). A victim that has completed before
its spill is not spilled (R205). -/
def State.tileSpilled (s : State) (t : Nat) : State :=
  match s.tilePart t, s.tileTask t with
  | some p, some k =>
    match (s.sp p).tasks.find? (fun e => e.2 == k) with
    | none => s
    | some (a, _) =>
      if k.st != .spilling || k.done.contains t then s
      else if k.done.isEmpty && k.was == .running && k.fault.isNone && k.bad.isNone && s.ringsDone k then
        (k.tiles.foldl (fun s t => s.fsets [(TIL_MX_STATUS_SAVED t, 0), (TIL_NB_STATUS_SAVED t, 0), (TIL_BL_STATUS_SAVED t, 0)]) s).taskEnd p a
          (b2n k.aborted) 0xFF 0xFF 0 { k with st := .running, slots := [] }
      else
        let slot := (mfind k.slots t).getD 0
        let base := s.slotBase p slot
        let run := k.started.contains t
        let x := s.tile t
        let s := (List.range 44).foldl (fun s v =>
          if x.wr.contains (x.page v) then s.ownWrite p (base + 0x10000 * v) (s.inkRead t (0x10000 * v) 0x10000) else s) s
        let s := if run then
            s.ownWrite p (base + 0x2C0000) ((List.range 0x40000).map (fun i => mget 0 s.ink (t * 0x300000 + 0x2C0000 + i)))
          else s
        let s := (s.mappedBlocks t).foldl (fun s b => s.ownWrite p (base + 0x300000 + 0x6000 * b) (s.blBytes t b)) s
        let save : TileSave := ⟨x, (savedFlds t).map s.fget⟩
        let s := s.ownWrite p (base + controlOff) save.control
        let done := sins k.done t
        let s := [TU.mx, TU.nb, TU.sm 0, TU.sm 1].foldl (fun s u => (s.setHalted t u false).fset (u.enable t) 0) s
        let s := s.unmapAll t
        let s := s.setTile t { Tile.init with pmap := x.pmap, tags := x.tags, eligible := x.eligible }
        s.setTask p a { k with done := done, saved := mins k.saved t save,
                               st := if k.tiles.all (fun y => done.contains y) then .spilled else .spilling }
  | _, _ => s

/-- May a spilled task's tiles come back: all free (R199)? -/
def State.canRestore (s : State) (k : Task) : Bool := k.tiles.all s.tileFree

/-- TILE_RESTORE begins: the task's tiles are its own again (R207), and its model has been dispatched (R199). -/
def State.restoreGo (s : State) (p a : Nat) (k : Task) : State :=
  let sp := s.sp p
  s.setSp p { sp with nextDisp := sp.nextDisp + 1, modelUse := if k.d.model < 8 then mset 0 sp.modelUse k.d.model (sp.nextDisp + 1) else sp.modelUse,
                      tasks := mins sp.tasks a { k with st := .restoring, done := [], disp := sp.nextDisp } }

/-- The regions resident on tile `t`. -/
def State.residents (s : State) (t : Nat) : List Nat := (((s.tile t).regions.filter (fun e => e.2.state == 1)).map (·.1))

/-- Has the engine of tile `t` a SPILL of region `r` to do? -/
def State.spillAsked (s : State) (t r : Nat) : Bool :=
  let x := s.tile t
  (x.blQueue ++ x.blCur.toList ++ x.blStall.toList).any (fun o => o == ⟨2, r⟩)

/-- The regions that others left resident on a spilled task's tiles are spilled to their BACKING by the engine, whose operation in progress ends first;
then the restore begins. A region that cannot be spilled (R157) ends the task, whose blocks have no place (log entry 12). -/
def State.restoreBegin (s : State) (p a : Nat) (k : Task) : State :=
  let rs := k.tiles.flatMap (fun t => (s.residents t).map (fun r => (t, r)))
  match rs.find? (fun e => (s.blCheck p e.1 e.2 2).1 != 0) with
  | some (t, r) =>
    let c := s.blCheck p t r 2
    let s := if c.1 = 4 then s.stray p t c.2 else s
    (s.blFault p t r c.1 false).taskEnd p a 2 t 4 c.1 k
  | none =>
    if rs.isEmpty && k.tiles.all (fun t => !s.fbit (TIL_BL_STATUS_BUSY t)) then s.restoreGo p a k
    else rs.foldl (fun s e => if s.spillAsked e.1 e.2 then s else s.blIssue e.1 2 e.2) s

/-- Inkwell bytes of tile `t` by physical address. -/
def State.inkPut (s : State) (t a : Nat) (bs : List Byte) : State := { s with ink := putBytes s.ink (fun i => t * 0x300000 + a + i) 0 bs }

/-- One task page of a spilled tile is read back (R207). -/
def State.pageRestore (p t base : Nat) (w : TileSave) (a : State × Bool) (v : Nat) : State × Bool :=
  let q := w.x.page v
  if w.x.wr.contains q then
    let r := a.1.ownRead p (base + 0x10000 * v) 0x10000
    (r.1.inkPut t (q * 0x10000) r.2.1, a.2 || r.2.2)
  else a

/-- The accumulator banks of a spilled tile are read back from the save area, where SAVED, as its control record has it, is 1. -/
def State.banksRestore (p t base : Nat) (a : State × Bool) : State × Bool :=
  if a.1.fbit (TIL_MX_STATUS_SAVED t) then
    let r := a.1.ownRead p (base + 0x2C0000) 0x40000
    ((r.1.inkPut t 0x2C0000 r.2.1).loadBanks t, a.2 || r.2.2)
  else a

/-- One blotter block of a spilled tile is read back. -/
def State.blockRestore (p t base : Nat) (a : State × Bool) (b : Nat) : State × Bool :=
  let r := a.1.ownRead p (base + 0x300000 + 0x6000 * b) 0x6000
  (r.1.blFill t b r.2.1, a.2 || r.2.2)

/-- The control record of a spilled tile becomes its state again; tags of pages that the task does not write stay as they have become meanwhile, and
so does the count of eligible descriptors (R96). The restore uses the tagged pages of the task anew (R199), and operations that the tile's engine has been
asked for meanwhile follow the saved ones. -/
def State.controlRestore (s : State) (t : Nat) (w : TileSave) : State :=
  let keep := (s.tile t).regions.filter (fun e => e.2.state != 1 && !mhas w.x.regions e.1)
  let now := ((s.tilePart t).map (fun p => (s.sp p).nextDisp)).getD 0
  let tags := (w.x.tags.filter (fun e => w.x.wr.contains e.1)).foldl (fun m e => mins m e.1 { e.2 with used := now })
    ((s.tile t).tags.filter (fun e => !w.x.wr.contains e.1))
  let s := s.setTile t { w.x with tags := tags, eligible := (s.tile t).eligible, blQueue := w.x.blQueue ++ (s.tile t).blQueue, regions := keep.foldl (fun m e => mins m e.1 e.2) w.x.regions }
  s.fsets ((savedFlds t).zip w.flds)

/-- The state of tile `t` is read back from its slot (R207); true when a line was poisoned. -/
def State.tileBack (s : State) (p t slot : Nat) (w : TileSave) : State × Bool :=
  let base := s.slotBase p slot
  let c := (s.controlRestore t w).ownRead p (base + controlOff) 0x8000
  let a := State.banksRestore p t base ((List.range 44).foldl (State.pageRestore p t base w) (c.1, c.2.2))
  let a := (a.1.mappedBlocks t).foldl (State.blockRestore p t base) a
  (a.1.fsets [(TIL_MX_STATUS_SAVED t, 0), (TIL_NB_STATUS_SAVED t, 0), (TIL_BL_STATUS_SAVED t, 0)], a.2)

/-- RESTORE_COMPLETE: the restore of tile `t` ends; with the last tile the task goes on as if uninterrupted, and an EARLY task whose waits
were met meanwhile starts at once (R207). -/
def State.restoreDone (s : State) (t : Nat) : State :=
  match s.tilePart t, s.tileTask t with
  | some p, some k =>
    match (s.sp p).tasks.find? (fun e => e.2 == k) with
    | none => s
    | some (a, _) =>
      if k.st != .restoring || k.done.contains t then s else
      match mfind k.saved t, mfind k.slots t with
      | some w, some slot =>
        let (s, bad) := s.tileBack p t slot w
        let done := sins k.done t
        let all := k.tiles.all (fun y => done.contains y)
        let k' := { k with done := if all then k.wasDone else done, slots := mdel k.slots t, saved := mdel k.saved t,
                           bad := if bad && k.bad.isNone then some (s.slotBase p slot) else k.bad, st := if all then k.was else .restoring }
        let s := s.setTask p a k'
        if all then (k.tiles.foldl (fun s t => s.blAgain p t) s).earlyMet p a else s
      | _, _ => s
  | _, _ => s

/-- The order in which victims are taken (R205): WAITING_REMOTE first, then lower level, latest dispatch, higher lowest tile. -/
def victimKey (k : Task) : Nat :=
  (((if k.st == .remote then 0 else 1) * 8 + k.level) * 2 ^ 64 + (2 ^ 64 - 1 - k.disp)) * 256 + (255 - (minBy id k.tiles).getD 0)

/-- Free spill slots, lowest first. -/
def State.freeSlots (s : State) (p : Nat) : List Nat :=
  let used := s.slotsUsed p
  (List.range (s.fget (SCH_SPILL_SLOTS_TOTAL p))).filter (fun n => !used.contains n)

/-- A task becomes a victim: its tiles stop, and wait for their spill into the slots (R206). One that the end of a discarded sample completes is not
spilled (R98, R205). -/
def State.takeVictim (s : State) (p a : Nat) (k : Task) (slots : NMap Nat) : State :=
  let s := k.tiles.foldl State.dropSample s
  if k.st == .running && k.fault.isNone && k.bad.isNone && s.ringsDone k then s.taskEnd p a (b2n k.aborted) 0xFF 0xFF 0 k
  else
    let s := (s.setTask p a { k with was := k.st, wasDone := k.done, st := TSt.spilling, done := [], slots := slots }).fsat (SCH_PREEMPTS_COUNT p) 1
    k.tiles.foldl (fun s t => State.stopVictim (k.started.contains t) s t) s

/-- PREEMPT_START: whole tasks of lower level until the freed tiles suffice; nothing when victims or slots do not (R198, R205). -/
def State.preempt (s : State) (p : Nat) (k : Task) : State :=
  match s.sect p with
  | none => s
  | some c =>
    if c.preFloor > 7 || k.level < c.preFloor then s else
    let ok := s.allowed p k
    let free := ok.filter s.tileFree
    let coming := ((s.sp p).tasks.filter (fun e => e.2.st == .spilling)).flatMap (fun e => e.2.tiles.filter ok.contains)
    let cands := sortBy (fun a b => decide (victimKey a.2 ≤ victimKey b.2)) ((s.sp p).tasks.filter (fun e =>
      (match e.2.st with | .running | .remote | .launching => true | _ => false) && decide (e.2.level < k.level) && e.2.tiles.any ok.contains))
    let chosen := cands.foldl (fun (vs : List (Nat × Task)) e =>
      if free.length + coming.length + (vs.flatMap (fun v => v.2.tiles.filter ok.contains)).length < k.d.tiles then vs ++ [e] else vs) []
    let got := free.length + coming.length + (chosen.flatMap (fun v => v.2.tiles.filter ok.contains)).length
    let slots := s.freeSlots p
    let need := (chosen.map (fun v => v.2.tiles.length)).sum
    if got < k.d.tiles || slots.length < need then s else
    (chosen.foldl (fun (a : State × List Nat) v =>
      let slots := (v.2.tiles.zip a.2).foldl (fun (m : NMap Nat) (e : Nat × Nat) => mins m e.1 e.2) []
      (a.1.takeVictim p v.1 v.2 slots, a.2.drop v.2.tiles.length)) (s, slots)).1

/-- The next of the ready order: highest level, then earliest arrival; ready tasks, and spilled ones whose tiles have come back (R195, R199). -/
def State.nextReady (s : State) (p : Nat) : Option (Nat × Task) :=
  minBy (fun e => (7 - e.2.level) * 2 ^ 64 + e.1)
    ((s.sp p).tasks.filter (fun e => (e.2.st == .queued && e.2.ready && s.active p) || (e.2.st == .spilled && s.canRestore e.2)))

/-- SCHEDULING_ROUND (R195). -/
def State.round (s : State) (p : Nat) : State :=
  let s := (s.sp p).tasks.foldl (fun s e => s.taskComplete p e.1) s
  let s := (s.modelsWant p).pagesWant p
  let s := (s.partTiles p).foldl State.regionsAgain s
  if s.stopped then s else
  match s.nextReady p with
  | none => s
  | some (a, k) =>
    if k.st == .spilled then s.restoreBegin p a k
    else if !s.hlqRoom p then s.fset (HIF_P_STATUS_HLQ_FULL p) 1
    else match s.choose p k with
      | some ts => s.place p a k ts
      | none => s.preempt p k

/-- TILE_RESTORE: the tiles of spilled task `a`, next in the ready order, begin restoring (R199, R207). -/
def State.tileRestore (s : State) (p a : Nat) : State :=
  match s.nextReady p with
  | some (b, k) => if a = b && k.st == .spilled then s.restoreBegin p a k else s
  | none => s

/-- SIGNAL_COUNTER_WRITE: the counter is set; an increment of the same fabric cycle (`inc`) is added after it (R188). -/
def State.sigWrite (s : State) (p n v inc : Nat) : State := (s.fset (SCH_SIG_VALUE p n) v).sigAdd p n inc

def execTaskFetch (p : Nat) (s : State) : Host.Outcome State Fault Refusal := onUnit (p < 16) (s.taskFetch p)
def execModelLoadComplete (p m : Nat) (h : HostStores) (s : State) : Host.Outcome State Fault Refusal :=
  onUnit (decide (p < 16) && decide (m < 8)) ((s.hostStores h).modelDone p m)
def execTaskReady (p a : Nat) (s : State) : Host.Outcome State Fault Refusal := onUnit (p < 16) (s.taskReady p a)
def execSchedulingRound (p : Nat) (s : State) : Host.Outcome State Fault Refusal := onUnit (p < 16) (s.round p)
def execPageLoadsComplete (t : Nat) (s : State) : Host.Outcome State Fault Refusal := onUnit (t < 152) (s.loadsDone t)
def execEarlyWaitsMet (p a : Nat) (s : State) : Host.Outcome State Fault Refusal := onUnit (p < 16) (s.earlyMet p a)
def execTaskComplete (p a : Nat) (s : State) : Host.Outcome State Fault Refusal := onUnit (p < 16) (s.taskComplete p a)
def execTileSpillComplete (t : Nat) (s : State) : Host.Outcome State Fault Refusal := onUnit (t < 152) (s.tileSpilled t)
def execTileRestore (p a : Nat) (s : State) : Host.Outcome State Fault Refusal := onUnit (p < 16) (s.tileRestore p a)
def execRestoreComplete (t : Nat) (s : State) : Host.Outcome State Fault Refusal := onUnit (t < 152) (s.restoreDone t)
def execDemandPageFault (p t g : Nat) (s : State) : Host.Outcome State Fault Refusal := onUnit (p < 16) (s.demandFault p t g)
def execTaskRetry (p a : Nat) (s : State) : Host.Outcome State Fault Refusal := onUnit (p < 16) (s.taskRetry p a)

end Sys2Proof.Machine
end

