-- ==== Sys2Proof/Machine/Spare.lean ====
section
/-!
DEFINITION. Live tile roles: tile clock enables (R38), tile failures (R471, R55), spare takeover (R54, R262), SLOW tiles and the device's
frequency target (R393, R396).
-/
namespace Sys2Proof.Machine

/-- Erases the stored fields of the registers from `lo` up to `hi`. -/
def State.eraseFields (s : State) (lo hi : Nat) : State :=
  { s with fields := s.fields.filter (fun e => !(decide (128 * lo ≤ e.1) && decide (e.1 < 128 * hi))) }

/-- A tile back at its reset state: registers, rings, inkwell, accumulators and blotter (R31, R47 step 4). -/
def State.tileWipe (s : State) (t : Nat) : State :=
  let s := s.eraseFields (0x1000000 + 0x10000 * t) (0x1010000 + 0x10000 * t)
  { s with tiles := mdel s.tiles t, ink := s.ink.filter (fun e => e.1 / 0x300000 != t), acc := s.acc.filter (fun e => e.1 / 32768 != t),
           blot := s.blot.filter (fun e => e.1 / 4096 / 84 != t) }

/-- The clock enable of tile `t` (R38): a stopped tile is at its reset state. -/
def State.tileEn (s : State) (t : Nat) (on : Bool) : State :=
  let v := s.fget (CLK_TILE_EN_EN (t / 32))
  let s := s.fset (CLK_TILE_EN_EN (t / 32)) (if on then setBit v (t % 32) else clearBit v (t % 32))
  if on then s else s.tileWipe t

/-- SPARE tiles of a die, lowest ID first. -/
def State.spares (s : State) (die : Nat) : List Nat := (List.range 152).filter (fun t => dieOf t == die && s.role t == 2)

/-- Tile `n` takes the assignment of a tile of partition `p` (R54), with the region slots and the regions that it held, empty (R262). -/
def State.takeOver (s : State) (n p : Nat) (regs : NMap Region) (slots : List (Nat × Nat × Nat)) : State :=
  let s := (s.setRole n 1 p).tileEn n true
  let used := regs.foldl (fun (a : Nat × NMap Region) e =>
    if e.2.state = 1 then (a.1 + e.2.blocks.length, mins a.2 e.1 { e.2 with blocks := (List.range e.2.blocks.length).map (· + a.1), stopped := false })
    else (a.1, mins a.2 e.1 e.2)) (0, [])
  let s := s.setTile n { s.tile n with regions := used.2 }
  let s := used.2.foldl (fun s e => s.blShow n e.2) s
  slots.foldl (fun s e => s.fsets [(TIL_BL_SLOT_REGION_ID n e.1, e.2.1), (TIL_BL_SLOT_STATE n e.1, e.2.2)]) s

/-- The region slots of a tile: slot, region, state. -/
def State.regionSlots (s : State) (t : Nat) : List (Nat × Nat × Nat) :=
  (List.range 8).map (fun n => (n, s.fget (TIL_BL_SLOT_REGION_ID t n), s.fget (TIL_BL_SLOT_STATE t n)))

/-- May the task be retried (R202, R262)? -/
def State.retryable (s : State) (p : Nat) (k : Task) : Bool :=
  k.d.idem && k.d.regions.isEmpty && decide (k.retried < s.fget (SCH_PCTRL_RETRIES p))

/-- A task on a failed tile (R262): one that may be retried starts again; another ends ABORTED and, if it belongs to the bunting's step or its
tile held an open region, the member forces a skip (log entry 17). -/
def State.tileLostTask (s : State) (p t : Nat) (open_ : Bool) : State :=
  let hit := (s.sp p).tasks.filter (fun e => e.2.holds && e.2.tiles.contains t)
  let s := hit.foldl (fun s e =>
    let k := e.2
    if s.retryable p k then
      let s := k.tiles.foldl State.stopTile s
      let h := s.hp p
      (s.setHp p { h with reserved := h.reserved - 1 }).setTask p e.1
        { k with st := .queued, tiles := [], done := [], started := [], aborted := false, ready := false, bad := none, fault := none, retried := k.retried + 1 }
    else s.taskEnd p e.1 1 0xFF 0xFF 0 k) s
  if open_ || hit.any (fun e => !s.retryable p e.2) then s.forceSkip p else s

/-- A tile is found failed (R471): its role, the ledger, its event, then its replacement (R54) and the recovery of its task (R262). -/
def State.tileFail (s : State) (t : Nat) : State :=
  if s.role t = 3 ∨ s.role t = 5 then s else
  let s := s.ledFact { s.led with failed := sins s.led.failed t }
  let code := (Config.evCode 0x1F).toNat
  match s.tilePart t with
  | none => (s.raise (mkEv 0x1F 2 none false code t)).setRole t 3 0 |>.tileEn t false
  | some p =>
    let s := s.raise (mkEv 0x1F 2 (some p) true code t)
    let regs := (s.tile t).regions
    let slots := s.regionSlots t
    let s := s.tileLostTask p t (regs.any (fun e => e.2.state == 1))
    let s := (s.setRole t 3 0).tileEn t false
    match s.spares (dieOf t) with
    | n :: _ => s.takeOver n p regs slots
    | [] => s.noteEv 0x05 3 p t

/-- A tile of partition `p` whose k_t is below step `k` is exchanged for the lowest SPARE of its die whose k_t reaches `k` (R54); without one it
keeps its assignment. The tile holds no task. -/
def State.tileSlow (s : State) (t k : Nat) : State :=
  match s.tilePart t, (s.spares (dieOf t)).find? (fun n => decide (k ≤ s.tileK n)) with
  | some p, some n =>
    let regs := (s.tile t).regions
    let slots := s.regionSlots t
    (((s.setRole t 4 0).tileEn t false).takeOver n p regs slots)
  | _, _ => s

/-- SLOW tiles whose k_t reaches `k` go back to SPARE (R55). -/
def State.slowReturn (s : State) (k : Nat) : State :=
  (List.range 152).foldl (fun s t => if s.role t = 4 ∧ k ≤ s.tileK t then s.setRole t 2 0 else s) s

/-- The device's target k (R396): K_DEV, K_AGREED of the partitions whose sequencer is enabled, K_PROP of the others that hold tiles. -/
def State.kTarget (s : State) : Nat :=
  (List.range 16).foldl (fun a p =>
    if s.fbit (SCH_SQ_CTRL_ENABLE p) then min a (s.fget (PWR_P_AGREE_K_AGREED p))
    else if (s.partTiles p).isEmpty then a
    else match mfind s.pwr.kProp p with | some k => min a k | none => a) s.kDev

/-- Assigned tiles below step `k`. -/
def State.below (s : State) (k : Nat) : List Nat := (List.range 152).filter (fun t => s.role t == 1 && decide (s.tileK t < k))

/-- The target is formed anew (R396): a lower one at once, with SLOW tiles returning; a higher one that needs tiles exchanged waits for the
exchanges. -/
def State.retarget (s : State) : State :=
  let k := s.kTarget
  if s.fget CLK_ARITH_K < k ∧ !(s.below k).isEmpty ∧ s.sparePolicy then { s with pwr := { s.pwr with kWait := some k } }
  else ({ s with pwr := { s.pwr with kWait := none } }.setTarget k).slowReturn k

/-- TILE_EXCHANGE_FOR_K (R54, R396): tile `t`, which holds no task and is below the raised target, is exchanged; with the last one the target
applies. -/
def State.exchangeForK (s : State) (t : Nat) : State :=
  match s.pwr.kWait with
  | none => s
  | some k =>
    -- with the sequencer enabled, before the first entry of a step is released (R396)
    let mid : Bool := match s.tilePart t with | some p => s.fbit (SCH_SQ_CTRL_ENABLE p) && !(s.sqp p).rel.isEmpty | none => false
    if s.role t ≠ 1 ∨ k ≤ s.tileK t ∨ (s.tileTask t).isSome ∨ mid then s else
    let s := s.tileSlow t k
    if (s.below k).isEmpty then s.retarget else s

/-- After a lower AGED: with SPARE_POLICY a tile below the step in force is exchanged; the target is formed anew. -/
def State.slowCheck (s : State) (t : Nat) : State :=
  (if s.sparePolicy && decide (s.tileK t < s.fget CLK_ARITH_TARGET) then s.tileSlow t (s.fget CLK_ARITH_TARGET) else s).retarget

/-- TILE_FMAX_MEASURE (R392): a tile that holds no task is measured; a lower maximum becomes AGED; a tile that fails is failed (R471); with
SPARE_POLICY a tile below the agreed step is exchanged (R54), and the target follows K_TILES at once. -/
def State.fmaxMeasure (s : State) (t : Nat) (mhz : Option Nat) : State :=
  let due := match mfind s.pwr.measured t with | none => true | some at_ => decide (604800000000 ≤ s.now - at_)
  if s.role t = 5 ∨ (s.tileTask t).isSome ∨ !due then s else
  let s := { s with pwr := { s.pwr with measured := mins s.pwr.measured t s.now }, led := { s.led with meas := mupd 0 s.led.meas t (· + 1) } }
  match mhz with
  | none => s.tileFail t
  | some m =>
    let s := { s with led := { s.led with drift := mset 0 s.led.drift t (ofSigned 32 ((m : Int) - (s.fusedMhz t : Int))) } }
    if m < s.agedMhz t then (s.ledFact { s.led with aged := mins s.led.aged t m }).slowCheck t else s

def execTileFailure (t : Nat) (s : State) : Host.Outcome State Fault Refusal := onUnit (t < 152) (s.tileFail t)
def execTileFmaxMeasure (t : Nat) (mhz : Option Nat) (s : State) : Host.Outcome State Fault Refusal := onUnit (t < 152) (s.fmaxMeasure t mhz)
def execTileExchangeForK (t : Nat) (s : State) : Host.Outcome State Fault Refusal := onUnit (t < 152) (s.exchangeForK t)

end Sys2Proof.Machine
end

