-- ==== Sys2Proof/Machine/Power.lean ====
section
/-!
DEFINITION. The power and frequency controller: limits and the cap (R379 to R382), the budget and its division (R384 to R390), the phase model
(R387, R388), the thermal cap (R391), frequency proposals (R394), energy accounting (R398, R399) and the furled state (R400 to R402).
Powers are computed in µW, energies in nJ.
-/
namespace Sys2Proof.Machine

-- The cap -------------------------------------------------------------------------------------------------------------------------------

/-- GUARD_W, TAPER_US and THROTTLE_C in effect: while the device is furled, those that it furled with (R401). -/
def State.guardW (s : State) : Nat := max 1 (if s.asleep then s.pwr.held.1 else s.fget PWR_CTRL_GUARD_W)
def State.taperUs (s : State) : Nat := clamp 200 1000 (if s.asleep then s.pwr.held.2.1 else s.fget PWR_CTRL_TAPER_US)
def State.throttleC (s : State) : Nat := min 105 (if s.asleep then s.pwr.held.2.2 else s.fget PWR_THERM_THROTTLE_C)

/-- The sections in force, by partition. -/
def State.sections (s : State) : NMap Sect := match s.fab.image with | some i => i.sects | none => []

/-- Sum of POWER_MIN of the sections in force. -/
def State.sumMin (s : State) : Nat := (s.sections.map (fun e => e.2.pmin)).sum

/-- The effective cap C (R380). -/
def State.effCap (s : State) : Nat :=
  let floor := min 1900 (s.sumMin + s.guardW)
  min (max (min 1900 (s.fget PWR_CAP_SUSTAINED_W)) floor) (min 1900 (s.fget PWR_THERM_THERM_CAP_W))

/-- Length of window `n` in µs, and its limit in W at cap `c` (R379). -/
def winLen : Nat → Nat
  | 0 => 1000 | 1 => 50000 | _ => 1000000
def winLimit (c : Nat) : Nat → Nat
  | 0 => min 2300 (c + 400) | 1 => min 2100 (c + 200) | _ => c

/-- The limits follow the cap: a fall takes effect at once, a rise only at a tick (R381), and in the furled state neither (R401). -/
def State.capUpdate (s : State) (tick : Bool) : State :=
  if s.asleep then s else
  let c := s.effCap
  let s := if tick || decide (c < s.fget PWR_CAP_EFFECTIVE_W) then s.fset PWR_CAP_EFFECTIVE_W c else s
  (List.range 3).foldl (fun s n =>
    let new := winLimit c n
    let old := s.fget (PWR_WIN_LIMIT_W n)
    if new < old then
      { s with pwr := { s.pwr with ages := s.pwr.ages.set n (some 0) } }.fset (PWR_WIN_LIMIT_W n) new
    else if tick then s.fset (PWR_WIN_LIMIT_W n) new else s) s

/-- Energy of the last `n` µs as window `w` counts it: what was used before the last fall of its limit, and within the TAPER_US in which that fall is met,
counts at most as the limit less GUARD_W times the time (R381, log entry 186). -/
def State.counted (s : State) (w n : Nat) : Nat :=
  let h := s.pwr.hist.take n
  match s.pwr.ages.getD w none with
  | none => h.sum
  | some a =>
    let full := a - s.taperUs
    if n ≤ full then h.sum
    else (h.take full).sum + min (h.drop full).sum ((s.fget (PWR_WIN_LIMIT_W w) - s.guardW) * 1000 * (n - full))

/-- The budget B in mW (R384): the largest power that, held for TAPER_US, keeps every window that ends in that time at its limit less GUARD_W. -/
def State.budget (s : State) : Nat :=
  let one := fun w => (List.range (min s.taperUs (winLen w))).map (fun i =>
    ((s.fget (PWR_WIN_LIMIT_W w) - s.guardW) * 1000 * winLen w - s.counted w (winLen w - (i + 1))) / (i + 1))
  ((one 0) ++ (one 1) ++ (one 2)).foldl min (2300 * 1000 * 1000000)

-- The phase model (R387) ------------------------------------------------------------------------------------------------------------------

/-- The phase of a tile that holds a task. -/
def State.tilePhase (s : State) (t : Nat) : Option Nat :=
  (s.tileTask t).map (fun k => match k.st with | .spilling | .restoring => 63 | _ => k.d.phase)

/-- Address of entry `x` of the phase table of `p`. -/
def State.phaseAddr (s : State) (p x : Nat) : Nat := s.fget (PWR_P_PHASE_BASE_BASE p) * 2 ^ 11 + 32 * x

/-- The entry's P_BASE and P_ISSUE, FP32; a zero is the fused default. -/
def State.phasePow (s : State) (p x : Nat) : Nat × Nat :=
  let b := (s.memGet p (s.phaseAddr p x) 32).getD []
  (if (fp32 (leAt b 0 4)).isZero then Config.defBase.toNat else leAt b 0 4,
   if (fp32 (leAt b 4 4)).isZero then Config.defIssue.toNat else leAt b 4 4)

/-- FP32 watts as µW, at least 0. -/
def microW (v : Nat) : Nat := ((fp32 v).mul (Num.ofInt 1000000)).floorInt.toNat

/-- V(k) of a tile's group, trimmed (R459), in 0.1 mV. -/
def State.volts (s : State) (t k : Nat) : Nat :=
  (((Config.vcore (dieOf t) k : Nat) : Int) + 10 * s.trimByte (0x10 + 4 * dieOf t + t % 76 / 19)).toNat

/-- A power at k = 64 scaled to step `k`. -/
def State.scaleK (s : State) (t k v : Nat) : Nat := v * k * s.volts t k ^ 2 / (64 * s.volts t 64 ^ 2)

/-- Predicted power of a tile at step `k`, µW: without issue, and added by issue at m = 64. -/
def State.pred (s : State) (k t : Nat) : Nat × Nat :=
  match s.tilePart t, s.tilePhase t with
  | some p, some x => let (b, i) := s.phasePow p x; (s.scaleK t k (microW b), s.scaleK t k (microW i))
  | _, _ => (if s.tileFuse t = 2 then 0 else Config.idlePower t, 0)

/-- The tile-core group of a tile (R451): its die's row. -/
def tileGroup (t : Nat) : Nat := 4 * dieOf t + t % 76 / 19

-- Division of the cap (R389, R390) ---------------------------------------------------------------------------------------------------------

/-- A partition's part in the division: its number, weight, least and most µW, full issue µW, and what it has been given. -/
structure Div where
  p : Nat
  weight : Nat
  cap : Nat
  full : Nat
  given : Nat
  deriving DecidableEq, Repr

/-- The remainder divided in proportion to the weights; what a partition cannot take is divided again. -/
def divide : Nat → Nat → List Div → List Div
  | 0, _, l => l
  | n + 1, r, l =>
    let w := ((l.filter (fun d => decide (d.given < d.cap))).map (·.weight)).sum
    if r = 0 ∨ w = 0 then l else
    let l' := l.map (fun d => if d.given < d.cap then { d with given := min d.cap (d.given + r * d.weight / w) } else d)
    let used := (l'.map (·.given)).sum - (l.map (·.given)).sum
    if used = 0 then l' else divide n (r - used) l'

/-- Non-issue power at step `k`, µW: the measured non-tile power and the predicted base of every tile (R384). -/
def State.nonIssue (s : State) (k : Nat) : Nat := s.pwr.nonTile * 1000 + ((List.range 152).map (fun t => (s.pred k t).1)).sum

/-- The guaranteed share of partition `p`, µW (R380). -/
def State.guarantee (s : State) (pmin : Nat) : Nat :=
  let room := s.fget PWR_CAP_EFFECTIVE_W - s.guardW
  if s.sumMin ≤ room then pmin * 1000000 else pmin * room * 1000000 / s.sumMin

/-- Does a task of the partition hold tiles? -/
def State.working (s : State) (p : Nat) : Bool := (s.sp p).tasks.any (fun e => e.2.holds && !e.2.tiles.isEmpty)

/-- Shares in µW and m of the working partitions, at step `k` with budget `b` µW and measured non-issue powers `ni` µW (R389, R390). -/
def State.division (s : State) (k b : Nat) (ni : Nat → Nat) : List (Nat × Nat × Nat) :=
  let parts := s.sections.filter (fun e => s.working e.1)
  let tot := s.nonIssue k
  let mk := fun (e : Nat × Sect) =>
    let full := ((s.partTiles e.1).map (fun t => (s.pred k t).2)).sum
    let cap := min full (e.2.pmax * 1000000 - ni e.1)
    ({ p := e.1, weight := e.2.pmax - e.2.pmin, cap, full, given := min cap (s.guarantee e.2.pmin - ni e.1) } : Div)
  let ds := parts.map mk
  let ds := divide 17 (b - tot - (ds.map (·.given)).sum) ds
  ds.map (fun d =>
    let above := match mfind s.sections d.p with | some c => decide (c.pmax * 1000000 < ni d.p) | none => false
    (d.p, d.given, if b < tot || above then 0 else if d.full = 0 then 64 else min 64 (d.given * 64 / d.full)))

-- Energy (R398) ------------------------------------------------------------------------------------------------------------------------------

/-- `e` shared among partitions in proportion to weights; none is unattributed. -/
def shareOut (e : Nat) (ws : List (Option Nat × Nat)) : List (Nat × Nat) :=
  let t := (ws.map (·.2)).sum
  if t = 0 then [] else ws.filterMap (fun w => w.1.map (fun p => (p, e * w.2 / t)))

/-- The partition that an owner's traffic counts for. -/
def State.ownerPart (s : State) (o : Nat) : Option Nat :=
  if o < 16 then some o else (s.shared (o - 16)).bind (fun r => if r.writer < 16 then some r.writer else none)

/-- The partition that holds sub-port `k` of port `j`. -/
def State.subHolder (s : State) (j k : Nat) : Option Nat :=
  (s.sections.find? (fun e => e.2.ports.testBit (4 * j + k))).map (·.1)

/-- Sub-ports of a port in its mode. -/
def State.subPorts (s : State) (j : Nat) : Nat :=
  match s.fab.image with
  | some i => (match i.dev.portMode.getD j 0 with | 1 => 1 | 2 => 2 | 4 => 4 | _ => 0)
  | none => 0

/-- The energy in nJ that a microsecond attributes to partitions outside the tile cores: HBM stacks, then SerDes and transport. -/
def State.otherEnergy (s : State) (x : Samp) : List (Nat × Nat) :=
  let e := fun i => (x.sense.getD i (0, 0, 0)).2.2
  let hbm := (List.range 8).flatMap (fun k =>
    shareOut (e (10 + k)) ((x.lines.filter (fun l => l.1 == k)).map (fun l => (s.ownerPart l.2.1, l.2.2))))
  let eth := (List.range 16).flatMap (fun j =>
    let ports := ((List.range 8).filter (fun i => s.portThere (8 * (j / 8) + i))).length
    if !s.portThere j then [] else
    let part := e (18 + j / 8) / ports
    let bs := x.bytes.filter (fun b => b.1 == j && decide (0 < b.2.2))
    if bs.isEmpty then shareOut part ((List.range (s.subPorts j)).map (fun k => (s.subHolder j k, 1)))
    else shareOut part (bs.map (fun b => (s.subHolder j b.2.1, b.2.2))))
  hbm ++ eth

/-- The tiles' parts of their groups' energies, nJ: tile, energy. `sc` gives each tile's issue cycles. -/
def State.tileEnergy (s : State) (x : Samp) (k : Nat) (sc : Nat → Nat) : List (Nat × Nat) :=
  let pr := (List.range 152).map (fun t => let (b, i) := s.pred k t; (t, b + i * sc t / 64))
  (List.range 8).flatMap (fun g =>
    let e := (x.sense.getD g (0, 0, 0)).2.2
    let ts := pr.filter (fun q => tileGroup q.1 == g)
    let tot := (ts.map (·.2)).sum
    if tot = 0 then [] else ts.map (fun q => (q.1, e * q.2 / tot)))

/-- Sum of the entries for key `p`. -/
def sumAt (l : List (Nat × Nat)) (p : Nat) : Nat := ((l.filter (fun e => e.1 == p)).map (·.2)).sum

/-- ENERGY and TILE_US of the entries of the running phases (R398), with the defaults put in at first use (R387). -/
def State.phaseAccount (s : State) (te : List (Nat × Nat)) : State :=
  let use := (List.range 152).filterMap (fun t => match s.tilePart t, s.tilePhase t with | some p, some x => some (t, 64 * p + x) | _, _ => none)
  let keys := use.foldl (fun a u => sins a u.2) []
  keys.foldl (fun s key =>
    let p := key / 64
    let a := s.phaseAddr p (key % 64)
    match s.memGet p a 32 with
    | none => s
    | some b =>
      let ts := (use.filter (fun u => u.2 == key)).map (·.1)
      let nj := mget 0 s.pwr.phaseFrac key + (ts.map (sumAt te)).sum
      let (pb, pi) := s.phasePow p (key % 64)
      let s := { s with pwr := { s.pwr with phaseFrac := mset 0 s.pwr.phaseFrac key (nj % 1000) } }
      s.memPut p powerSrc a (leBytes 4 pb ++ leBytes 4 pi ++ bytesAt b 8 8 ++ leBytes 8 ((leAt b 0x10 8 + nj / 1000) % 2 ^ 64) ++
        leBytes 8 ((leAt b 0x18 8 + ts.length) % 2 ^ 64)) .inPlace) s

/-- The partition counters, the total and the unattributed counter, which always add up (R398). `l` is nJ by partition. -/
def State.account (s : State) (energy : Nat) (l : List (Nat × Nat)) : State :=
  let tot := mget 0 s.pwr.frac 16 + energy
  let s := { s.finc PWR_ENERGY_TOTAL_UJ (tot / 1000) with pwr := { s.pwr with frac := mset 0 s.pwr.frac 16 (tot % 1000) } }
  let (s, _) := (List.range 16).foldl (fun (a : State × Nat) p =>
    let (s, left) := a
    let e := min left (sumAt l p)
    let f := mget 0 s.pwr.frac p + e
    let hist := (e :: mget [] s.pwr.pHist p).take 1000
    let s := (s.finc (PWR_P_ENERGY_UJ p) (f / 1000)).fset (PWR_P_POWER_POWER_W p) (min 0xFFFF (hist.sum / 1000000))
    ({ s with pwr := { s.pwr with frac := mset 0 s.pwr.frac p (f % 1000),
                                  pHist := mset [] s.pwr.pHist p (if hist.all (· == 0) then [] else hist) } }, left - e)) (s, energy)
  s.fset PWR_ENERGY_UNATTRIB_UJ (s.fget PWR_ENERGY_TOTAL_UJ - ((List.range 16).map (fun p => s.fget (PWR_P_ENERGY_UJ p))).sum)

-- The tick (R383 to R390) ---------------------------------------------------------------------------------------------------------------------

/-- Is sense point `i` checked (R451)? On a GLE9-H points 12, 13, 16 and 17 read 0. -/
def State.pointChecked (s : State) (i : Nat) : Bool := s.fuse.variant != 2 || !(i == 12 || i == 13 || i == 16 || i == 17)

/-- A raw reading of the input current, or of the energy formed with it, through the current-sense gain: fused value plus INPUT_GAIN (R457, R459). -/
def State.gained (s : State) (v : Nat) : Nat :=
  let g := s.fuse.gain + (match s.gen.trim with | some b => toSigned 16 (leAt b 0x1A 2) | none => 0)
  (((v : Nat) : Int) * (1000000 + g) / 1000000).toNat

/-- The sample as the controller takes it. -/
def State.sampled (s : State) (x : Samp) : Samp :=
  { x with amp := s.gained x.amp, energy := s.gained x.energy,
           sense := (List.range 24).map (fun i => if s.pointChecked i then x.sense.getD i (0, 0, 0) else (0, 0, 0)) }

/-- The measured values in their registers. -/
def State.measure (s : State) (x : Samp) : State :=
  let s := s.fsets [(PWR_INPUT_VOLT, min 0xFFFF x.volt), (PWR_INPUT_POWER_W, min 0xFFFF (x.energy / 1000)),
                    (PWR_INPUT_CURRENT_CENTIAMP, min 0xFFFF x.amp)]
  let s := (List.range 24).foldl (fun s i =>
    let q := x.sense.getD i (0, 0, 0)
    s.fsets [(PWR_SENSE_MILLIVOLT i, min 0xFFFF q.1), (PWR_SENSE_CENTIAMP i, min 0xFFFF q.2.1)]) s
  let e := fun i => (x.sense.getD i (0, 0, 0)).2.2
  { s with pwr := { s.pwr with hist := (x.energy :: s.pwr.hist).take 1000000,
                               ages := s.pwr.ages.map (fun a => a.map (· + 1)),
                               groups := (List.range 8).map e,
                               nonTile := ((List.range 24).filter (fun i => decide (8 ≤ i))).foldl (fun a i => a + e i) 0 } }

/-- One round of admission: every tile in turn is raised towards `to_` by what is left of the room. -/
def letIn (to_ : Nat → Nat) (a : List (Nat × Nat) × Nat) : List (Nat × Nat) × Nat :=
  let r := a.1.foldl (fun (b : List (Nat × Nat) × Nat) e => let d := min (to_ e.1 - e.2) b.2; ((e.1, e.2 + d) :: b.1, b.2 - d)) ([], a.2)
  (r.1.reverse, r.2)

/-- m that the guaranteed share alone gives partition `p` (R41, R389). -/
def State.guaranteedM (s : State) (k p : Nat) : Nat :=
  let full := ((s.partTiles p).map (fun t => (s.pred k t).2)).sum
  let ni := sumAt s.pwr.other p * 1000 + ((s.partTiles p).map (fun t => (s.pred k t).1)).sum
  let share := (mfind s.sections p).map (fun c => s.guarantee c.pmin) |>.getD 0
  if full = 0 then 64 else min 64 ((share - ni) * 64 / full)

/-- What the arrays issue in the microsecond (R384, R386): at most m_p each, and in all no more than the slew limit lets it rise. Room goes first to what
each tile issued before, then to what the guaranteed shares give, then to the rest, in the order of the sample (R41, log entry 201). -/
def State.issued (s : State) (x : Samp) : List (Nat × Nat) :=
  let k := s.fget CLK_ARITH_K
  let prevTot := (s.pwr.prev.map (·.2)).sum
  let full := (List.range 152).foldl (fun a t => max a (s.pred k t).2) 0
  let room := clamp 1 400 (s.fget PWR_SLEW_MA_PER_US) * x.volt * 10 - (s.nonIssue k - s.pwr.nonIssue)
  let top := if full = 0 then prevTot else prevTot + room * 64 / full
  let wants := x.issue.filterMap (fun e => (s.tilePart e.1).map (fun p => (e.1, min e.2 (s.fget (PWR_P_SHARE_M p)))))
  let want := sumAt wants
  let sure := fun t => match s.tilePart t with | some p => min (want t) (s.guaranteedM k p) | none => 0
  (letIn want (letIn sure (letIn (fun t => min (want t) (mget 0 s.pwr.prev t)) (wants.map (fun w => (w.1, 0)), top)))).1

/-- Ballast (R385): what a fall of the total issue leaves to fill, on the tiles whose issue fell, in increasing tile ID (log entry 19). -/
def State.ballast (s : State) (real : List (Nat × Nat)) : List (Nat × Nat) :=
  let prevTot := (s.pwr.prev.map (·.2)).sum
  let need := prevTot - 144 * 64 / s.taperUs - (real.map (·.2)).sum
  (s.pwr.prev.foldl (fun (a : List (Nat × Nat) × Nat) e =>
    let v := min (e.2 - sumAt real e.1) a.2
    if v = 0 then a else ((e.1, v) :: a.1, a.2 - v)) ([], need)).1.reverse

/-- The windows' averages; a window over its limit sets EXCEEDED (R390). -/
def State.windows (s : State) : State :=
  let s := (List.range 3).foldl (fun s n =>
    if winLen n ≤ s.pwr.hist.length then
      s.fset (PWR_WIN_AVG_W n) (min 0xFFFF ((s.pwr.hist.take (winLen n)).sum / (winLen n * 1000))) else s) s
  if (List.range 3).any (fun n => decide (s.fget (PWR_WIN_LIMIT_W n) * 1000 * winLen n < s.counted n (winLen n))) then
    let s := if s.fbit PWR_STATUS_EXCEEDED then s else { s with led := { s.led with exceeded := s.led.exceeded + 1 } }
    s.fset PWR_STATUS_EXCEEDED 1
  else s

/-- Non-issue power of each partition in the microsecond, µW: its attributed power less the part of its tiles' power due to matrix issue. -/
def State.partNonIssue (s : State) (k : Nat) (te other : List (Nat × Nat)) (sc : Nat → Nat) (p : Nat) : Nat :=
  sumAt other p * 1000 + ((s.partTiles p).map (fun t =>
    let (b, i) := s.pred k t
    let tot := b + i * sc t / 64
    if tot = 0 then 0 else sumAt te t * 1000 * b / tot)).sum

/-- m and SHARE of every partition for the next microsecond (R389, R390). -/
def State.setShares (s : State) (k : Nat) (ni : Nat → Nat) : State :=
  let b := s.budget
  let tot := s.nonIssue k
  let s := s.fsets [(PWR_BUDGET_BUDGET_W, min 0xFFFF (b / 1000)), (PWR_BUDGET_NONISSUE_W, min 0xFFFF (tot / 1000000))]
  let ds := s.division k (b * 1000) ni
  let s := ds.foldl (fun s d => s.fsets [(PWR_P_SHARE_M d.1, d.2.2), (PWR_P_SHARE_SHARE_W d.1, min 0xFFFF (d.2.1 / 1000000))]) s
  -- a partition without work has no share; without issue every m fits it, but for the cases of R390
  let above := fun (e : Nat × Sect) => decide (e.2.pmax * 1000000 < ni e.1)
  let s := (s.sections.filter (fun e => !ds.any (fun d => d.1 == e.1))).foldl (fun s e =>
    s.fsets [(PWR_P_SHARE_M e.1, if b * 1000 < tot || above e then 0 else 64), (PWR_P_SHARE_SHARE_W e.1, 0)]) s
  let s := s.fset PWR_STATUS_LIMITED (b2n (ds.any (fun d => decide (d.2.2 < 64))))
  let s := if s.sections.any above then s.fset PWR_STATUS_OVER_MAX 1 else s
  if b * 1000 < tot then
    let s := if s.fbit PWR_STATUS_OVER then s else s.devEv 0x23 2 (Config.evCode 0x23).toNat (Config.evDetail 0x23).toNat
    s.fset PWR_STATUS_OVER 1
  else s

/-- Eye heights of SerDes lanes join the histogram (R444). -/
def State.eyes (s : State) (lanes : List Nat) : State :=
  { s with led := { s.led with eye := lanes.foldl (fun m l => mupd 0 m (16 * l + min 15 ((Config.eyeMv l s.now).toNat / 4)) (· + 1)) s.led.eye } }

/-- Sub-ports of the mode in force of a port (R289). -/
def State.ethSubs (s : State) (j : Nat) : Nat :=
  match s.fget (ETH_STATUS_MODE j) with
  | 1 => 1 | 2 => 2 | 4 => 4 | _ => 0

/-- The lanes of a sub-port (R289), numbered 8 × port + lane. -/
def State.lanes (s : State) (j k : Nat) : List Nat :=
  let n := 8 / max 1 (s.ethSubs j)
  (List.range n).map (fun i => 8 * j + n * k + i)

/-- The lanes of the links that are up. -/
def State.liveLanes (s : State) : List Nat :=
  (List.range 16).flatMap (fun j => ((List.range 4).filter (fun k => s.fbit (ETH_LINK_UP j k))).flatMap (s.lanes j))

/-- The start of a tick: time, measurements (of eye heights every 15 min), the cap, throttled time and the windows. -/
def State.tickStart (s : State) (x : Samp) : State :=
  let on := s.gen.onUs + s.fget GEN_PINS_PWR_GOOD
  let s := ({ s with now := s.now + 1, gen := { s.gen with onUs := on } }.measure x).capUpdate true
  let s := if s.fbit PWR_STATUS_THROTTLING && s.now % 1000 == 0 then { s with led := { s.led with throttle := s.led.throttle + 1 } } else s
  let s := if s.now % 900000000 == 0 then s.eyes s.liveLanes else s
  s.windows

/-- m of each partition kept for the averages of R394. -/
def State.mHistory (s : State) (real : List (Nat × Nat)) : NMap (List Nat) :=
  (List.range 16).foldl (fun m p =>
    if real.any (fun e => s.tilePart e.1 == some p && decide (0 < e.2)) then
      mset [] m p ((s.fget (PWR_P_SHARE_M p) :: mget [] m p).take 1000) else m) s.pwr.mHist

/-- The part of a tick in the awake state: what the arrays issued (`real`, and `bal` of ballast), its energy, and the next shares. -/
def State.tickIssue (s : State) (x : Samp) (k : Nat) (real bal : List (Nat × Nat)) : State :=
  let sc := fun t => sumAt real t + sumAt bal t
  let te := s.tileEnergy x k sc
  let other := s.otherEnergy x
  let mine := te.filterMap (fun e => (s.tilePart e.1).map (fun p => (p, e.2)))
  let ni := s.partNonIssue k te other sc
  let pw := { s.pwr with other := other, prev := (List.range 152).filterMap (fun t => if sc t = 0 then none else some (t, sc t)),
                         nonIssue := s.nonIssue k, mHist := s.mHistory real }
  ((({ s with pwr := pw }.fset PWR_STATUS_TAPERING (b2n !bal.isEmpty)).account x.energy (mine ++ other)).phaseAccount te).setShares k ni

/-- Fabric cycles of a microsecond in which partition `p` is in a step and no task of it holds a tile count in SCH_SQ_IDLECYC. -/
def State.idleCycles (s : State) (p : Nat) : State :=
  if s.fbit (SCH_SQ_STATUS_RUNNING p) && !s.working p then s.finc (SCH_SQ_IDLECYC_CYCLES p) (6000 / clamp 4 8 (s.fget CLK_DIV_FABRIC)) else s

/-- The part of a tick outside the awake state: the energy is attributed as ever, with no issue (R398). -/
def State.tickFurled (s : State) (x : Samp) : State :=
  let te := s.tileEnergy x (s.fget CLK_ARITH_K) (fun _ => 0)
  let mine := te.filterMap (fun e => (s.tilePart e.1).map (fun p => (p, e.2)))
  (s.account x.energy (mine ++ s.otherEnergy x)).phaseAccount te

/-- CONTROLLER_TICK (R383 to R390, R398): one microsecond. While the clocks stand still only the measurements and the energy account go on; in reset
and without input power nothing does. -/
def State.tick (s : State) (raw : Samp) : State :=
  if !s.gen.causes.all (fun c => c == 4 || c == 5) || s.gen.vin == 0 then s else
  let x := s.sampled raw
  let s := (List.range 16).foldl State.idleCycles (s.tickStart x)
  if s.asleep then s.tickFurled x
  else s.tickIssue x (s.fget CLK_ARITH_K) (s.issued x) (s.ballast (s.issued x))

-- The model's correction (R388) ------------------------------------------------------------------------------------------------------------

/-- FP32 value plus the fraction num / den watts, rounded once. -/
def addFrac (v : Nat) (num : Int) (den : Nat) : Nat :=
  rne32 (Num.divSticky 64 (((fp32 v).mul (Num.ofInt den)).add (Num.ofInt num)) (Num.ofInt den))

/-- The corrections that group `g` gives to phase entry `key`, as fractions of a W over 16,000,000 × the group's prediction. -/
def State.correction (s : State) (key g : Nat) : Int × Int × Nat :=
  let k := s.fget CLK_ARITH_K
  let ts := (List.range 152).filter (fun t => tileGroup t == g)
  let parts := ts.map (fun t => let (b, i) := s.pred k t; (t, b, i * mget 0 s.pwr.prev t / 64))
  let tot : Nat := (parts.map (fun q => q.2.1 + q.2.2)).sum
  let e : Int := ((s.pwr.groups.getD g 0 * 1000 : Nat) : Int) - (tot : Int)
  let mine := parts.filter (fun q => match s.tilePart q.1, s.tilePhase q.1 with | some p, some x => 64 * p + x == key | _, _ => false)
  (e * ((mine.map (fun q => q.2.1)).sum : Nat), e * ((mine.map (fun q => q.2.2)).sum : Nat), (16000000 * tot : Nat))

/-- MODEL_CORRECTION (R388): every entry that serves tiles receives the sum of their corrections. -/
def State.modelCorrect (s : State) : State :=
  let keys := (List.range 152).foldl (fun a t => match s.tilePart t, s.tilePhase t with | some p, some x => sins a (64 * p + x) | _, _ => a) []
  keys.foldl (fun r key =>
    let p := key / 64
    let a := s.phaseAddr p (key % 64)
    match s.memGet p a 32 with
    | none => r
    | some b =>
      let (pb, pi) := s.phasePow p (key % 64)
      let cs := ((List.range 8).map (s.correction key)).filter (fun c => decide (0 < c.2.2))
      -- one common denominator
      let den := cs.foldl (fun d c => d * c.2.2) 1
      let nb := cs.foldl (fun n c => n + c.1 * ((den / c.2.2 : Nat) : Int)) 0
      let ni := cs.foldl (fun n c => n + c.2.1 * ((den / c.2.2 : Nat) : Int)) 0
      r.memPut p powerSrc a (leBytes 4 (addFrac pb nb den) ++ leBytes 4 (addFrac pi ni den) ++ leBytes 4 (satAdd 32 (leAt b 8 4) 1) ++ bytesAt b 0xC 20) .inPlace) s

-- Temperature (R391, R444) -----------------------------------------------------------------------------------------------------------------

/-- A sensor's reading with the fused offset and the trim of its group (R457, R459). -/
def State.trimmed (s : State) (g v : Nat) : Nat := ((v : Int) + mget 0 s.fuse.sensor g + s.trimByte (0x1C + g)).toNat

/-- The ledger's temperature histogram, peak and thermal cycles. -/
def State.thermLedger (s : State) (ts : List Nat) : State :=
  let l := (List.range 10).foldl (fun m g => mupd 0 m (32 * g + min 31 (ts.getD g 0 / 4)) (· + 1)) s.led.temp
  let hot := max (ts.getD 0 0) (ts.getD 1 0)
  let s := { s with led := { s.led with temp := l, peak := min 255 (max s.led.peak (ts.foldl max 0)) } }
  match s.pwr.low with
  | none =>
    if hot + 20 ≤ s.pwr.peak then { s with pwr := { s.pwr with low := some hot } }
    else { s with pwr := { s.pwr with peak := max s.pwr.peak hot } }
  | some low =>
    if low + 20 ≤ hot then { s with led := { s.led with cycles := s.led.cycles + 1 }, pwr := { s.pwr with peak := hot, low := none } }
    else { s with pwr := { s.pwr with low := some (min low hot) } }

/-- THERMAL_READ (R391): the readings of the two dies' hottest sensors and of the eight stacks. -/
def State.thermal (s : State) (raw : List Nat) : State :=
  let ts := (List.range 10).map (fun g => s.trimmed g (raw.getD g 0))
  let hot := ts.foldl max 0
  let s := s.thermLedger ts
  let s := { s with pwr := { s.pwr with hotDie := min 255 (max (ts.getD 0 0) (ts.getD 1 0)), hotStack := min 255 ((ts.drop 2).foldl max 0) } }
  let thr := s.throttleC
  let cap := s.fget PWR_THERM_THERM_CAP_W
  let cap' := if thr ≤ hot then cap - 25 else if hot + 3 ≤ thr then min 1900 (cap + 25) else cap
  let was := s.fbit PWR_STATUS_THROTTLING
  let now := decide (cap' < 1900)
  let s := s.fsets [(PWR_THERM_HOTTEST_C, min 255 hot), (PWR_THERM_THERM_CAP_W, cap'), (PWR_STATUS_THROTTLING, b2n now)]
  let s := if was == now then s else s.devEv 0x24 0 (Config.evCode 0x24).toNat (Config.evDetail 0x24).toNat
  let s := if now == was then s
    else { s with gen := { s.gen with alert := now || (s.gen.alert && (s.fget GEN_PINS_FAULT_N == 0 || s.gen.readyOff)) } }
  s.capUpdate false

-- Frequency proposals (R394) -----------------------------------------------------------------------------------------------------------------

/-- M_LOW and M_HIGH in effect. -/
def State.mLow (s : State) : Nat := clamp 1 63 (s.fget PWR_AGREE_CFG_M_LOW)
def State.mHigh (s : State) : Nat := if s.fget PWR_AGREE_CFG_M_HIGH ≤ s.mLow then s.mLow + 1 else s.fget PWR_AGREE_CFG_M_HIGH

/-- m that R389 predicts for partition `p` at step `k`, for the current budget and shares: each partition's non-issue power is the base of its tiles
at `k` and what the last µs attributed to it beside them. -/
def State.predM (s : State) (p k : Nat) : Nat :=
  let ni := fun q => sumAt s.pwr.other q * 1000 + ((s.partTiles q).map (fun t => (s.pred k t).1)).sum
  ((s.division k (s.budget * 1000) ni).find? (fun d => d.1 == p)).map (fun d => d.2.2) |>.getD 64

/-- m_p: the average m over the last 1 ms in which the partition issued; 64 when it did not. -/
def State.avgM (s : State) (p : Nat) : Nat :=
  let l := mget [] s.pwr.mHist p
  if l.isEmpty then 64 else l.sum / l.length

/-- K_PROP, CAPPED and m_p of partition `p` (R394). -/
def State.kProp (s : State) (p : Nat) : Nat × Bool × Nat :=
  let ka := s.fget CLK_ARITH_K
  let m := s.avgM p
  if m < s.mLow then
    let ks := ((List.range (ka + 1)).filter (fun k => decide (43 ≤ k) && decide (s.mLow ≤ s.predM p k)))
    (min s.kDev (match ks.getLast? with | some k => k | none => s.kMin), true, m)
  else if s.mHigh ≤ s.predM p (ka + 1) then (min s.kDev (ka + 1), false, m)
  else (min s.kDev ka, false, m)

/-- The proposal as the registers show it. -/
def State.propose (s : State) (p : Nat) : State :=
  let (k, c, _) := s.kProp p
  s.fsets [(PWR_P_AGREE_CAPPED p, b2n c), (PWR_P_AGREE_K_PROP p, k)]

/-- K_PROP_PERIOD (R396): the partitions that hold tiles and whose sequencer is not enabled form K_PROP; the target is formed anew. A furled device
does neither, and keeps its k for the wake (R401, R402). -/
def State.kPropPeriod (s : State) : State :=
  if s.asleep then s else
  let ps := (List.range 16).filter (fun p => !s.fbit (SCH_SQ_CTRL_ENABLE p) && !(s.partTiles p).isEmpty)
  let s := ps.foldl State.propose s
  let s := { s with pwr := { s.pwr with kProp := ps.foldl (fun m p => mins m p (s.fget (PWR_P_AGREE_K_PROP p))) [] } }
  s.retarget

/-- The energy of the step just ended and its number, latched together (R399). -/
def State.latchEnergy (s : State) (p n : Nat) : State :=
  let e := s.fget (PWR_P_ENERGY_UJ p)
  let s := s.fsets [(PWR_P_STEP_ENERGY_UJ p, e - mget 0 s.pwr.stepE p), (PWR_P_STEP_NUM_STEP p, n)]
  { s with pwr := { s.pwr with stepE := mset 0 s.pwr.stepE p e } }

-- Furled (R400 to R402) ---------------------------------------------------------------------------------------------------------------------

/-- Does partition `p` stand in the way of furling? -/
def State.notIdle (s : State) (p : Nat) : Bool :=
  !s.fbit (SCH_PSTATUS_IDLE p) || !s.fbit (LIG_PSTATUS_IDLE p) || !s.fbit (PAL_STATUS_IDLE p) ||
    s.fget (ZTX_P_SQ_HEAD_HEAD p) != s.fget (ZTX_P_SQ_TAIL_TAIL p)

/-- A furl request (R400). -/
def State.furl (s : State) : State :=
  let st := s.fget PWR_FURL_STATE
  let parts := s.sections.map (·.1)
  if st = 3 then s.fset PWR_FURL_REFUSE 4
  else if st ≠ 0 then s
  else if parts.any s.notIdle then s.fset PWR_FURL_REFUSE 1
  else if s.fab.job.isSome then s.fset PWR_FURL_REFUSE 2
  else if parts.any (fun p => s.hostLost p && decide (0 < (s.hp p).unread.length + (s.hp p).waiting.length)) then s.fset PWR_FURL_REFUSE 3
  else s.fset PWR_FURL_STATE 1

/-- A trigger wakes the furled device; during furling it is kept until the device is furled (R402). -/
def State.wakeUp (s : State) : State :=
  match s.fget PWR_FURL_STATE with
  | 2 => s.fset PWR_FURL_STATE 3
  | 1 => { s with pwr := { s.pwr with wake := true } }
  | _ => s

/-- FURL_COMPLETE (R401), once the taper of R385 has ended: the LLC is flushed, the tiles' contents are lost (log entry 20), the stacks are in self-refresh. -/
def State.furlDone (s : State) : State :=
  if s.fget PWR_FURL_STATE ≠ 1 ∨ !s.pwr.prev.isEmpty then s else
  let held := (s.fget PWR_CTRL_GUARD_W, s.fget PWR_CTRL_TAPER_US, s.fget PWR_THERM_THROTTLE_C)
  let s := { s with hbm := { s.hbm with llc := [] }, ink := [], blot := [], acc := [], pwr := { s.pwr with held },
                    tiles := s.tiles.map (fun (e : Nat × Tile) => (e.1, { e.2 with tags := [], cand := [] })) }
  let s := (List.range 8).foldl (fun s k => if s.stackThere k then s.fset (HBM_STACK_STATUS_SELF_REFRESH k) 1 else s) s
  let s := { s with led := { s.led with furls := s.led.furls + 1 } }.snapDue 3
  let s := (s.fset PWR_FURL_STATE 2).devEv 0x24 0 (Config.evCode 0x24).toNat (Config.evDetail 0x24).toNat
  if s.pwr.wake then { s with pwr := { s.pwr with wake := false } }.wakeUp else s

/-- The device is awake (R402): the clocks resume at the k in force, issue rises from zero, what was set while furled takes effect (R401), and the ledger
records the wake in a snapshot (log entry 202). -/
def State.awake (s : State) : State :=
  if s.fget PWR_FURL_STATE ≠ 3 then s else
  let s := (List.range 8).foldl (fun s k => s.fset (HBM_STACK_STATUS_SELF_REFRESH k) 0) s
  let s := ((({ s with pwr := { s.pwr with prev := [] } }.fset PWR_FURL_STATE 0).capUpdate false).retarget).snapDue 3
  s.devEv 0x24 0 (Config.evCode 0x24).toNat (Config.evDetail 0x24).toNat

/-- A write of PWR_CAP.SUSTAINED_W (R381). -/
def State.capWrite (s : State) (v : Nat) : State := (s.fset PWR_CAP_SUSTAINED_W v).capUpdate false

def execControllerTick (x : Samp) (s : State) : Host.Outcome State Fault Refusal := .next (s.tick x)
def execModelCorrection (s : State) : Host.Outcome State Fault Refusal := .next s.modelCorrect
def execThermalRead (raw : List Nat) (s : State) : Host.Outcome State Fault Refusal := .next (s.thermal raw)
def execKPropPeriod (s : State) : Host.Outcome State Fault Refusal := .next s.kPropPeriod

end Sys2Proof.Machine
end

