-- ==== Sys2Proof/Machine/Sequencer.lean ====
section
/-!
DEFINITION. The stage sequencer (R211 to R236): joining a bunting, schedule tables and their checks, releasing entries, reductions, the
close and combined records, frequency reports (R394 to R396) and entering a step.
-/
namespace Sys2Proof.Machine

-- Faults and tables -----------------------------------------------------------------------------------------------------------------------

/-- Records sequencer fault `code` at an entry (0x1F_FFFF for a header, R224); `halt` for a fault that halts the sequencer. -/
def State.sqFault (s : State) (p code entry : Nat) (halt : Bool) : State :=
  (if halt then s.fset (SCH_SQ_STATUS_HALTED p) 1 else s).recErr
    { idx := 0x50 + p, valid := SCH_SQ_FAULT_VALID p, ovf := some (SCH_SQ_FAULT_OVERFLOW p),
      fill := [(SCH_SQ_FAULT_CODE p, code), (SCH_SQ_FAULT_ENTRY_ENTRY p, entry)], ev := mkEv 0x0F 2 (some p) true code entry }

/-- R of R230: 64 + 8 × WATCH_COUNT, rounded up to a multiple of 512. -/
def State.closeLen (s : State) (p : Nat) : Nat := ceilDiv (64 + 8 * s.fget (SCH_NW_ENTRIES_COUNT p)) 512 * 512

/-- A schedule table's header (R218). -/
structure SHdr where
  epoch : Nat
  stage : Nat
  look : Nat
  mbs : Nat
  inflight : Nat
  entries : Nat
  tc : Nat
  xc : Nat
  templates : Nat
  xfers : Nat
  groups : Nat
  gc : Nat
  migrate : Nat
  mc : Nat
  deriving DecidableEq, Repr

def parseSHdr (b : List Byte) : SHdr :=
  ⟨leAt b 0 2, leAt b 2 1, leAt b 3 1, leAt b 4 2, leAt b 6 2, leAt b 8 4, leAt b 0xC 2, leAt b 0xE 2, leAt b 0x10 8, leAt b 0x18 8,
   leAt b 0x20 8, leAt b 0x28 2, leAt b 0x30 8, leAt b 0x38 4⟩

/-- The header of the table in slot `n`. -/
def State.sqHdr (s : State) (p n : Nat) : Option SHdr := (s.memGet p (s.sqTable p n) 64).map parseSHdr

/-- The first of the ranges (address, bytes) that leaves the partition's space. -/
def State.firstOut (s : State) (p : Nat) (l : List (Nat × Nat)) : Option Nat := (l.find? (fun r => !s.inSpace p r.1 r.2)).map (·.1)

/-- Does the bunting header break R211? -/
def Bunt.bad (b : Bunt) : Bool :=
  b.n == 0 || decide (128 < b.n) || b.stages == 0 || decide (64 < b.stages) || b.slices == 0 || decide (16 < b.slices) || b.reps == 0 ||
    decide (128 < b.reps) || b.n != b.stages * b.slices * b.reps || decide (b.n ≤ b.self) || b.join % 512 != 0 || b.close % 512 != 0

/-- Do the entries carry their coordinates (R211)? -/
def State.buntCoordBad (s : State) (p : Nat) (b : Bunt) : Bool :=
  (List.range b.n).any (fun i =>
    let e := s.buntEnt p i
    let (st, rp, sl) := b.coord i
    leAt e 0xC 1 != st || leAt e 0xD 1 != sl || leAt e 0xE 1 != rp || !zeroAt e 0x19 7)

/-- The checks of the bunting table, its join slots and its close area (R211, R224, R467): the failing code and an address outside the
space, or the table's header. -/
def State.buntCheck (s : State) (p : Nat) : (Nat × Option Nat) ⊕ Bunt :=
  let a := s.buntBase p
  if !s.inSpace p a 32 then .inl (1, some a) else
  match s.buntRead p 0 32 with
  | none => .inl (9, none)
  | some h =>
    let b := parseBunt h
    if b.bad || leAt h 0xF 1 != 0 then .inl (1, none) else
    match s.firstOut p [(a, 32 + 32 * b.n), (b.join, 32 * b.n), (b.close, (b.n + 1) * s.closeLen p)] with
    | some v => .inl (1, some v)
    | none =>
      if (s.buntRead p 0 (32 + 32 * b.n)).isNone then .inl (9, none)
      else if s.buntCoordBad p b then .inl (1, none) else .inr b

/-- A failed check of the bunting table or a header. -/
def State.sqHeadFault (s : State) (p : Nat) (c : Nat × Option Nat) (halt : Bool) : State :=
  let s := match c.2 with | some a => s.stray p sqSrc a | none => s
  s.sqFault p c.1 0x1FFFFF halt

/-- The checks of the header of the table in slot `n`, which serves `epoch` (R224): the lowest failing code, or 0. Without a readable bunting table
(code 0x09) the header's STAGE has nothing to match. -/
def State.sqHdrCheck (s : State) (p n epoch : Nat) : Nat × Option Nat :=
  let bunt := s.buntCheck p
  match (match bunt with | .inl c => if c.1 = 1 then some c else none | .inr _ => none) with
  | some c => c
  | none =>
    let stageBad := fun (h : SHdr) => match bunt with | .inl _ => false | .inr b => h.stage != leAt (s.buntEnt p b.self) 0xC 1
    let a := s.sqTable p n
    match s.firstOut p [(a, 64)] with
    | some v => (1, some v)
    | none =>
      match s.memGet p a 64 with
      | none => (1, none)
      | some hb =>
        let h := parseSHdr hb
        let arr := [(a, 64 + 16 * h.entries, 64), (h.templates, 128 * h.tc, 128), (h.xfers, 32 * h.xc, 32), (h.groups, 64 * h.gc, 64),
                    (h.migrate, 16 * h.mc, 16)].filter (fun (r : Nat × Nat × Nat) => r.2.1 != 0)
        if decide (63 < h.look) || h.mbs == 0 || h.inflight == 0 || decide (256 < h.inflight) || h.entries == 0 ||
            decide (1048576 < h.entries) || h.epoch != epoch || stageBad h ||
            arr.any (fun r => r.1 % r.2.2 != 0) then (1, none)
        else match s.firstOut p (arr.map (fun r => (r.1, r.2.1))) with
          | some v => (1, some v)
          | none =>
            if !zeroAt hb 0x2A 6 || !zeroAt hb 0x3C 4 then (2, none)
            else match bunt with
              | .inl c => c
              | .inr _ => if !s.fbit (SCH_SQ_STATUS_FORMED p) then (9, none) else (0, none)

-- Joining (R212) --------------------------------------------------------------------------------------------------------------------------

/-- What the member reports: MEM_MIB, TILES, CHANNELS, VARIANT. -/
def State.joinFacts (s : State) (p : Nat) : List Byte :=
  let w := s.owner p
  leBytes 4 ((w.map (fun o => (o.size - o.spill * 2 ^ 20) / 2 ^ 20)).getD 0) ++ leBytes 2 (s.partTiles p).length ++
    leBytes 2 ((w.map (fun o => o.chs.length - o.lost.length)).getD 0) ++ leBytes 1 s.fuse.variant

/-- The join record of the member with index `i` (R212). -/
def State.joinRecord (s : State) (p : Nat) (b : Bunt) : List Byte :=
  bytesAt (leBytes 8 b.id ++ leBytes 8 s.deviceId ++ leBytes 2 b.self ++ s.joinFacts p) 0 32

/-- A member counts as joined; with the last one the bunting is FORMED. -/
def State.joined (s : State) (p : Nat) (b : Bunt) (i : Nat) : State :=
  let x := s.sqp p
  let j := sins x.joined i
  let s := (s.setSqp p { x with joined := j }).fset (SCH_SQ_STATUS_JOINED p) (min 255 j.length)
  if (List.range b.n).all j.contains then s.fset (SCH_SQ_STATUS_FORMED p) 1 else s

/-- SQ_JOIN: JOIN written 1 (R212). -/
def State.sqJoin (s : State) (p : Nat) : State :=
  match s.buntCheck p with
  | .inl c => s.sqHeadFault p c false
  | .inr b =>
    let r := s.joinRecord p b
    let s := s.buntKeep p b.n
    let s := s.setMember p b.self 0xF [byteOf 1]
    let s := s.setMember p b.self 0x10 (s.joinFacts p)
    let s := (List.range b.n).foldl (fun s i =>
      if i = b.self then s else s.toMember p 1 i (some (b.join + 32 * b.self)) (some 191) r) s
    s.joined p b b.self

/-- JOIN_RECORD_ARRIVAL: the record of member `i` has landed in its slot and is checked (R212). -/
def State.joinArrival (s : State) (p i : Nat) : State :=
  match s.bunt p with
  | none => s.sqFault p 9 0x1FFFFF false
  | some b =>
    if b.n ≤ i then s else
    match s.memGet p (b.join + 32 * i) 32 with
    | none => s.sqFault p 9 0x1FFFFF false
    | some r =>
      if leAt r 0 8 = b.id ∧ leAt r 8 8 = leAt (s.buntEnt p i) 0 8 ∧ leAt r 0x10 2 = i then
        let s := s.setMember p i 0xF [byteOf 1]
        ((s.setMember p i 0x10 (bytesAt r 0x12 9)).joined p b i)
      else s.sqFault p 9 0x1FFFFF false

/-- A member is lost (R233): its STATE. -/
def State.memberLost (s : State) (p i : Nat) : State := s.setMember p i 0xF [byteOf 2]

-- Entries (R218 to R224) --------------------------------------------------------------------------------------------------------------------

/-- An entry of a schedule table (R218). -/
structure SEnt where
  kind : Nat
  flags : Nat
  mb : Nat
  idx : Nat
  key : Nat
  ws : Nat
  ps : Nat
  wv : Nat
  deriving DecidableEq, Repr

def parseSEnt (b : List Byte) : SEnt :=
  ⟨leAt b 0 1, leAt b 1 1, leAt b 2 2, leAt b 4 2, leAt b 6 2, leAt b 8 1, leAt b 9 1, leAt b 0xC 4⟩

/-- The template, transfer descriptor or group that an entry names. -/
def State.sqItem (s : State) (p : Nat) (h : SHdr) (e : SEnt) : Option (List Byte) :=
  match e.kind with
  | 1 | 3 | 4 => s.memGet p (h.templates + 128 * e.idx) 128
  | 2 => s.memGet p (h.xfers + 32 * e.idx) 32
  | 5 => s.memGet p (h.groups + 64 * e.idx) 64
  | _ => some []

/-- Fields of a reduction group (R225). -/
def gMembers (g : List Byte) : List Nat := bitsOf (leAt g 8 16) 128
def gSlow (g : List Byte) : Bool := (leAt g 5 1).testBit 0
def gSrc (g : List Byte) : Nat := leAt g 0x18 8
def gStaging (g : List Byte) : Nat := leAt g 0x20 8
def gElems (g : List Byte) : Nat := leAt g 0x28 8
def gOwn (g : List Byte) : Nat := leAt g 0x28 4
def gBound (g : List Byte) : Nat := leAt g 0x2C 4
/-- P, the lines of a fast-tier gradient (R226). -/
def gLines (g : List Byte) : Nat := ceilDiv (2 * gElems g) 512
/-- First line of segment `j` of `n`. -/
def segLo (lines n j : Nat) : Nat := j * lines / n
/-- Number of lines of segment `j`. -/
def segLen (lines n j : Nat) : Nat := (j + 1) * lines / n - j * lines / n

/-- Code 0x02 of a group: a reserved field or a reserved value of GFMT (log entry 162). -/
def groupRsv (g : List Byte) : Bool := (leAt g 4 1 != 1 && leAt g 4 1 != 2) || decide (4 ≤ leAt g 5 1) || leAt g 6 2 != 0

/-- Code 0x07 of a group. -/
def State.groupBad (s : State) (p : Nat) (b : Bunt) (g : List Byte) : Bool :=
  let ms := gMembers g
  let (src, stg) := if gSlow g then (128 * gOwn g, 128 * gBound g)
    else (512 * gLines g, if ms.length = 1 then 0 else ms.length * 512 * ceilDiv (gLines g) ms.length)
  ms.any (fun i => decide (b.n ≤ i)) || !ms.contains b.self || !s.inSpace p (gSrc g) src || !s.inSpace p (gStaging g) stg

/-- A bank index, or 0xFF. -/
def bankOk (b : Nat) : Bool := decide (b ≤ 30) || b == 0xFF

/-- Does a TASK entry with this ORDER_KEY stand before entry `i` with a larger MICROBATCH (code 0x06)? -/
def State.keyBack (s : State) (p i : Nat) (e : SEnt) : Bool :=
  e.kind == 1 && e.key != 0 && (List.range i).any (fun j => match s.sqEnt p j with
    | some b => let f := parseSEnt b; f.kind == 1 && f.key == e.key && decide (e.mb < f.mb)
    | none => false)

/-- An entry as it is fetched: its lowest failing code, or 0 (R224). -/
def State.sqFetch (s : State) (p : Nat) (h : SHdr) (b : Bunt) (i : Nat) : Nat × SEnt :=
  match s.sqEnt p i with
  | none => (2, parseSEnt [])
  | some eb =>
    let e := parseSEnt eb
    if e.kind = 0 ∨ 7 < e.kind ∨ 8 ≤ e.flags ∨ leAt eb 0xA 2 ≠ 0 ∨ (2 < e.kind ∧ e.mb ≠ 0) then (2, e) else
    let lim := match e.kind with | 1 | 3 | 4 => h.tc | 2 => h.xc | 5 => h.gc | _ => 1
    if lim ≤ e.idx then (3, e) else
    match s.sqItem p h e with
    | none => (2, e)
    | some t =>
      let tk := leAt t 0 1
      if e.kind = 2 ∧ (leAt t 3 1 ≠ 0 ∨ leAt t 0x1C 4 ≠ 0 ∨ leAt t 4 4 = 0) then (2, e)
      else if e.kind = 5 ∧ groupRsv t then (2, e)
      else if (e.kind = 1 ∨ e.kind = 3 ∨ e.kind = 4) ∧ tk ≠ 1 ∧ tk ≠ 2 then (3, e)
      else if !bankOk e.ws || !bankOk e.ps || (e.kind == 2 && !bankOk (leAt t 2 1)) then (4, e)
      else if e.kind ≤ 2 ∧ h.mbs ≤ e.mb then (5, e)
      else if s.keyBack p i e then (6, e)
      else if e.kind = 5 ∧ s.groupBad p b t then (7, e)
      else if e.kind = 2 ∧ (leAt t 0 2 = b.self ∨ b.n ≤ leAt t 0 2) then (8, e)
      else (0, e)

/-- The step in progress. -/
def State.sqStep (s : State) (p : Nat) : Nat := s.fget (SCH_SQ_STEP_STEP p)

/-- Does the entry need a member that is lost (R233)? -/
def State.needsLost (s : State) (p : Nat) (h : SHdr) (e : SEnt) : Bool :=
  let lost := fun i => s.memberState p i == 2
  match e.kind, s.sqItem p h e with
  | 2, some t => lost (leAt t 0 2)
  | 5, some g => (gMembers g).any lost
  | 6, _ => lost 0
  | _, _ => false

/-- May a REDUCE of step n start: with the palimpsest on, step n − 1 is verified (R245)? -/
def State.reduceMet (s : State) (p : Nat) : Bool :=
  !s.fbit (PAL_CTRL_ENABLE p) || s.sqStep p == 0 || stepGe (s.fget (PAL_VERIFIED_STEP p) + 1) (s.sqStep p)

/-- Are the conditions of an entry met: its wait, R220, lost members? -/
def State.sqCan (s : State) (p : Nat) (h : SHdr) (e : SEnt) : Bool :=
  s.sigMet p (if e.ws = 0xFF then 0xFFFF else bankSig (s.sqStep p) e.ws) e.wv &&
    (!e.flags.testBit 1 || decide ((s.sqp p).mbs.length < h.inflight)) && !s.needsLost p h e && (e.kind != 5 || s.reduceMet p)

/-- Does entry `i` overtake an unreleased entry with its ORDER_KEY, or a TASK an unreleased TASK of its MICROBATCH (R221)? -/
def State.overtakes (s : State) (p next i : Nat) (e : SEnt) : Bool :=
  (List.range (i - next)).any (fun d =>
    let j := next + d
    !(s.sqp p).rel.contains j && match s.sqEnt p j with
      | none => true
      | some b =>
        let f := parseSEnt b
        (e.key != 0 && f.key == e.key) || (e.kind == 1 && f.kind == 1 && f.mb == e.mb))

/-- What the sequencer does next. -/
inductive Pick where
  /-- Nothing is releasable. -/
  | idle
  /-- The check of an entry fails. -/
  | bad (i code : Nat)
  /-- An entry is released; whether ahead of table order. -/
  | go (i : Nat) (e : SEnt) (moved : Bool)
  deriving DecidableEq, Repr

/-- The search behind a blocked entry, in table order (R221). -/
def State.pickLater (s : State) (p : Nat) (h : SHdr) (b : Bunt) (next : Nat) : Nat → Nat → Pick
  | 0, _ => .idle
  | n + 1, i =>
    if h.entries ≤ i then .idle
    else if (s.sqp p).rel.contains i then s.pickLater p h b next n (i + 1)
    else
      let (code, e) := s.sqFetch p h b i
      if code ≠ 0 then .bad i code
      else if e.flags.testBit 0 && s.sqCan p h e && !s.overtakes p next i e then .go i e true
      else s.pickLater p h b next n (i + 1)

/-- The next entry to release (R221). -/
def State.pick (s : State) (p : Nat) (h : SHdr) (b : Bunt) : Pick :=
  let i := s.fget (SCH_SQ_POS_NEXT p)
  if h.entries ≤ i then .idle else
  let (code, e) := s.sqFetch p h b i
  if code ≠ 0 then .bad i code
  else if s.sqCan p h e then .go i e false
  else s.pickLater p h b i h.look (i + 1)

/-- Does the sequencer run: ENABLE, RUNNING, neither HALTED nor MIGRATING, in an ACTIVE partition of a device that is not device-fatal? -/
def State.sqLive (s : State) (p : Nat) : Bool :=
  s.fbit (SCH_SQ_CTRL_ENABLE p) && s.fbit (SCH_SQ_STATUS_RUNNING p) && !s.fbit (SCH_SQ_STATUS_HALTED p) &&
    !s.fbit (SCH_SQ_STATUS_MIGRATING p) && s.active p && !s.stopped && !s.asleep

/-- Does the step's first entry wait for an exchange that a raised k needs: a tile of the partition is below it and has a spare (R396)? -/
def State.sqHeld (s : State) (p : Nat) : Bool :=
  match s.pwr.kWait with
  | none => false
  | some k => (s.sqp p).rel.isEmpty && (s.below k).any (fun t => s.tilePart t == some p && (s.spares (dieOf t)).any (fun n => decide (k ≤ s.tileK n)))

/-- First entry from `i` on that is not released. -/
def nextFree (rel : NSet) : Nat → Nat → Nat
  | 0, i => i
  | n + 1, i => if rel.contains i then nextFree rel n (i + 1) else i

/-- An entry is released (R220, R221, R236). -/
def State.sqRelease (s : State) (p i : Nat) (e : SEnt) (moved : Bool) : State :=
  let x := s.sqp p
  let rel := sins x.rel i
  let mbs := if e.flags.testBit 1 then sins x.mbs e.mb else x.mbs
  let s := (s.setSqp p { x with rel := rel, mbs := mbs }).fsets
    [(SCH_SQ_POS_NEXT p, nextFree rel rel.length (s.fget (SCH_SQ_POS_NEXT p))), (SCH_SQ_INFLIGHT_COUNT p, mbs.length)]
  if moved then s.fsat (SCH_SQ_MOVED_COUNT p) 1 else s

-- TASK, XFER, DRAIN, FOLD --------------------------------------------------------------------------------------------------------------------

/-- The task descriptor that a TASK entry makes from its template (R223). -/
def sqTaskDesc (n i epoch : Nat) (e : SEnt) (t : List Byte) : List Byte :=
  let t := patch t 8 (leBytes 8 (n * 2 ^ 32 + i) ++ leBytes 4 n ++ leBytes 2 e.mb ++ leBytes 2 epoch)
  let t := patch t 0x20 (leBytes 2 (if e.ws = 0xFF then 0xFFFF else bankSig n e.ws))
  let t := patch t 0x24 (leBytes 4 (if e.ws = 0xFF then 0 else e.wv))
  patch t 0x2C (leBytes 2 (if e.ps = 0xFF then 0xFFFF else bankSig n e.ps) ++ leBytes 2 1)

/-- A TASK entry hands its descriptor to the scheduler (R186, R223). -/
def State.sqTaskGo (s : State) (p : Nat) (h : SHdr) (i : Nat) (e : SEnt) : State :=
  match s.sqItem p h e with
  | none => s
  | some t =>
    let x := s.sp p
    s.setSp p { x with inq := x.inq ++ [(8, x.nextArr, i, sqTaskDesc (s.sqStep p) i h.epoch e t)], nextArr := x.nextArr + 1 }

/-- An XFER entry sends one message (R219); it completes when the message is acknowledged. -/
def State.sqXferGo (s : State) (p : Nat) (h : SHdr) (i : Nat) (e : SEnt) : State :=
  match s.sqItem p h e with
  | none => s
  | some t =>
    let sig := leAt t 2 1
    let off := e.mb * leAt t 0x18 4
    s.zSend { part := p, conn := s.memberConn p (leAt t 0 2), client := 1, flags := if sig = 0xFF then 0 else 1,
              rsig := if sig = 0xFF then 0 else bankSig (s.sqStep p) sig, lsig := 0, locAddr := leAt t 8 8 + off,
              remote := some (leAt t 0x10 8 + off), bytes := leAt t 4 4, imm := 0, rinc := if sig = 0xFF then 0 else 1, linc := 0, tag := 0,
              data := none, cb := .entry (s.sqStep p) i }

/-- A DRAIN (5) or FOLD (4) entry issues the operation for every region of its template (R218); a FOLD_SOURCE region is never drained (R149). -/
def State.sqRegionsGo (s : State) (p op : Nat) (h : SHdr) (i : Nat) (e : SEnt) : State :=
  match s.sqItem p h e with
  | none => s
  | some t =>
    let source := fun r => match s.regDesc p r with | some d => d.source | none => false
    let rs := (parseTask t).regions.filter (fun r => op != 5 || !source r)
    if rs.isEmpty then s.sqEntryDone p i else
    let ops := rs.map (fun r => ((s.regionHome p r).getD 0xFFFF, r))
    let x := s.sqp p
    let s := s.setSqp p { x with bl := x.bl ++ ops.map (fun o => (i, o.1, op, o.2)) }
    ops.foldl (fun s o => if o.1 < 152 then s.blAsk p o.1 op o.2 else s) s

-- REDUCE (R225 to R229) ----------------------------------------------------------------------------------------------------------------------

/-- The key of a reduction of entry `i` in step `n`. -/
def redKey (n i : Nat) : Nat := n % 2 * 2 ^ 21 + i

def State.setRed (s : State) (p n i : Nat) (r : Red) : State :=
  let x := s.sqp p
  s.setSqp p { x with reds := mins x.reds (redKey n i) r }

def State.red (s : State) (p n i : Nat) : Red := (mfind (s.sqp p).reds (redKey n i)).getD ⟨0, [], [], false, [], []⟩

/-- GRAD_BASE of a tensor (R162). -/
def State.gradBase (s : State) (p epoch t : Nat) : Option Nat := (s.tensorEnt p epoch t).map (fun e => leAt e.2 0x20 8)

/-- The format of GFMT. -/
def gfmtOf (v : Nat) : Fmt := if v = 1 then .fp16 else .bf16

/-- The sum of an element in position order (R226), and whether a term, the sum or the result is Inf or NaN. -/
def reduceElem (f : Fmt) (vs : List Nat) : Nat × Bool :=
  let xs := vs.map (decodeNum f)
  let r := match xs with
    | [] => (Num.zero, false)
    | x :: l => l.foldl (fun (a : Num × Bool) y => let z := fp32 (rne32 (a.1.add y)); (z, a.2 || !z.isFin)) (x, false)
  let o := (toFmt f false false r.1).1
  (o, r.2 || xs.any (fun x => !x.isFin) || !(decodeNum f o).isFin)

/-- The notification of R170 or of R178: the ligature units learn of the reduced gradient; the entry completes (R227, R229). -/
def State.reduceDone (s : State) (p n i : Nat) (epoch : Nat) (g : List Byte) (slow : Option Nat) : State :=
  let b := (s.bunt p).map (·.self)
  let peers := if (leAt g 5 1).testBit 1 then (bitsOf (leAt g 0x30 16) 128).filter (fun m => some m != b) else []
  let note : LNote := ⟨leAt g 0 4, epoch, n, (peers.map (fun m => 2 ^ m)).sum⟩
  let x := s.lp p
  let s := match slow with
    | none => s.setLp p { x with notes := x.notes ++ [note] }
    | some c => s.setLp p { x with slow := x.slow ++ [(⟨note, gStaging g, c, none⟩ : LSlow)] }
  s.sqEntryDone p i

/-- With every segment present in GRAD_BASE the fast-tier REDUCE completes (R227). -/
def State.reduceCheck (s : State) (p n i epoch : Nat) (g : List Byte) : State :=
  let r := s.red p n i
  if (s.sqp p).rel.contains i && r.results.length == (gMembers g).length then s.reduceDone p n i epoch g none else s

/-- The owner of a segment sums it line by line, writes it to GRAD_BASE and sends it to every other member (R226, R227). A poisoned
contribution leaves a poisoned line and forces a skip (R261). -/
def State.reduceSum (s : State) (p n i epoch : Nat) (b : Bunt) (g : List Byte) : State :=
  let ms := gMembers g
  let q := ms.findIdx (· == b.self)
  let lines := gLines g
  let lo := segLo lines ms.length q
  let len := segLen lines ms.length q
  let step := 512 * ceilDiv lines ms.length
  match s.gradBase p epoch (leAt g 0 4) with
  | none => s
  | some gb =>
    let f := gfmtOf (leAt g 4 1)
    let s := (List.range len).foldl (fun s k =>
      let l := lo + k
      let cnt := min 256 (gElems g - 256 * l)
      let (s, cs) := (List.range ms.length).foldl (fun (a : State × List MRes) j =>
        let (s, r) := a.1.memRead p (if j = q then gSrc g + 512 * l else gStaging g + j * step + 512 * k) 512 .inPlace
        (s, a.2 ++ [r])) (s, [])
      if cs.all (·.ok) then
        let es := (List.range cnt).map (fun e => reduceElem f (cs.map (fun c => leAt c.bytes (2 * e) 2)))
        let s := s.memPut p sqSrc (gb + 512 * l) (es.flatMap (fun e => leBytes 2 e.1)) .inPlace
        if es.any (·.2) then s.nonfinite p else s
      else (s.memPoison p sqSrc (gb + 512 * l)).forceSkip p) s
    let r := s.red p n i
    let s := s.setRed p n i { r with summed := true, results := sins r.results q }
    if len = 0 then s else
    ms.foldl (fun s m => if m = b.self then s else
      s.zSend { part := p, conn := s.memberConn p m, client := 1, flags := 0, rsig := 0, lsig := 0, locAddr := gb + 512 * lo,
                remote := some (gb + 512 * lo), bytes := 512 * len, imm := 0, rinc := 0, linc := 0, tag := 0, data := none, cb := .none }) s

/-- When every contribution has landed, the segment is summed. -/
def State.reduceTry (s : State) (p n i epoch : Nat) (b : Bunt) (g : List Byte) : State :=
  let r := s.red p n i
  if !r.summed && r.conts.length == (gMembers g).length then (s.reduceSum p n i epoch b g).reduceCheck p n i epoch g
  else s.reduceCheck p n i epoch g

/-- A group of one member: the contribution is copied to GRAD_BASE, or left in place (R226). -/
def State.reduceOne (s : State) (p n i epoch : Nat) (g : List Byte) : State :=
  match s.gradBase p epoch (leAt g 0 4) with
  | none => s
  | some gb =>
    let f := gfmtOf (leAt g 4 1)
    let s := (List.range (gLines g)).foldl (fun s l =>
      let (s, r) := s.memRead p (gSrc g + 512 * l) 512 .inPlace
      let cnt := min 256 (gElems g - 256 * l)
      if !r.ok then (if gSrc g = gb then s else s.memPoison p sqSrc (gb + 512 * l)).forceSkip p
      else
        let s := if gSrc g = gb then s else s.memPut p sqSrc (gb + 512 * l) (r.bytes.take (2 * cnt)) .inPlace
        if (List.range cnt).any (fun e => !(decodeNum f (leAt r.bytes (2 * e) 2)).isFin) then s.nonfinite p else s) s
    s.reduceDone p n i epoch g none

/-- The member's segments leave for their owners (R226). -/
def State.reduceSend (s : State) (p : Nat) (b : Bunt) (g : List Byte) : State :=
  let ms := gMembers g
  let q := ms.findIdx (· == b.self)
  let lines := gLines g
  (List.range ms.length).foldl (fun s j =>
    let len := segLen lines ms.length j
    if j = q ∨ len = 0 then s else
    s.zSend { part := p, conn := s.memberConn p (ms.getD j 0), client := 1, flags := 0, rsig := 0, lsig := 0,
              locAddr := gSrc g + 512 * segLo lines ms.length j, remote := some (gStaging g + q * 512 * ceilDiv lines ms.length),
              bytes := 512 * len, imm := 0, rinc := 0, linc := 0, tag := 0, data := none, cb := .none }) s

/-- Positions whose segment has no line: their results need not arrive; and those of a member whose own segment has none: no contribution
need arrive. -/
def emptySegs (g : List Byte) : List Nat :=
  (List.range (gMembers g).length).filter (fun j => segLen (gLines g) (gMembers g).length j == 0)

-- SLOW groups (R229)

/-- The records of a list by LINE. -/
def recsAt (l : List (List Byte)) (line : Nat) : List (List Byte) := l.filter (fun r => leAt r 0x40 4 == line)

/-- The summed record of a LINE: the gradients in position order by the element rule; whether an Inf or NaN was met. -/
def slowSum (f : Fmt) (rs : List (List Byte)) : List Byte × Bool :=
  let es := (List.range 32).map (fun k => reduceElem f (rs.map (fun r => leAt r (2 * k) 2)))
  (patch (bytesAt (rs.headD []) 0 128) 0 (es.flatMap (fun e => leBytes 2 e.1)), es.any (·.2))

/-- The LINEs of several lists, in increasing order. -/
def slowLines (ls : List (List (List Byte))) : List Nat := (ls.flatMap (fun l => l.map (fun r => leAt r 0x40 4))).foldl sins []

/-- With every member's summed records there, the combined list is written at STAGING (R229). -/
def State.slowCombine (s : State) (p n i epoch : Nat) (g : List Byte) : State :=
  let r := s.red p n i
  if !(s.sqp p).rel.contains i || r.recsSum.length != (gMembers g).length then s else
  let all := r.recsSum.flatMap (·.2)
  let rows := (slowLines [all]).flatMap (fun l => (recsAt all l).take 1)
  if gBound g < rows.length then s.sqFault p 7 i true
  else
    let s := s.memPut p sqSrc (gStaging g) (rows.flatMap (fun r => bytesAt r 0 128)) .inPlace
    s.reduceDone p n i epoch g (some rows.length)

/-- With every member's records there, the owner sums its lines and sends them to every member. -/
def State.slowTry (s : State) (p n i epoch : Nat) (b : Bunt) (g : List Byte) : State :=
  let ms := gMembers g
  let r := s.red p n i
  let s := if r.summed || r.recsIn.length != ms.length then s else
    let ls := r.recsIn.map (·.2)
    let out := (slowLines ls).map (fun l => slowSum (gfmtOf (leAt g 4 1)) (ls.flatMap (fun x => recsAt x l)))
    let rows := out.map (·.1)
    let s := if out.any (·.2) then s.nonfinite p else s
    let s := s.setRed p n i { r with summed := true, recsSum := mins r.recsSum (ms.findIdx (· == b.self)) rows }
    if rows.isEmpty then s else
    ms.foldl (fun s m => if m = b.self then s else s.zSend (zMsg p (s.memberConn p m) 1 none none (rows.flatMap id))) s
  s.slowCombine p n i epoch g

/-- The member's own records: those of LINE l go to the member at position l mod G. A record that cannot be read forces a skip (R261). -/
def State.slowSend (s : State) (p n i epoch : Nat) (b : Bunt) (g : List Byte) : State :=
  let ms := gMembers g
  let q := ms.findIdx (· == b.self)
  let (s, recs) := (List.range (gOwn g)).foldl (fun (a : State × List (List Byte)) k =>
    let (s, r) := a.1.memRead p (gSrc g + 128 * k) 128 .inPlace
    if r.ok then (s, a.2 ++ [r.bytes]) else (s.forceSkip p, a.2)) (s, [])
  let toM := fun (j : Nat) => recs.filter (fun r => leAt r 0x40 4 % ms.length == j)
  let s := (List.range ms.length).foldl (fun s j =>
    if j = q ∨ (toM j).isEmpty then s else s.zSend (zMsg p (s.memberConn p (ms.getD j 0)) 1 none none ((toM j).flatMap id))) s
  let r := s.red p n i
  (s.setRed p n i { r with group := 1, recsIn := mins r.recsIn q (toM q) }).slowTry p n i epoch b g

/-- A REDUCE entry starts (R225 to R229). -/
def State.sqReduceGo (s : State) (p : Nat) (h : SHdr) (b : Bunt) (i : Nat) (e : SEnt) : State :=
  match s.sqItem p h e with
  | none => s
  | some g =>
    let n := s.sqStep p
    if gSlow g then s.slowSend p n i h.epoch b g
    else if (gMembers g).length = 1 then s.reduceOne p n i h.epoch g
    else
      let s := s.reduceSend p b g
      let q := (gMembers g).findIdx (· == b.self)
      let r := s.red p n i
      let em := emptySegs g
      let conts := if em.contains q then List.range (gMembers g).length else sins r.conts q
      (s.setRed p n i { r with conts := conts, results := em.foldl sins r.results, summed := em.contains q }).reduceTry p n i h.epoch b g

/-- The group of REDUCE entry `i` of the table in force, with the bunting: what an arrival for it needs. -/
def State.arrivalGroup (s : State) (p n i : Nat) : Option (SHdr × Bunt × List Byte) :=
  if n ≠ s.sqStep p ∧ n ≠ s.sqStep p + 1 then none else
  match s.sqHdr p (s.fget (SCH_SQ_EPOCH_SLOT p)), s.bunt p, s.sqEnt p i with
  | some h, some b, some eb =>
    let e := parseSEnt eb
    if e.kind = 5 ∧ i < h.entries then (s.sqItem p h e).map (fun g => (h, b, g)) else none
  | _, _, _ => none

/-- REDUCE_SEGMENT_ARRIVAL: the contribution of position `j` to this member's segment of entry `i` in step `n` has landed (R226). -/
def State.segmentArrival (s : State) (p n i j : Nat) : State :=
  match s.arrivalGroup p n i with
  | none => s
  | some (h, b, g) =>
    if gSlow g ∨ (gMembers g).length ≤ j ∨ (gMembers g).getD j 0 = b.self then s else
    let r := s.red p n i
    (s.setRed p n i { r with conts := sins r.conts j }).reduceTry p n i h.epoch b g

/-- REDUCE_RESULT_ARRIVAL: the reduced segment of position `j` has landed in GRAD_BASE (R227). -/
def State.resultArrival (s : State) (p n i j : Nat) : State :=
  match s.arrivalGroup p n i with
  | none => s
  | some (h, b, g) =>
    if gSlow g ∨ (gMembers g).length ≤ j ∨ (gMembers g).getD j 0 = b.self then s else
    let r := s.red p n i
    (s.setRed p n i { r with results := sins r.results j }).reduceCheck p n i h.epoch g

/-- Where records that arrive for a SLOW group are staged: from STAGING + 128 × bound on, behind those that have come before (R229; log entry 163). -/
def State.slowPlace (s : State) (p n i : Nat) (b : Bunt) (g : List Byte) : Nat :=
  let r := s.red p n i
  let before := ((r.recsIn ++ r.recsSum).filter (fun e => (gMembers g).getD e.1 0 != b.self)).map (fun e => e.2.length)
  gStaging g + 128 * (gBound g + before.sum)

/-- SLOW_RECORD_ARRIVAL: records of position `j` have landed, its contributions to this member's lines or, with `sum`, the lines that it
summed (R229). -/
def State.slowArrival (s : State) (p n i j : Nat) (sum : Bool) (recs : List (List Byte)) : State :=
  match s.arrivalGroup p n i with
  | none => s
  | some (h, b, g) =>
    if !gSlow g ∨ (gMembers g).length ≤ j ∨ (gMembers g).getD j 0 = b.self then s else
    let r := s.red p n i
    let recs := recs.map (fun x => bytesAt x 0 128)
    let s := s.memPut p sqSrc (s.slowPlace p n i b g) (recs.flatMap id) .inPlace
    if sum then (s.setRed p n i { r with recsSum := mins r.recsSum j recs }).slowCombine p n i h.epoch g
    else (s.setRed p n i { r with recsIn := mins r.recsIn j recs }).slowTry p n i h.epoch b g

-- CLOSE, the combined record and the frequency decision (R230, R395) ---------------------------------------------------------------------------

/-- The frequency report of member `i` for step `n` (R395). -/
def State.freqReport (s : State) (p n i : Nat) : List Byte :=
  let (k, c, m) := s.kProp p
  bytesAt (leBytes 4 n ++ leBytes 2 i ++ leBytes 1 k ++ leBytes 1 (s.fget CLK_ARITH_K) ++ leBytes 1 (b2n c) ++ leBytes 1 m) 0 32

/-- A close record (R230). -/
def closeRecord (n i flags req : Nat) (items : List (Nat × Nat)) : List Byte :=
  bytesAt (leBytes 4 n ++ leBytes 2 i ++ leBytes 2 flags ++ leBytes 2 req ++ leBytes 2 0 ++ leBytes 4 items.length) 0 64 ++
    items.flatMap (fun x => leBytes 4 x.1 ++ leBytes 4 x.2)

/-- AGREE_BASE of partition `p`. -/
def State.agreeBase (s : State) (p : Nat) : Nat := s.fget (PWR_P_AGREE_BASE_BASE p) * 512

/-- Member 0 forms K_AGREED from the N reports and writes the decision to every member, once in the step (R395). -/
def State.freqDecide (s : State) (p n : Nat) (b : Bunt) : State :=
  let x := s.sqp p
  let key := n % 2 * 128
  if x.decided || b.self ≠ 0 || !(List.range b.n).all (fun i => x.reports.contains (key + i)) then s else
  let ks := (List.range b.n).map (fun i => leAt ((s.memGet p (s.agreeBase p + 32 * i) 32).getD []) 6 1)
  let k := ks.foldl min (ks.headD 0)
  let d := bytesAt (leBytes 4 n ++ leBytes 1 k ++ leBytes 1 0 ++ leBytes 2 (ks.findIdx (· == k))) 0 32
  let s := s.setSqp p { x with decided := true }
  (List.range b.n).foldl (fun s i => s.toMember p 1 i (some (s.agreeBase p + 0x1000)) none d) s

/-- What member 0 combines so far: NONFINITE, REQ_EPOCH while every record sets EPOCH_REQ with the same one, and the items. -/
abbrev Comb := Bool × Option Nat × List (Nat × Nat)

/-- The items of a record, in at most `w` entries. -/
def recItems (r : List Byte) (w : Nat) : List (Nat × Nat) :=
  (List.range (min w (leAt r 0xC 4))).map (fun e => (leAt r (0x40 + 8 * e) 4, leAt r (0x44 + 8 * e) 4))

/-- Member 0 combines the N close records and writes the combined record to every member (R230). -/
def State.combine (s : State) (p n : Nat) (b : Bunt) : State :=
  let x := s.sqp p
  let key := n % 2 * 128
  if b.self ≠ 0 || !x.decided || !(List.range b.n).all (fun i => x.closes.contains (key + i)) then s else
  let w := s.fget (SCH_NW_ENTRIES_COUNT p)
  let len := s.closeLen p
  let rs := (List.range b.n).map (fun i => s.memGet p (b.close + (i + 1) * len) len)
  let s := rs.foldl (fun s r => if r.isNone then s.sqFault p 10 0x1FFFFF false else s) s
  let nf := rs.any (fun r => match r with | some r => (leAt r 6 2).testBit 0 | none => true)
  let reqs := rs.map (fun r => match r with | some r => if (leAt r 6 2).testBit 1 then some (leAt r 8 2) else none | none => none)
  let req := match reqs with
    | some e :: l => if l.all (· == some e) then some e else none
    | _ => none
  let items := rs.foldl (fun a r => match r with | some r => nwCombine a (recItems r w) | none => a) (List.replicate w (0, 0))
  let rec_ := closeRecord n 0xFFFF (b2n nf + 2 * b2n req.isSome) (req.getD 0) items
  let y := s.sqp p
  let s := s.setSqp p { y with closes := y.closes.filter (fun k => k / 128 != n % 2), reports := y.reports.filter (fun k => k / 128 != n % 2),
                                decided := false }
  (List.range b.n).foldl (fun s i => s.toMember p 1 i (some b.close) (some (bankSig n 31)) rec_) s

/-- A CLOSE entry sends the frequency report and then the close record to member 0 (R230, R394, R395). -/
def State.sqCloseGo (s : State) (p : Nat) (b : Bunt) : State :=
  let n := s.sqStep p
  let s := s.propose p
  let s := s.toMember p 1 0 (some (s.agreeBase p + 32 * b.self)) none (s.freqReport p n b.self)
  let (s, items) := s.nwItems p
  let req := s.fbit (SCH_SQ_NEXT_REQ p)
  let r := closeRecord n b.self (b2n (s.sqp p).flag + 2 * b2n req) (if req then s.fget (SCH_SQ_NEXT_EPOCH p) else 0) items
  let s := s.toMember p 1 0 (some (b.close + (b.self + 1) * s.closeLen p)) none r
  let asked := if req then some (s.fget (SCH_SQ_NEXT_SLOT p), s.fget (SCH_SQ_NEXT_EPOCH p)) else none
  let s := s.setSqp p { s.sqp p with flag := false, forced := false, asked := asked }
  if b.self = 0 then
    let x := s.sqp p
    let s := s.setSqp p { x with closes := sins x.closes (n % 2 * 128), reports := sins x.reports (n % 2 * 128) }
    (s.freqDecide p n b).combine p n b
  else s

/-- FREQUENCY_REPORT_ARRIVAL: member `i`'s report for step `n` has landed at member 0 (R395). -/
def State.reportArrival (s : State) (p n i : Nat) : State :=
  match s.bunt p with
  | none => s
  | some b =>
    if b.self ≠ 0 ∨ b.n ≤ i ∨ (n ≠ s.sqStep p ∧ n ≠ s.sqStep p + 1) then s else
    let x := s.sqp p
    ((s.setSqp p { x with reports := sins x.reports (n % 2 * 128 + i) }).freqDecide p n b).combine p n b

/-- CLOSE_RECORD_ARRIVAL: member `i`'s close record of step `n` has landed at member 0 (R230). -/
def State.closeArrival (s : State) (p n i : Nat) : State :=
  match s.bunt p with
  | none => s
  | some b =>
    if b.self ≠ 0 ∨ b.n ≤ i ∨ (n ≠ s.sqStep p ∧ n ≠ s.sqStep p + 1) then s else
    let x := s.sqp p
    ((s.setSqp p { x with closes := sins x.closes (n % 2 * 128 + i) }).freqDecide p n b).combine p n b

/-- COMBINED_RECORD_ARRIVAL: the combined record of the step in progress has landed in CLOSE_BASE (R230). CLOSE entries complete, the watch
is updated (R93) and the ligature units learn the flag (R172). -/
def State.combinedArrival (s : State) (p : Nat) : State :=
  match s.bunt p with
  | none => s
  | some b =>
    let n := s.sqStep p
    let x := s.sqp p
    let r := s.memGet p b.close (s.closeLen p)
    let mine := match r with | some r => leAt r 0 4 == n && leAt r 4 2 == 0xFFFF | none => true
    if x.combined.isSome || !s.fbit (SCH_SQ_STATUS_RUNNING p) || !mine then s else
    let (nf, req, items) := match r with
      | some r => ((leAt r 6 2).testBit 0, if (leAt r 6 2).testBit 1 then some (leAt r 8 2) else none,
                   recItems r (s.fget (SCH_NW_ENTRIES_COUNT p)))
      | none => (true, none, [])
    let s := s.setSqp p { x with combined := some nf, agreed := req }
    let s := x.rel.foldl (fun s i => match s.sqEnt p i with
      | some e => if leAt e 0 1 = 6 then s.sqEntryDone p i else s
      | none => s) s
    (s.nwBoundary p n nf items).ligFlag p n nf

-- Steps --------------------------------------------------------------------------------------------------------------------------------------

/-- Every counter of the bank of step `n` to 0 (R222). -/
def State.zeroBank (s : State) (p n : Nat) : State := (List.range 32).foldl (fun s b => s.fset (SCH_SIG_VALUE p (bankSig n b)) 0) s

/-- A member takes K_AGREED from the decision of step `n` (R396). -/
def State.takeAgreed (s : State) (p n : Nat) : State :=
  match s.memGet p (s.agreeBase p + 0x1000) 32 with
  | some d => if leAt d 0 4 = n then (s.fset (PWR_P_AGREE_K_AGREED p) (leAt d 4 1)).retarget else s
  | none => s

/-- The sequencer enters the step after the one in progress, at entry 0 of the table in force (R222, R231, R396, R399). -/
def State.enterStep (s : State) (p : Nat) : State :=
  let n := s.sqStep p
  let x := s.sqp p
  let s := s.setSqp p { x with rel := [], fin := [], mbs := [], bl := [], combined := none, agreed := none, asked := none,
                               reds := x.reds.filter (fun e => e.1 / 2 ^ 21 != n % 2) }
  let s := s.fsets [(SCH_SQ_STEP_STEP p, n + 1), (SCH_SQ_POS_NEXT p, 0), (SCH_SQ_INFLIGHT_COUNT p, 0)]
  ((s.zeroBank p (n + 2)).latchEnergy p n).takeAgreed p n

/-- Have the conditions of R231 been met: every entry complete, the combined record there, LIG_STEP at least n? -/
def State.stepOver (s : State) (p : Nat) (h : SHdr) : Bool :=
  let x := s.sqp p
  x.fin.length == h.entries && x.combined.isSome && stepGe (s.fget (LIG_STEP_STEP p)) (s.sqStep p)

/-- What the sequencer keeps when it is enabled: the members that have joined, the table, and a migration under way (R235). -/
def SqP.kept (x : SqP) (migrating : Bool) : SqP :=
  let y := { SqP.init with joined := x.joined, bt := x.bt }
  if migrating then { y with asked := x.asked, missing := x.missing, toSend := x.toSend, slowMig := x.slowMig } else y

/-- SQ_ENABLE: ENABLE written 1 while it is 0 (R222, R224, R236). -/
def State.sqEnable (s : State) (p : Nat) : State :=
  if s.fbit (SCH_SQ_CTRL_ENABLE p) then s else
  let x := s.sqp p
  let s := s.setSqp p (x.kept (s.fbit (SCH_SQ_STATUS_MIGRATING p)))
  let s := match s.bunt p with | some b => s.buntKeep p b.n | none => s
  let s := s.fsets [(SCH_SQ_CTRL_ENABLE p, 1), (SCH_SQ_POS_NEXT p, 0), (SCH_SQ_INFLIGHT_COUNT p, 0), (SCH_SQ_STATUS_HALTED p, 0)]
  let s := (s.zeroBank p 0).zeroBank p 1
  let s := { s with pwr := { s.pwr with stepE := mset 0 s.pwr.stepE p (s.fget (PWR_P_ENERGY_UJ p)) } }
  let s := (s.setNwp p { s.nwp p with partialStep := false }).nwFrom p
  let c := s.sqHdrCheck p (s.fget (SCH_SQ_EPOCH_SLOT p)) (s.fget (SCH_SQ_EPOCH_EPOCH p))
  if c.1 = 0 then (s.fset (SCH_SQ_STATUS_RUNNING p) 1).retarget else (s.sqHeadFault p c true).retarget

/-- ENABLE written 0: the sequencer stops; tasks already released run on. -/
def State.sqDisable (s : State) (p : Nat) : State :=
  if s.fbit (SCH_SQ_CTRL_ENABLE p) then
    (s.fsets [(SCH_SQ_CTRL_ENABLE p, 0), (SCH_SQ_STATUS_RUNNING p, 0), (SCH_SQ_STATUS_HALTED p, 0)]).retarget
  else s

/-- SQ_RESUME: a halted sequencer restarts at the faulting entry, which is checked again; after a header fault, the header is (R224). -/
def State.sqResume (s : State) (p : Nat) : State :=
  if !s.fbit (SCH_SQ_STATUS_HALTED p) || !s.fbit (SCH_SQ_CTRL_ENABLE p) then s else
  let s := s.fset (SCH_SQ_STATUS_HALTED p) 0
  if s.fbit (SCH_SQ_STATUS_RUNNING p) then s else
  let c := s.sqHdrCheck p (s.fget (SCH_SQ_EPOCH_SLOT p)) (s.fget (SCH_SQ_EPOCH_EPOCH p))
  if c.1 = 0 then s.fset (SCH_SQ_STATUS_RUNNING p) 1 else s.sqHeadFault p c true

/-- SQ_CANCEL (R234). -/
def State.sqCancel (s : State) (p : Nat) : State := s.fset (SCH_SQ_NEXT_REQ p) 0

/-- EPOCH_REQUEST: a write to SCH_SQ_NEXT, which replaces a request (R234). -/
def State.epochRequest (s : State) (p v : Nat) : State :=
  s.fsets [(SCH_SQ_NEXT_REQ p, bitAt v 31), (SCH_SQ_NEXT_SLOT p, bitAt v 30), (SCH_SQ_NEXT_EPOCH p, v % 2 ^ 16)]

/-- The next entry is released when its KIND is `kind`; an entry that fails a check halts the sequencer (R221, R224). -/
def State.sqRun (s : State) (p kind : Nat) (go : State → SHdr → Bunt → Nat → SEnt → State) : State :=
  if !s.sqLive p || s.sqHeld p then s else
  match s.sqHdr p (s.fget (SCH_SQ_EPOCH_SLOT p)), s.bunt p with
  | some h, some b =>
    match s.pick p h b with
    | .idle => s
    | .bad i code => (s.memSee p sqSrc (s.sqEntAddr p i) 16).sqFault p code i true
    | .go i e moved => if e.kind = kind then go ((s.memSee p sqSrc (s.sqEntAddr p i) 16).sqRelease p i e moved) h b i e else s
  | _, _ => s

/-- Can the sequencer release an entry now? -/
def State.sqReleasable (s : State) (p : Nat) : Bool :=
  s.sqLive p && !s.sqHeld p && match s.sqHdr p (s.fget (SCH_SQ_EPOCH_SLOT p)), s.bunt p with
    | some h, some b => (match s.pick p h b with | .go _ _ _ => true | _ => false)
    | _, _ => false

/-- SEQ_STALL: in a step nothing is releasable and no task runs, for 1 ms: STALLED (R233). -/
def State.sqStall (s : State) (p : Nat) : State :=
  if s.fbit (SCH_SQ_CTRL_ENABLE p) && s.fbit (SCH_SQ_STATUS_RUNNING p) && !s.sqReleasable p && !(s.sp p).tasks.any (fun e => e.2.holds) then
    s.fset (SCH_SQ_STATUS_STALLED p) 1
  else s

-- Commands -----------------------------------------------------------------------------------------------------------------------------------

def execJoinRecordArrival (p i : Nat) (s : State) : Host.Outcome State Fault Refusal :=
  onUnit (p < 16) (s.joinArrival p i)
def execSqTask (p : Nat) (s : State) : Host.Outcome State Fault Refusal := onUnit (p < 16) (s.sqRun p 1 (fun s h _ i e => s.sqTaskGo p h i e))
def execSqXfer (p : Nat) (s : State) : Host.Outcome State Fault Refusal := onUnit (p < 16) (s.sqRun p 2 (fun s h _ i e => s.sqXferGo p h i e))
def execSqDrain (p : Nat) (s : State) : Host.Outcome State Fault Refusal :=
  onUnit (p < 16) (s.sqRun p 3 (fun s h _ i e => s.sqRegionsGo p 5 h i e))
def execSqFold (p : Nat) (s : State) : Host.Outcome State Fault Refusal :=
  onUnit (p < 16) (s.sqRun p 4 (fun s h _ i e => s.sqRegionsGo p 4 h i e))
def execSqReduce (p : Nat) (s : State) : Host.Outcome State Fault Refusal :=
  onUnit (p < 16) (s.sqRun p 5 (fun s h b i e => s.sqReduceGo p h b i e))
def execSqClose (p : Nat) (s : State) : Host.Outcome State Fault Refusal := onUnit (p < 16) (s.sqRun p 6 (fun s _ b _ _ => s.sqCloseGo p b))
def execSqMark (p : Nat) (s : State) : Host.Outcome State Fault Refusal := onUnit (p < 16) (s.sqRun p 7 (fun s _ _ i _ => s.sqEntryDone p i))
def execReduceSegmentArrival (p n i j : Nat) (s : State) : Host.Outcome State Fault Refusal :=
  onUnit (p < 16) (s.segmentArrival p n i j)
def execReduceResultArrival (p n i j : Nat) (s : State) : Host.Outcome State Fault Refusal :=
  onUnit (p < 16) (s.resultArrival p n i j)
def execSlowRecordArrival (p n i j : Nat) (sum : Bool) (recs : List (List Byte)) (s : State) : Host.Outcome State Fault Refusal :=
  onUnit (p < 16) (s.slowArrival p n i j sum recs)
def execFrequencyReportArrival (p n i : Nat) (s : State) : Host.Outcome State Fault Refusal :=
  onUnit (p < 16) (s.reportArrival p n i)
def execCloseRecordArrival (p n i : Nat) (s : State) : Host.Outcome State Fault Refusal :=
  onUnit (p < 16) (s.closeArrival p n i)
def execCombinedRecordArrival (p : Nat) (s : State) : Host.Outcome State Fault Refusal := onUnit (p < 16) (s.combinedArrival p)
def execSeqStall (p : Nat) (s : State) : Host.Outcome State Fault Refusal := onUnit (p < 16) (s.sqStall p)

end Sys2Proof.Machine
end

