-- ==== Sys2Proof/Machine/Palimpsest.lean ====
section
/-!
DEFINITION. The palimpsest streamer (R237 to R266): digests and seals, verification across replicas, repairs, the record stream, mirrors,
rebuilding lines, migration at an epoch switch (R234, R235), takeover by a spare; and the ends of a step (STEP_COMMIT, ROLLBACK_COMPLETE,
SLOW_UPDATE_COMPLETE, STEP_END), which it follows.
-/
namespace Sys2Proof.Machine

-- Faults and tables -----------------------------------------------------------------------------------------------------------------------

/-- Records palimpsest fault `code` (R266); LINE 0xFFFF_FFFF for tensor scope. -/
def State.palFault (s : State) (p code slot tensor line : Nat) : State :=
  s.recErr { idx := 0x30 + p, valid := PAL_FAULT_VALID p, ovf := some (PAL_FAULT_OVERFLOW p),
             fill := [(PAL_FAULT_SLOT p, slot), (PAL_FAULT_CODE p, code), (PAL_FAULT_WHERE_TENSOR_ID p, tensor),
                      (PAL_FAULT_WHERE_LINE p, line)],
             ev := mkEv 0x1E (if code = 5 ∨ code = 6 then 3 else 2) (some p) true code tensor }

/-- An area outside the partition's space: fault 0x01 and an isolation violation. -/
def State.palArea (s : State) (p slot a : Nat) : State := (s.stray p palSrc a).palFault p 1 slot 0 0xFFFFFFFF

/-- IDLE of PAL_STATUS, and RECOVERING. -/
def State.palIdle (s : State) (p : Nat) : State :=
  let x := s.pp p
  s.fsets [(PAL_STATUS_IDLE p, b2n (!s.fbit (PAL_CTRL_ENABLE p) && !x.sealing && x.fix.isEmpty)), (PAL_STATUS_RECOVERING p, b2n !x.fix.isEmpty)]

/-- A tensor stays in mismatch (R249). -/
def State.diverged (s : State) (p t code : Nat) : State :=
  let s := s.memPut p palSrc (s.digestAddr p t + 0x30) [byteOf 2] .inPlace
  let x := s.pp p
  let s := s.setPp p { x with fix := mdel x.fix t }
  (((s.fset (PAL_STATUS_DIVERGED p) 1).palFault p code 0 t 0xFFFFFFFF).noteEv 0x10 3 p t).palIdle p

/-- STATE of a tensor's digest entry. -/
def State.setDigestState (s : State) (p t v : Nat) : State := s.memPut p palSrc (s.digestAddr p t + 0x30) [byteOf v] .inPlace

/-- DIGEST of a tensor. -/
def State.digest (s : State) (p t : Nat) : Nat := leNat ((s.memGet p (s.digestAddr p t) 16).getD [])

/-- Tensors of the table in force of one tier, in increasing TENSOR_ID, with their entries. -/
def State.tier (s : State) (p : Nat) (slow : Bool) : List (Nat × List Byte) :=
  (s.tensors p (s.epochNow p)).filter (fun e => teSlow e.2 == slow)

/-- Lines of the member's shards. -/
def State.shardLines (s : State) (p : Nat) : Nat := ((s.tensors p (s.epochNow p)).map (fun e => teLines e.2)).sum

/-- Address of line `l` of a shard. -/
def teLineAddr (e : List Byte) (l : Nat) : Nat := teState e + 512 * (l - teFirst e)

/-- A line written for the streamer by the ligature unit of its stack. -/
def State.palPut (s : State) (p a : Nat) (bs : List Byte) : State :=
  (match s.hostPage p a with
    | some h => s.hostWrite h bs
    | none => s.memPut p ligSource a bs .inPlace).finc (LIG_ULINES_COUNT (s.ligUnit p a)) 1

/-- DIGEST and the fields of the tensor entry go to the V fields (R241, R245). -/
def State.copyV (s : State) (p t : Nat) (e : List Byte) : State :=
  s.memPut p palSrc (s.digestAddr p t + 0x10)
    (leBytes 16 (s.digest p t) ++ leBytes 4 (teStep e) ++ leBytes 4 (teP1 e) ++ leBytes 4 (teP2 e) ++ leBytes 4 (teApplied e)) .inPlace

-- The stream --------------------------------------------------------------------------------------------------------------------------------

/-- MIRROR in force (R250). -/
def State.mirror (s : State) (p : Nat) : Nat := s.fget (PAL_CTRL_MIRROR p)

/-- This member's index; 0 without a bunting table. -/
def State.selfIx (s : State) (p : Nat) : Nat := match s.bunt p with | some b => b.self | none => 0

/-- The connection to the mirror, if there is one. -/
def State.mirrorConn (s : State) (p : Nat) : Option Nat :=
  match s.mirror p, s.bunt p with
  | 1, some b => if b.n ≤ 1 then none else some (s.memberConn p ((b.self + 1) % b.n))
  | 2, _ => if s.fget (PAL_MIRROR_CONN_CONN p) = 0xFFFFFFFF then none else some (s.fget (PAL_MIRROR_CONN_CONN p))
  | _, _ => none

/-- A record (R252): header and payload. -/
def palRecord (kind : Nat) (slow : Bool) (src seq step epoch count tensor line hash : Nat) (payload : List Byte) : List Byte :=
  leBytes 1 kind ++ leBytes 1 (b2n slow) ++ leBytes 2 src ++ leBytes 4 seq ++ leBytes 4 step ++ leBytes 2 epoch ++ leBytes 1 count ++
    leBytes 1 0 ++ leBytes 4 tensor ++ leBytes 4 line ++ leBytes 8 0 ++ leBytes 16 hash ++ payload

/-- What a line record carries of a line: bytes 0x000 to 0x17F, then the tag. -/
def linePayload (x : List Byte) : List Byte := bytesAt x 0 0x180 ++ bytesAt x 0x1C0 16

/-- The line that a line record's payload spells: WCOPY formed again from MASTER, the reserved bytes 0 (R252). -/
def lineOf (pay : List Byte) : List Byte :=
  bytesAt pay 0 0x180 ++ (List.range 32).flatMap (fun k => leBytes 2 (wcopyOf (leAt pay (4 * k) 4))) ++ bytesAt pay 0x180 16 ++
    List.replicate 48 0

/-- A record leaves on a connection; it counts. -/
def State.sendRec (s : State) (p conn : Nat) (cb : ZCb) (r : List Byte) : State :=
  (s.zSend { zMsg p conn 2 none none r with cb := cb }).finc (PAL_RECORDS_COUNT p) 1

/-- A stream record with the next SEQ, to the mirror. -/
def State.streamRec (s : State) (p : Nat) (cb : ZCb) (mk : Nat → List Byte) : State :=
  match s.mirrorConn p with
  | none => s
  | some c => (s.sendRec p c cb (mk (s.fget (PAL_SENT_SEQ_SEQ p)))).finc (PAL_SENT_SEQ_SEQ p) 1

/-- Line `b` of the dirty bitmap's order (R251): tensor, its entry, line. -/
def dirtyLine : List (Nat × List Byte) → Nat → Option (Nat × List Byte × Nat)
  | [], _ => none
  | (t, e) :: r, b => if b < teLines e then some (t, e, teFirst e + b) else dirtyLine r (b - teLines e)

/-- A line record of tensor `t`. -/
def State.lineRecord (s : State) (p kind seq epoch t l : Nat) (e x : List Byte) : List Byte :=
  palRecord kind (teSlow e) (s.selfIx p) seq (leAt x 0x1C8 4) epoch (teCount e l) t l (lineHash x) (linePayload x)

/-- The ENTRY record of a tensor. -/
def State.entryRecord (s : State) (p seq step t : Nat) (e : List Byte) : List Byte :=
  palRecord 3 (teSlow e) (s.selfIx p) seq step (s.epochNow p) 0 t 0 0 (bytesAt e 0x54 28 ++ leBytes 4 0)

/-- Dirty bit `b`. -/
def State.dirty (s : State) (p b : Nat) : Bool :=
  match s.memGet p (s.fget (PAL_DIRTY_BASE_BASE p) * 512 + b / 8) 1 with
  | some [x] => x.toNat.testBit (b % 8)
  | _ => false

/-- A DESCRIBE record for every tensor that a reseed has still to describe, as far as the mirror's window goes (R252, R253, R258). -/
def State.describeSend (s : State) (p : Nat) (room : State → Bool) : State :=
  (s.pp p).describe.foldl (fun s t =>
    if (s.pp p).describe.head? != some t || !room s then s else
    let s := s.setPp p { s.pp p with describe := (s.pp p).describe.drop 1 }
    match s.tensorEnt p (s.epochNow p) t with
    | none => s
    | some (_, e) => s.streamRec p .none (fun q => palRecord 2 (teSlow e) (s.selfIx p) q (s.fget (LIG_STEP_STEP p)) (s.epochNow p) 0 t (teFirst e) 0
        (bytesAt (leBytes 4 (teLines e) ++ leBytes 1 (teFlags e)) 0 16))) s

/-- A verification whose marks have not all left scans the bitmap afresh after a reseed (R254). -/
def PalV.rescan (n : Nat) (v : PalV) : PalV := if v.verifySent then v else { v with scan := n, commitSent := false }

/-- Reseed (R258): every dirty bit, SEQ from 0 on, and a DESCRIBE to be sent for every tensor. -/
def State.palReseed (s : State) (p : Nat) : State :=
  let n := s.shardLines p
  let full := List.replicate (n / 8) (255 : Byte) ++ (if n % 8 = 0 then [] else [byteOf (2 ^ (n % 8) - 1)])
  let s := s.memPut p palSrc (s.fget (PAL_DIRTY_BASE_BASE p) * 512) full .inPlace
  if (s.mirrorConn p).isNone then s else
  let s := s.fsets [(PAL_SENT_SEQ_SEQ p, 0), (PAL_STATUS_UNMIRRORED p, 1)]
  let x := s.pp p
  s.setPp p { x with
    reseed := some n, next := 0, applied := 0, describe := (s.tensors p (s.epochNow p)).map (·.1)
    fast := x.fast.map (PalV.rescan n), slow := x.slow.map (PalV.rescan n), late := x.late.map (fun e => (e.1, e.2.rescan n)) }

/-- Z of R243. -/
def State.xchgLen (s : State) (p : Nat) : Nat :=
  ceilDiv (32 + 32 * ((s.tensorTable p (s.epochNow p)).map (·.2)).getD 0) 512 * 512

/-- REPLICAS of the bunting. -/
def State.repsOf (s : State) (p : Nat) : Nat := match s.bunt p with | some b => b.reps | none => 1

/-- A seal starts (R241). -/
def State.sealStart (s : State) (p : Nat) : State := (s.setPp p { s.pp p with sealing := true }).palIdle p

/-- MIRROR or the mirror's connection takes effect while ENABLE is 1: fault 0x07 of one that names no mirror; in ring mode slot 0 belongs to the member
before this one (R250, R266). -/
def State.mirrorSet (s : State) (p : Nat) : State :=
  let s := if s.mirror p ≠ 0 ∧ (s.mirrorConn p).isNone then s.palFault p 7 0 0 0xFFFFFFFF else s
  match s.mirror p, s.bunt p with
  | 1, some b => if b.n ≤ 1 then s else s.fset (PAL_MS_CONN_CONN p 0) (s.memberConn p ((b.self + b.n - 1) % b.n))
  | _, _ => s

/-- PAL_ENABLE: ENABLE written 1 while it is 0 (R241, R250, R266). -/
def State.palEnable (s : State) (p : Nat) : State :=
  if s.fbit (PAL_CTRL_ENABLE p) then s else
  let s := s.fset (PAL_CTRL_ENABLE p) 1
  let cnt := ((s.tensorTable p (s.epochNow p)).map (·.2)).getD 0
  let d := s.repsOf p
  let areas := [(s.digestAddr p 0, 64 * cnt), (s.fget (PAL_DIRTY_BASE_BASE p) * 512, ceilDiv (s.shardLines p) 8),
                (s.fget (PAL_XCHG_BASE_BASE p) * 512, if d ≤ 1 then 0 else 2 * d * s.xchgLen p)]
  match s.firstOut p areas with
  | some a => (s.palArea p 0 a).palIdle p
  | none =>
    ((s.mirrorSet p).sealStart p).palReseed p

/-- ENABLE written 0: digests, verification and the stream stop. -/
def State.palDisable (s : State) (p : Nat) : State :=
  if !s.fbit (PAL_CTRL_ENABLE p) then s else
  let s := s.fsets [(PAL_CTRL_ENABLE p, 0), (PAL_STATUS_UNMIRRORED p, 0)]
  (s.setPp p { PalP.init with slots := (s.pp p).slots }).palIdle p

/-- The poisoned lines of the digest table are written whole, with zeros, so that its entries can be formed again (R262; log entry 166). -/
def State.tableHeal (s : State) (p cnt : Nat) : State :=
  (linePieces (s.digestAddr p 0) (64 * cnt)).foldl (fun s pc =>
    let a := pc.1 / 512 * 512
    if s.poisoned (s.loc p a) then s.memPut p palSrc a (List.replicate 512 0) .inPlace else s) s

/-- SEAL_COMPLETE: DIGEST and the V fields of every shard (R241). A shard with a line that cannot be read stays unsealed (log entry 22). -/
def State.sealDone (s : State) (p : Nat) : State :=
  let x := s.pp p
  if !x.sealing then s else
  let ts := s.tensors p (s.epochNow p)
  let s := s.tableHeal p (((s.tensorTable p (s.epochNow p)).map (·.2)).getD 0)
  let s := ts.foldl (fun s e => match s.shardDigest p e.2 with
    | (s, none) => s.setDigestState p e.1 0
    | (s, some d) => ((s.memPut p palSrc (s.digestAddr p e.1) (leBytes 16 d) .inPlace).copyV p e.1 e.2).setDigestState p e.1 1) s
  let top := fun (slow : Bool) => ((ts.filter (fun e => teSlow e.2 == slow)).map (fun e => teStep e.2)).foldl max 0
  let s := s.fsets [(PAL_VERIFIED_STEP p, max (s.fget (PAL_VERIFIED_STEP p)) (top false)),
                    (PAL_SLOW_VERIFIED_STEP p, max (s.fget (PAL_SLOW_VERIFIED_STEP p)) (top true))]
  let s := s.setPp p { s.pp p with sealing := false, takeover := false, thenReseed := false }
  let s := if x.thenReseed then s.palReseed p else s
  -- the spare continues the step in progress, and forces its skip (R265)
  let s := if x.takeover then (s.sqEnable p).forceSkip p else s
  s.palIdle p

-- Verification (R243 to R246) -----------------------------------------------------------------------------------------------------------------

def msgKey (slow : Bool) (step r : Nat) : Nat := 512 * b2n slow + 256 * (step % 2) + r

/-- The verification of a tier. -/
def PalP.ver (x : PalP) (slow : Bool) : Option PalV := if slow then x.slow else x.fast
def State.setVer (s : State) (p : Nat) (slow : Bool) (v : Option PalV) : State :=
  let x := s.pp p
  s.setPp p (if slow then { x with slow := v } else { x with fast := v })

/-- A digest message (R243) over the tensors `ts`. -/
def State.digestMsg (s : State) (p : Nat) (slow : Bool) (step : Nat) (ts : List (Nat × List Byte)) : List Byte :=
  bytesAt (leBytes 4 step ++ leBytes 2 (s.selfIx p) ++ leBytes 1 (if slow then 2 else 1) ++ leBytes 1 0 ++ leBytes 4 ts.length) 0 32 ++
    ts.flatMap (fun e => leBytes 4 e.1 ++ leBytes 4 (teStep e.2) ++ leBytes 8 0 ++ leBytes 16 (s.digest p e.1))

/-- The message goes to every other member of the replica group, and into the member's own place. -/
def State.digestOut (s : State) (p : Nat) (slow : Bool) (b : Bunt) (m : List Byte) : State :=
  let (_, r, _) := b.coord b.self
  let a := s.fget (PAL_XCHG_BASE_BASE p) * 512 + (if slow then b.reps + r else r) * s.xchgLen p
  (b.replicas b.self).foldl (fun s i => s.toMember p 2 i (some a) none m) s

/-- The mirror holds the member's state: mirroring on and not unmirrored (R258). -/
def State.mirrored (s : State) (p : Nat) : Bool := (s.mirrorConn p).isSome && !s.fbit (PAL_STATUS_UNMIRRORED p)

/-- The connection to the mirror, when it can be asked for a repair: it is reachable, and in ring mode its member is not lost (R249, R258). -/
def State.mirrorFix (s : State) (p : Nat) : Option Nat :=
  (s.mirrorConn p).filter (fun c => s.mirrored p && s.connUp p c &&
    (s.mirror p != 1 || match s.bunt p with | some b => s.memberState p ((b.self + 1) % b.n) != 2 | none => false))

/-- A request for a tensor's shard goes out, and its lines are awaited (R247, R248). -/
def State.startFix (s : State) (p t mode conn : Nat) (slow : Bool) : State :=
  match s.tensorEnt p (s.epochNow p) t with
  | none => s
  | some (_, e) =>
    let x := s.pp p
    let s := s.setPp p { x with fix := mins x.fix t ⟨mode, slow, (List.range (teLines e)).map (· + teFirst e), false⟩ }
    ((s.setDigestState p t 3).zSend (zMsg p conn 2 none none (leBytes 4 t))).palIdle p

/-- A tensor agrees (R244). -/
def State.agree (s : State) (p t : Nat) (slow : Bool) : State :=
  let s := s.setDigestState p t 1
  match (s.pp p).ver slow with
  | some v => s.setVer p slow (some { v with left := sdel v.left t })
  | none => s

/-- The lowest-index other member of the replica group that is not lost. -/
def State.replicaOf (s : State) (p : Nat) : Option Nat :=
  (s.bunt p).bind (fun b => (b.replicas b.self).find? (fun i => i != b.self && s.memberState p i != 2))

/-- A tensor that a scrub found different is repaired from a replica, else from the mirror (R242, R247, R248). -/
def State.fixSource (s : State) (p t : Nat) : State :=
  match s.replicaOf p, s.mirrorFix p with
  | some i, _ => s.startFix p t 0 (s.memberConn p i) false
  | none, some c => s.startFix p t 1 c false
  | none, none => s.diverged p t 6

/-- The decision of R244 on one tensor: the digests by replica, of which `mine` is this member's. `again` after a repair (R249). -/
def State.decideTensor (s : State) (p t : Nat) (slow : Bool) (b : Bunt) (vals : List (Option Nat)) (mine : Option Nat) (again : Bool) : State :=
  if vals.all (fun v => v.isSome && v == vals.headD none) then s.agree p t slow
  else
    match vals.find? (fun v => v.isSome && decide (b.reps < 2 * (vals.filter (· == v)).length)) with
    | some v =>
      if mine == v then s.agree p t slow
      else if again then s.diverged p t 5
      else
        let m := ((b.replicas b.self).zip vals).find? (fun x => x.2 == v && s.memberState p x.1 != 2)
        match m with
        | some x => s.startFix p t 0 (s.memberConn p x.1) slow
        | none => s.diverged p t 6
    | none =>
      if again then s.diverged p t 5
      else match s.mirrorFix p with
        | some c => s.startFix p t 1 c slow
        | none => s.diverged p t 6

/-- When all D messages of the step are present, every tensor is decided (R244). -/
def State.decideAll (s : State) (p : Nat) (slow : Bool) : State :=
  match (s.pp p).ver slow, s.bunt p with
  | some v, some b =>
    let ms := (List.range b.reps).map (fun r => mfind (s.pp p).msgs (msgKey slow v.step r))
    if v.decided || ms.any (·.isNone) then s else
    let (_, r, _) := b.coord b.self
    let s := s.setVer p slow (some { v with decided := true })
    v.left.foldl (fun s t =>
      let vals := ms.map (fun m => m.bind (fun l => mfind l t))
      s.decideTensor p t slow b vals (vals.getD r none) false) s
  | _, _ => s

/-- LIG_STEP or LIG_SLOW_DONE has reached `step`: the digest message leaves, and the step's verification begins (R243). -/
def State.digestSend (s : State) (p : Nat) (slow : Bool) (step : Nat) (lists : NMap (Nat × Nat)) : State :=
  if !s.fbit (PAL_CTRL_ENABLE p) then s else
  let ts := s.tier p slow
  let v : PalV := ⟨step, false, ts.map (·.1), s.shardLines p, false, false, false, false, lists⟩
  let old := match (s.pp p).ver slow with
    | some w => if w.decided && w.left.isEmpty && !w.verifySent && (s.mirrorConn p).isSome then [(slow, w)] else []
    | none => []
  let s := s.setPp p { s.pp p with late := (s.pp p).late ++ old }
  let s := s.setVer p slow (some v)
  match s.bunt p with
  | some b =>
    if b.reps ≤ 1 then s.setVer p slow (some { v with decided := true, left := [] })
    else
      let (_, r, _) := b.coord b.self
      let s := s.digestOut p slow b (s.digestMsg p slow step ts)
      let x := s.pp p
      let s := s.setPp p { x with msgs := mins x.msgs (msgKey slow step r) (ts.map (fun e => (e.1, s.digest p e.1))) }
      s.decideAll p slow
  | none => s.setVer p slow (some { v with decided := true, left := [] })

/-- The items of the message of replica `r` as they lie in the exchange area; none where it cannot be read. -/
def State.digestItems (s : State) (p : Nat) (slow : Bool) (r : Nat) : List (Nat × Nat) :=
  let z := s.xchgLen p
  let a := s.fget (PAL_XCHG_BASE_BASE p) * 512 + (if slow then s.repsOf p + r else r) * z
  match s.memGet p a z with
  | none => []
  | some m => (List.range (min (leAt m 8 4) ((z - 32) / 32))).map (fun i => (leAt m (32 + 32 * i) 4, leAt m (48 + 32 * i) 16))

/-- DIGEST_MESSAGE_ARRIVAL: the message of replica `r` for `step` has landed (R244). A second one of the same step carries the fresh digest of
a replayed tensor (R248). -/
def State.digestArrival (s : State) (p r step : Nat) (slow : Bool) : State :=
  match s.bunt p with
  | none => s
  | some b =>
    let (_, me, _) := b.coord b.self
    if b.reps ≤ r ∨ r = me ∨ !s.fbit (PAL_CTRL_ENABLE p) then s else
    let items := s.digestItems p slow r
    let x := s.pp p
    let key := msgKey slow step r
    if mhas x.msgs key then
      items.foldl (fun s it =>
        let x := s.pp p
        let s := s.setPp p { x with fresh := mins x.fresh (128 * it.1 + r) it.2 }
        let vals := (List.range b.reps).map (fun i => mfind (s.pp p).fresh (128 * it.1 + i))
        if vals.any (·.isNone) then s else
        let y := s.pp p
        let s := s.setPp p { y with fresh := y.fresh.filter (fun e => e.1 / 128 != it.1) }
        s.decideTensor p it.1 slow b vals (vals.getD me none) true) s
    else (s.setPp p { x with msgs := mins x.msgs key items }).decideAll p slow

/-- Is a scrub of the step due (R242)? -/
def State.scrubDue (s : State) (p : Nat) (slow : Bool) (v : PalV) : Bool :=
  let n := s.fget (PAL_CTRL_SCRUB_STEPS p)
  !slow && decide (0 < n) && v.step % n == 0 && !v.scrubbed

/-- The scrub: each fast-tier digest formed from memory; a different one is a mismatch: DIGEST becomes that of the shard as it stands, and the tensor is
repaired (R242, R247, R248). -/
def State.scrub (s : State) (p : Nat) (v : PalV) : State :=
  let (s, bad) := (s.tier p false).foldl (fun (a : State × List (Nat × List Byte)) e =>
    let (s, d) := a.1.shardDigest p e.2
    (s, if d != some (s.digest p e.1) then a.2 ++ [e] else a.2)) (s, [])
  let s := s.setVer p false (some { v with scrubbed := true, left := bad.map (·.1) })
  bad.foldl (fun s e => ((s.reform p e.1 e.2).setDigestState p e.1 2).fixSource p e.1) s

/-- STEP_VERIFIED (R242, R245): with every tensor in agreement the scrub runs, and with the mirror's answer to VERIFY the step is verified. -/
def State.stepVerified (s : State) (p : Nat) (slow : Bool) : State :=
  match (s.pp p).ver slow with
  | none => s
  | some v =>
    if !v.decided || !v.left.isEmpty then s else
    let s := if s.scrubDue p slow v then s.scrub p v else s
    match (s.pp p).ver slow with
    | none => s
    | some v =>
      if !v.left.isEmpty then s
      else if (s.mirrorConn p).isSome && !s.fbit (PAL_STATUS_UNMIRRORED p) && !v.acked then s
      else
        let s := (s.tier p slow).foldl (fun s e => s.copyV p e.1 e.2) s
        let s := s.fset (if slow then PAL_SLOW_VERIFIED_STEP p else PAL_VERIFIED_STEP p) v.step
        let x := s.pp p
        let s := s.setPp p { x with msgs := x.msgs.filter (fun e => e.1 / 256 != 2 * b2n slow + v.step % 2) }
        -- marks still to be sent keep the verification until the stream has sent them
        if (s.mirrorConn p).isSome && !v.verifySent then s.setVer p slow (some { v with acked := true }) else s.setVer p slow none

/-- The mirror's acknowledgement of VERIFY (R245). -/
def State.palAcked (s : State) (p : Nat) (slow : Bool) (step : Nat) : State :=
  match (s.pp p).ver slow with
  | some v => if v.step = step then s.setVer p slow (some { v with acked := true }) else s
  | none => s

-- Scanning (R251, R254) -------------------------------------------------------------------------------------------------------------------------

/-- The scan passes `d` bits. -/
def State.scanPass (s : State) (p d next : Nat) : State :=
  let x := s.pp p
  let f := fun (v : PalV) => { v with scan := v.scan - d }
  s.setPp p { x with next := next, fast := x.fast.map f, slow := x.slow.map f, late := x.late.map (fun e => (e.1, f e.2)), reseed := x.reseed.map (· - d) }

/-- May a record with the next SEQ plus `k` be sent, with APPLIED and LOG_SLOTS of the mirror (R253)? -/
def State.streamRoom (s : State) (p k applied slots : Nat) : Bool := decide (ahead 32 (s.fget (PAL_SENT_SEQ_SEQ p)) applied + k < slots)

/-- ENTRY records and COMMIT of a step whose scan is complete (R254). -/
def State.commitSend (s : State) (p : Nat) (slow : Bool) (applied slots : Nat) (v : PalV) : State × PalV :=
  let ts := s.tier p slow
  if v.commitSent || v.scan ≠ 0 || !s.streamRoom p ts.length applied slots then (s, v) else
  let s := ts.foldl (fun s e => s.streamRec p .none (fun q => s.entryRecord p q v.step e.1 e.2)) s
  (s.streamRec p .none (fun q => palRecord 4 slow (s.selfIx p) q v.step (s.epochNow p) 0 0 0 0 []), { v with commitSent := true })

/-- VERIFY of a step that is verified but for the mirror (R254); the first after a reseed's scan ends UNMIRRORED (R258). -/
def State.verifySend (s : State) (p : Nat) (slow : Bool) (applied slots : Nat) (v : PalV) : State × PalV :=
  if !v.decided || !v.left.isEmpty || s.scrubDue p slow v || !v.commitSent || v.verifySent || !s.streamRoom p 0 applied slots then (s, v) else
  let s := s.streamRec p (.verify slow v.step) (fun q => palRecord 5 slow (s.selfIx p) q v.step (s.epochNow p) 0 0 0 0 [])
  let s := if (s.pp p).reseed = some 0 then (s.setPp p { s.pp p with reseed := none }).fset (PAL_STATUS_UNMIRRORED p) 0 else s
  (s, { v with verifySent := true })

/-- The marks of a step, as far as they can leave. -/
def State.marksSend (s : State) (p : Nat) (slow : Bool) (applied slots : Nat) (v : PalV) : State × PalV :=
  let (s, v) := s.commitSend p slow applied slots v
  s.verifySend p slow applied slots v

/-- The marks of the verification in progress of a tier. -/
def State.tierSend (s : State) (p : Nat) (slow : Bool) (applied slots : Nat) : State :=
  match (s.pp p).ver slow with
  | none => s
  | some v => let (s, v) := s.marksSend p slow applied slots v; s.setVer p slow (some v)

/-- The marks that may leave: of the oldest step that is late, else of the fast and of the slow tier (R254). -/
def State.allSend (s : State) (p applied slots : Nat) : State :=
  match (s.pp p).late with
  | (slow, v) :: rest =>
    let (s, v) := s.marksSend p slow applied slots v
    s.setPp p { s.pp p with late := if v.verifySent then rest else (slow, v) :: rest }
  | [] => (s.tierSend p false applied slots).tierSend p true applied slots

/-- The mirror's APPLIED as the streamer takes it: 0 until the first record after a reseed has left for the emptied slot, and not a report of more than
has been sent, which is from before the reseed (R253, R258). -/
def State.appliedNow (s : State) (p applied : Nat) : Nat :=
  let x := s.pp p
  let sent := s.fget (PAL_SENT_SEQ_SEQ p)
  if sent = 0 ∧ !x.describe.isEmpty then 0 else if 2 ^ 31 ≤ ahead 32 sent applied then x.applied else applied

/-- The streamer goes on to the next set bit, clears it, reads the line and sends it (R251). -/
def State.scanNext (s : State) (p : Nat) : State :=
  let x := s.pp p
  let n := s.shardLines p
  match (List.range n).find? (fun d => s.dirty p ((x.next + d) % n)) with
  | none => s.scanPass p n x.next
  | some d =>
    let b := (x.next + d) % n
    let s := (s.setDirty p b false).scanPass p (d + 1) ((b + 1) % n)
    match dirtyLine (s.tensors p (s.epochNow p)) b with
    | none => s
    | some (t, e, l) =>
      let (s, r) := s.palRead p (teLineAddr e l)
      match r with
      | some x => s.streamRec p .none (fun q => s.lineRecord p 1 q (s.epochNow p) t l e x)
      | none => s

/-- DIRTY_SCAN_SEND: what a reseed has still to describe, then the next line of the scan, then what a complete scan lets leave (R251 to R254).
`applied` and `slots` are the mirror's APPLIED, as last reported, and LOG_SLOTS. An APPLIED that has gone back tells that the mirror has
lost the slot: the stream is reseeded (R258, log entry 167). -/
def State.dirtyScan (s : State) (p applied slots : Nat) : State :=
  let x := s.pp p
  let applied := s.appliedNow p applied
  if !s.fbit (PAL_CTRL_ENABLE p) || (s.mirrorConn p).isNone || x.sealing then s
  else if decide (2 ^ 31 ≤ ahead 32 applied x.applied) then s.palReseed p
  else
  let s := (s.setPp p { x with applied := applied }).describeSend p (fun s => s.streamRoom p 0 applied slots)
  if !(s.pp p).describe.isEmpty || !s.streamRoom p 0 applied slots then s else
  (s.scanNext p).allSend p applied slots

-- Repairs (R247, R248, R260, R265) ----------------------------------------------------------------------------------------------------------------

/-- The whole shard of tensor `t` as REPAIR records, then an ENTRY record (R247). -/
def State.sendShard (s : State) (p conn t : Nat) : State :=
  match s.tensorEnt p (s.epochNow p) t with
  | none => s
  | some (_, e) =>
    let s := (List.range (teLines e)).foldl (fun s i =>
      let l := teFirst e + i
      let (s, r) := s.palRead p (teLineAddr e l)
      match r with
      | some x => s.sendRec p conn .none (s.lineRecord p 6 0 (s.epochNow p) t l e x)
      | none => s) s
    s.sendRec p conn .none (s.entryRecord p 0 (teStep e) t e)

def State.mslot (s : State) (p n : Nat) : MSlot := mget MSlot.init (s.pp p).slots n
def State.setMslot (s : State) (p n : Nat) (m : MSlot) : State :=
  let x := s.pp p
  s.setPp p { x with slots := mset MSlot.init x.slots n m }
def State.msDesc (s : State) (p n t : Nat) : Nat := s.fget (PAL_MS_DESC_BASE p n) * 64 + 64 * t
/-- Base address of line `l` of tensor `t` in slot `n`, when it is described (R255). -/
def State.msLine (s : State) (p n t l : Nat) : Option Nat :=
  if !(s.mslot p n).desc.contains t then none else
  match s.memGet p (s.msDesc p n t) 16 with
  | none => none
  | some d => if leAt d 0 4 ≤ l ∧ l < leAt d 0 4 + leAt d 4 4 then
      some (s.fget (PAL_MS_BASE_BASE p n) * 512 + 512 * (leAt d 8 8 + l - leAt d 0 4)) else none

/-- COUNT of line `l` of tensor `t` in a slot's base. -/
def MSlot.count (m : MSlot) (t l : Nat) : Nat := mget 32 m.counts (t * 2 ^ 32 + l)

/-- Tensor `t` of slot `n`, from the base, as REPAIR and ENTRY records (R256). -/
def State.msServe (s : State) (p n conn t : Nat) : State :=
  match s.memGet p (s.msDesc p n t) 64 with
  | none => s
  | some d =>
    if !(s.mslot p n).desc.contains t then s else
    let slow := (leAt d 0x10 1).testBit 0
    let s := (List.range (leAt d 4 4)).foldl (fun s i =>
      let l := leAt d 0 4 + i
      match s.msLine p n t l with
      | none => s
      | some a =>
        let (s, r) := s.memRead p a 512 .inval
        if r.ok then s.sendRec p conn .none (palRecord 6 slow (s.selfIx p) 0 (leAt r.bytes 0x1C8 4) (leAt r.bytes 0x1CC 2) ((s.mslot p n).count t l) t l
          (lineHash r.bytes) (linePayload r.bytes)) else s) s
    let m := s.mslot p n
    s.sendRec p conn .none (palRecord 3 slow (s.selfIx p) 0 (if slow then m.sverified else s.fget (PAL_MS_VSTEP_STEP p n)) m.epoch 0 t 0 0 (bytesAt d 0x20 28 ++ leBytes 4 0))

/-- Moves logged records of slot `n` that `sel` takes into the base, in SEQ order (R256). -/
def State.msMove (s : State) (p n : Nat) (sel : Nat × Nat × Bool → Bool) : State :=
  let m := s.mslot p n
  let slots := s.fget (PAL_MS_SIZE_LOG_SLOTS p n)
  let go := m.recs.filter sel
  let s := go.foldl (fun s r =>
    match s.memGet p (s.fget (PAL_MS_LOG_BASE p n) * 64 + 448 * (r.1 % slots)) 448 with
    | none => s
    | some b =>
      let t := leAt b 0x10 4
      let l := leAt b 0x14 4
      if r.2.1 = 1 then (match s.msLine p n t l with
        | some a =>
          let y := s.mslot p n
          (s.setMslot p n { y with counts := mset 32 y.counts (t * 2 ^ 32 + l) (leAt b 0xE 1) }).memPut p palSrc a (lineOf (bytesAt b 48 400)) .inval
        | none => s)
      else s.memPut p palSrc (s.msDesc p n t + 0x20) (bytesAt b 48 28) .inval) s
  let s := match go.getLast? with
    | some r => if ahead 32 (r.1 + 1) (s.fget (PAL_MS_APPLIED_SEQ p n)) < 2 ^ 31 then s.fset (PAL_MS_APPLIED_SEQ p n) (r.1 + 1) else s
    | none => s
  s.setMslot p n { s.mslot p n with recs := m.recs.filter (fun r => !sel r) }

/-- The slot of a lost source takes every record up to the last COMMIT and discards those after it (R265). -/
def State.msSettle (s : State) (p n : Nat) : State :=
  let m := s.mslot p n
  let s := match m.commit with
    | some q => s.msMove p n (fun r => decide (ahead 32 q r.1 < 2 ^ 31))
    | none => s
  let s := match m.cstep with | some c => s.fset (PAL_MS_VSTEP_STEP p n) c | none => s
  (s.setMslot p n { s.mslot p n with recs := [], moving := [], sverified := m.scommit.getD (s.mslot p n).sverified }).fset (PAL_MS_STATUS_STATE p n) 3

/-- REPAIR_REQUEST: a request on connection `conn` reaches this member, as the majority member of tensor `t` (`slot` none), or as the mirror of a
slot; `whole` asks for the source's whole shard (R247, R256, R265). -/
def State.repairRequest (s : State) (p : Nat) (slot : Option Nat) (conn t : Nat) (whole : Bool) : State :=
  match slot with
  | none => s.sendShard p conn t
  | some n =>
    let m := s.mslot p n
    if whole then
      let s := s.msSettle p n
      (s.mslot p n).desc.foldl (fun s t => s.msServe p n conn t) s
    else if !m.moving.isEmpty then s.setMslot p n { m with waits := m.waits ++ [(conn, t)] }
    else s.msServe p n conn t

/-- A line of a shard with entry `e` written in place through the ligature unit of its stack (R239, R259). -/
def State.palWrite (s : State) (p t l a : Nat) (e new : List Byte) : State :=
  let (s, old) := s.palRead p a
  (s.palPut p a new).palSide p t l e old new

/-- One line applied again from the gradient at hand (R248 step 4). -/
def State.replayLine (s : State) (p t step epoch : Nat) (e : List Byte) (l : Nat) (recs : Option (List (List Byte))) : State :=
  let a := teLineAddr e l
  match s.palGet p a with
  | none => s
  | some old =>
    let (s, g) := match recs with
      | none => s.gradLine p e l
      | some rs => (s, (rs.find? (fun r => recLine r == l)).map (recGes e))
    match g with
    | none => s
    | some g => s.palWrite p t l a e (ligNew e (leAt e 0x6C 4) step epoch old g).1

/-- Restore and replay (R248 steps 3 to 6) once the shard has come from the mirror. A step that the tensor's entry did not commit left no
change, and is not applied again. -/
def State.replay (s : State) (p t : Nat) (slow : Bool) : State :=
  match (s.pp p).ver slow, s.tensorEnt p (s.epochNow p) t, s.memGet p (s.digestAddr p t) 64 with
  | some v, some (a, e), some d =>
    let committed := teStep e == v.step
    let s := s.memPut p palSrc (a + 0x54) (bytesAt d 0x24 12 ++ bytesAt d 0x20 4) .inPlace
    let e' := patch e 0x54 (bytesAt d 0x24 12 ++ bytesAt d 0x20 4)
    let s := if !committed then s else
      let recs := if slow then (mfind v.lists t).map (fun (w : Nat × Nat) => (List.range w.2).filterMap (fun i => s.memGet p (w.1 + 128 * i) 128))
        else none
      let s := (List.range (teLines e)).foldl (fun s i => s.replayLine p t v.step (s.epochNow p) e' (teFirst e + i) recs) s
      s.memPut p palSrc (a + 0x54) (leBytes 4 (teP1n e') ++ leBytes 4 (teP2n e') ++ leBytes 4 (teApplied e' + 1) ++ leBytes 4 v.step) .inPlace
    let (s, now) := s.shardDigest p e
    if now != some (s.digest p t) then s.diverged p t 5 else
    match s.bunt p with
    | none => s.agree p t slow
    | some b =>
      let (_, me, _) := b.coord b.self
      let e2 := ((s.tensorEnt p (s.epochNow p) t).map (·.2)).getD []
      let s := s.digestOut p slow b (s.digestMsg p slow v.step [(t, e2)])
      let x := s.pp p
      let s := s.setPp p { x with fresh := mins x.fresh (128 * t + me) (s.digest p t) }
      if b.reps ≤ 1 then s.decideTensor p t slow b [some (s.digest p t)] (some (s.digest p t)) true
      else
        let vals := (List.range b.reps).map (fun i => mfind (s.pp p).fresh (128 * t + i))
        if vals.any (·.isNone) then s else
        let y := s.pp p
        (s.setPp p { y with fresh := y.fresh.filter (fun f => f.1 / 128 != t) }).decideTensor p t slow b vals (vals.getD me none) true
  | _, _, _ => s

/-- A repair has every line and, where it needs one, its ENTRY record (R247, R248, R265). -/
def State.fixTry (s : State) (p t : Nat) : State :=
  let x := s.pp p
  match mfind x.fix t with
  | none => s
  | some f =>
    if !f.left.isEmpty then s
    else if f.mode = 1 then ((s.setPp p { x with fix := mdel x.fix t }).replay p t f.slow).palIdle p
    else if !f.entry then s
    else
      let s := s.setPp p { x with fix := mdel x.fix t }
      if f.mode ≥ 2 then
        if (s.pp p).fix.isEmpty then ((s.setPp p { s.pp p with takeover := true }).sealStart p).palReseed p else s.palIdle p
      else
        let e := (s.tensorEnt p (s.epochNow p) t).map (·.2)
        -- the majority's value: what this member's own digest must now be
        let vals := (List.range (s.repsOf p)).map (fun r => match (x.ver f.slow) with
          | some v => (mfind x.msgs (msgKey f.slow v.step r)).bind (fun l => mfind l t)
          | none => none)
        let maj := vals.find? (fun v => v.isSome && decide (s.repsOf p < 2 * (vals.filter (· == v)).length))
        let (s, mem) := match e with | some e => s.shardDigest p e | none => (s, none)
        if mem == some (s.digest p t) && (maj == some mem || maj.isNone) then
          (s.agree p t f.slow).palIdle p
        else s.diverged p t 5

/-- The lines of tensor `t` that a spare's mirror lacks are taken from a replica; with none the takeover fails, that of the other tensors with it (R265). -/
def State.fromReplica (s : State) (p t : Nat) (slow : Bool) : State :=
  match s.replicaOf p with
  | some i => s.startFix p t 3 (s.memberConn p i) slow
  | none => ((s.setPp p { s.pp p with fix := (s.pp p).fix.filter (fun f => f.2.mode < 2) }).palFault p 6 0 t 0xFFFFFFFF).palIdle p

/-- Is a mirror's COMMIT of `step` older than the committed step of the other members: n − 1 of the fast tier, and of the slow tier what R179 lets a task of
step n read (R265; log entry 200)? -/
def State.mirrorBehind (s : State) (p step : Nat) (slow : Bool) : Bool :=
  decide (0 < s.sqStep p) && !stepGe (step + 1 + (if slow then s.staleK p else 0)) (s.sqStep p)

/-- REPAIR_RECORD: a REPAIR or ENTRY record of a repair arrives (R247, R252, R259). -/
def State.repairRecord (s : State) (p : Nat) (r : List Byte) : State :=
  let t := leAt r 0x10 4
  let l := leAt r 0x14 4
  match s.tensorEnt p (s.epochNow p) t with
  | none => s.palFault p 4 0 t l
  | some (a, e) =>
    let x := s.pp p
    if leAt r 0 1 = 3 then
      let s := match mfind x.fix t with
        | some f => if f.mode = 1 then s else s.memPut p palSrc (a + 0x54) (bytesAt r 48 28) .inPlace
        | none => s
      -- a mirror behind the committed step of the others: the lines come from a replica, or the takeover fails (R265)
      let behind := match mfind x.fix t with
        | some f => f.mode == 2 && s.mirrorBehind p (leAt r 8 4) f.slow
        | none => false
      if behind then s.fromReplica p t (teSlow e)
      else (s.setPp p { s.pp p with fix := mmod x.fix t (fun f => { f with entry := true }) }).fixTry p t
    else if leAt r 0 1 ≠ 6 then s
    else
      let line := lineOf (bytesAt r 48 400)
      if lineHash line ≠ leAt r 0x20 16 then s.palFault p 3 0 t l
      else if l < teFirst e ∨ teFirst e + teLines e ≤ l then s.palFault p 4 0 t l
      else
        let s := (s.palWrite p t l (teLineAddr e l) e line).fsat (PAL_REPAIRS_COUNT p) 1
        let x := s.pp p
        (s.setPp p { x with fix := mmod x.fix t (fun f => { f with left := sdel f.left l }) }).fixTry p t

/-- The shard line at PMS address `a`: tensor, its entry, line. -/
def State.lineAt (s : State) (p a : Nat) : Option (Nat × List Byte × Nat) :=
  (((s.tensors p (s.epochNow p)).find? (fun e => decide (teState e.2 ≤ a ∧ a < teState e.2 + 512 * teLines e.2))).map
    (fun e => (e.1, e.2, teFirst e.2 + (a - teState e.2) / 512)))

/-- The INFER model whose lines hold PMS address `a`, and the host address of that line (R200, R260). -/
def State.inferLine (s : State) (p a : Nat) : Option Nat :=
  if !s.hotset p then none else
  ((List.range 8).find? (fun m =>
    let e := s.modelEnt p m
    (meFlags e).testBit 0 && (meFlags e).testBit 3 && s.modelResident p m && decide (s.modelPlace p m ≤ a ∧ a < s.modelPlace p m + meBytes e))).map
      (fun m => meHost (s.modelEnt p m) + (a - s.modelPlace p m) / 512 * 512)

/-- The mirror's line, at VSTEP, brought to the entry's STEP (R260): a fast-tier line is replayed from GRAD_BASE and a slow-tier one from its record, if the
step's list has one; a frozen line, or one that the list does not name, is as it was. -/
def State.lineForward (s : State) (p t l : Nat) (e d line : List Byte) : State × List Byte :=
  let e' := patch e 0x54 (bytesAt d 0x24 12 ++ bytesAt d 0x20 4)
  let (s, g) := if (teFlags e).testBit 3 then (s, none) else if teSlow e then
      let w := ((s.pp p).slow.bind (fun v => mfind v.lists t)).getD (0, 0)
      let (s, rs) := (List.range w.2).foldl (fun (a : State × List (List Byte)) i =>
        let (s, r) := a.1.slowRec p w.1 i
        (s, a.2 ++ r.toList)) (s, [])
      (s, (rs.find? (fun r => recLine r == l)).map (recGes e))
    else s.gradLine p e l
  match g with
  | none => (s, line)
  | some g => (s, (ligNew e' (leAt e 0x6C 4) (teStep e) (s.epochNow p) line g).1)

/-- The lost line `l` of tensor `t`, entry `e`, at PMS address `a` of partition `p`, rebuilt from the mirror's record, replayed when VSTEP is behind the
entry's STEP, or from a replica's record at the entry's STEP (R260). A line of the slow tier or of a frozen tensor may carry an older TAG.STEP. -/
def State.shardRebuild (s : State) (p t l a : Nat) (e : List Byte) (mirror replica : Option (List Byte)) : State :=
  let line := fun (r : List Byte) => lineOf (bytesAt r 48 400)
  let good := fun (r : List Byte) => lineHash (line r) == leAt r 0x20 16 && leAt r 0x10 4 == t && leAt r 0x14 4 == l
  let d := (s.memGet p (s.digestAddr p t) 64).getD []
  let vstep := leAt d 0x20 4
  let old := fun (r : List Byte) => (teSlow e || (teFlags e).testBit 3) && stepGe (teStep e) (leAt r 8 4)
  let fromM := mirror.filter (fun r => s.mirrored p && good r && (leAt r 8 4 == teStep e || leAt r 8 4 == vstep || old r))
  let fromR := replica.filter (fun r => decide (2 ≤ s.repsOf p) && good r && (leAt r 8 4 == teStep e || old r))
  match fromM, fromR with
  | some r, _ =>
    if leAt r 8 4 = teStep e ∨ vstep = teStep e then s.palWrite p t l a e (line r)
    else
      let (s, x) := s.lineForward p t l e d (line r)
      s.palWrite p t l a e x
  | none, some r => s.palWrite p t l a e (line r)
  | none, none => s.palFault p 6 0 t l

/-- LINE_REBUILD: the lost line at PMS address `a` is rebuilt from the first source that can supply it (R260); a line of a shared region that belongs to a
shard of the region's WRITER, as that (R202); a line of an INFER model, from its host copy. -/
def State.lineRebuild (s : State) (p a : Nat) (mirror replica : Option (List Byte)) : State :=
  let a := a / 512 * 512
  if !s.poisoned (s.loc p a) then s else
  let w := if a < sharedBase then p else match s.shared ((a - sharedBase) / sharedStep) with | some e => e.writer | none => p
  match s.lineAt p a, s.lineAt w a with
  | some (t, e, l), _ => s.shardRebuild p t l a e mirror replica
  | none, some (t, e, l) => s.shardRebuild w t l a e mirror replica
  | none, none =>
    match s.inferLine p a with
    | some h => if s.hostLost p then s.palFault p 6 0 0 0xFFFFFFFF else s.memPut w palSrc a (s.hostRead h 512) .inval
    | none => s

-- Mirrors (R255 to R258) ---------------------------------------------------------------------------------------------------------------------------

/-- A record fails: the slot's stream halts with STATE fault (R256). -/
def State.msFault (s : State) (p n code t l : Nat) : State := (s.palFault p code n t l).fset (PAL_MS_STATUS_STATE p n) 4

/-- Does slot `n` take records: in use, neither halted nor lost? -/
def State.msTakes (s : State) (p n : Nat) : Bool :=
  s.fget (PAL_MS_CONN_CONN p n) != 0xFFFFFFFF && s.fget (PAL_MS_STATUS_STATE p n) != 4 && !(s.mslot p n).lost

/-- The slot's base area and log, when one leaves the partition's space (code 0x01). -/
def State.msOut (s : State) (p n : Nat) : Option Nat :=
  s.firstOut p [(s.fget (PAL_MS_BASE_BASE p n) * 512, 512 * s.fget (PAL_MS_SIZE_BASE_LINES p n)),
                (s.fget (PAL_MS_LOG_BASE p n) * 64, 448 * s.fget (PAL_MS_SIZE_LOG_SLOTS p n))]

/-- MIRROR_DESCRIBE: SEQ 0 empties the slot; the tensor enters the descriptor table (R255, R257, R258). -/
def State.msDescribe (s : State) (p n : Nat) (r : List Byte) : State :=
  let seq := leAt r 4 4
  let t := leAt r 0x10 4
  if s.fget (PAL_MS_CONN_CONN p n) = 0xFFFFFFFF then s else
  let s := if seq = 0 then
      (s.setMslot p n { MSlot.init with epoch := leAt r 0xC 2 }).fsets
        [(PAL_MS_STATUS_STATE p n, 1), (PAL_MS_STATUS_SOURCE p n, leAt r 2 2), (PAL_MS_APPLIED_SEQ p n, 0)]
    else s
  if !s.msTakes p n then s else
  match s.msOut p n with
  | some a => (s.palArea p n a).fset (PAL_MS_STATUS_STATE p n) 4
  | none =>
  let m := s.mslot p n
  let lines := leAt r 48 4
  if s.fget (PAL_MS_SIZE_BASE_LINES p n) < m.lines + lines ∨ s.fget (PAL_MS_SIZE_LOG_SLOTS p n) / 2 < m.lines + lines then
    s.msFault p n 2 t 0xFFFFFFFF
  else
    let a := s.msDesc p n t
    if !s.inSpace p a 64 then (s.palArea p n a).fset (PAL_MS_STATUS_STATE p n) 4 else
    let s := s.memPut p palSrc a (bytesAt (leBytes 4 (leAt r 0x14 4) ++ leBytes 4 lines ++ leBytes 8 m.lines ++ bytesAt r 52 1) 0 64) .inval
    s.setMslot p n { m with lines := m.lines + lines, desc := sins m.desc t }

/-- A record is logged in slot s mod LOG_SLOTS (R255). -/
def State.msLog (s : State) (p n : Nat) (r : List Byte) : State :=
  let m := s.mslot p n
  let a := s.fget (PAL_MS_LOG_BASE p n) * 64 + 448 * (leAt r 4 4 % s.fget (PAL_MS_SIZE_LOG_SLOTS p n))
  if !s.inSpace p a 448 then (s.palArea p n a).fset (PAL_MS_STATUS_STATE p n) 4 else
  (s.memPut p palSrc a r .inval).setMslot p n { m with recs := m.recs ++ [(leAt r 4 4, leAt r 0 1, (leAt r 1 1).testBit 0)] }

/-- MIRROR_LINE: a LINE record is checked against its HASH and the descriptor table, and logged (R256). -/
def State.mirrorLine (s : State) (p n : Nat) (r : List Byte) : State :=
  let t := leAt r 0x10 4
  let l := leAt r 0x14 4
  if !s.msTakes p n then s
  else if lineHash (lineOf (bytesAt r 48 400)) ≠ leAt r 0x20 16 then s.msFault p n 3 t l
  else if (s.msLine p n t l).isNone then s.msFault p n 4 t l
  else s.msLog p n (bytesAt r 0 448)

/-- MIRROR_ENTRY: the payload is logged for the descriptor table (R256). -/
def State.mirrorEntry (s : State) (p n : Nat) (r : List Byte) : State :=
  let t := leAt r 0x10 4
  if !s.msTakes p n then s
  else if !(s.mslot p n).desc.contains t then s.msFault p n 4 t 0xFFFFFFFF
  else s.msLog p n (bytesAt r 0 80)

/-- MIRROR_COMMIT (R254). -/
def State.mirrorCommit (s : State) (p n : Nat) (r : List Byte) : State :=
  if !s.msTakes p n then s else
  let m := s.mslot p n
  let slow := (leAt r 1 1).testBit 0
  s.setMslot p n { m with commit := some (leAt r 4 4), cstep := if slow then m.cstep else some (leAt r 8 4),
                          scommit := if slow then some (leAt r 8 4) else m.scommit }

/-- MIRROR_VERIFY: the move of the logged records of its class begins (R256). -/
def State.mirrorVerify (s : State) (p n : Nat) (r : List Byte) : State :=
  if !s.msTakes p n then s
  else s.setMslot p n { s.mslot p n with moving := (s.mslot p n).moving ++ [(leAt r 4 4, (leAt r 1 1).testBit 0, leAt r 8 4)] }

/-- LOG_MOVE_COMPLETE: the records of the oldest move are in the base; APPLIED and VSTEP advance, and after the last move waiting requests are served
(R256). -/
def State.logMoved (s : State) (p n : Nat) : State :=
  match (s.mslot p n).moving with
  | [] => s
  | (q, slow, step) :: rest =>
    let s := s.msMove p n (fun r => r.2.2 == slow && decide (0 < ahead 32 q r.1) && decide (ahead 32 q r.1 < 2 ^ 31))
    let s := if slow then s.setMslot p n { s.mslot p n with sverified := step } else s.fset (PAL_MS_VSTEP_STEP p n) step
    let s := if s.fget (PAL_MS_STATUS_STATE p n) = 1 then s.fset (PAL_MS_STATUS_STATE p n) 2 else s
    let m := s.mslot p n
    if !rest.isEmpty then s.setMslot p n { m with moving := rest }
    else m.waits.foldl (fun s w => s.msServe p n w.1 w.2) (s.setMslot p n { m with moving := [], waits := [] })

-- Migration (R234, R235) -----------------------------------------------------------------------------------------------------------------------------

/-- The line of tensor `t` in the tables of `epoch`: its address and entry. -/
def State.shardLine (s : State) (p epoch t l : Nat) : Option (Nat × List Byte) :=
  (s.tensorEnt p epoch t).bind (fun e => if teFirst e.2 ≤ l ∧ l < teFirst e.2 + teLines e.2 then some (teLineAddr e.2 l, e.2) else none)

/-- A line with TAG.EPOCH rewritten. -/
def retag (epoch : Nat) (x : List Byte) : List Byte := patch x 0x1CC (leBytes 2 epoch)

/-- Does the place of a line of the new shards already hold that line in the new epoch? -/
def State.placed (s : State) (p epoch t l : Nat) : Bool :=
  match s.shardLine p epoch t l with
  | none => true
  | some (a, _) => match s.palGet p a with
    | some x => leAt x 0x1C0 4 == t && leAt x 0x1C4 4 == l && leAt x 0x1CC 2 == epoch
    | none => false

/-- The lines that the MIGRATE list of a table names, of tensors of one tier: tensor, line and member. -/
def State.migrateList (s : State) (p : Nat) (h : SHdr) (slow : Bool) : List (Nat × Nat × Nat) :=
  (List.range h.mc).flatMap (fun i =>
    match s.memGet p (h.migrate + 16 * i) 16 with
    | none => []
    | some m =>
      match s.tensorEnt p (s.epochNow p) (leAt m 0 4) with
      | none => []
      | some (_, e) =>
        if teSlow e != slow then [] else (List.range (leAt m 8 4)).map (fun k => (leAt m 0 4, leAt m 4 4 + k, leAt m 0xC 2)))

/-- One line of the list leaves as a MIGRATE record, unless it cannot be read now. A line outside the old shards is none of the member's. -/
def State.migrateSend (p : Nat) (s : State) (x : Nat × Nat × Nat) : State :=
  match s.shardLine p (s.epochNow p) x.1 x.2.1 with
  | none => s
  | some (a, e) =>
    let (s, r) := s.palRead p a
    match r with
    | some b => s.sendRec p (s.memberConn p x.2.2) .none (s.lineRecord p 7 0 (s.epochNow p) x.1 x.2.1 e b)
    | none => let y := s.sqp p; s.setSqp p { y with toSend := y.toSend ++ [x] }

/-- A line that stays on the member is copied or retagged in place. -/
def State.migrateStay (p new : Nat) (s : State) (x : Nat × Nat) : State :=
  if s.placed p new x.1 x.2 then s else
  match s.shardLine p (s.epochNow p) x.1 x.2, s.shardLine p new x.1 x.2 with
  | some (a, _), some (b, e) => match s.palGet p a with
    | some line => s.palWrite p x.1 x.2 b e (retag new line)
    | none => s
  | _, _ => s

/-- The slot and the epoch that a switch goes to: those that this member's close record asked for (R234). -/
def State.switchTo (s : State) (p : Nat) : Nat × Nat := (s.sqp p).asked.getD (s.fget (SCH_SQ_NEXT_SLOT p), s.fget (SCH_SQ_NEXT_EPOCH p))

/-- The migration goes on: the lines still to be sent leave, the lines that stay are copied, and those still missing are awaited (R235). -/
def State.migrateGo (s : State) (p : Nat) : State :=
  let new := (s.switchTo p).2
  let y := s.sqp p
  let s := y.toSend.foldl (State.migrateSend p) (s.setSqp p { y with toSend := [] })
  let s := y.missing.foldl (State.migrateStay p new) s
  s.setSqp p { s.sqp p with missing := y.missing.filter (fun x => !s.placed p new x.1 x.2) }

/-- The tensors of one tier begin to migrate. -/
def State.migrateTier (s : State) (p : Nat) (h : SHdr) (slow : Bool) : State :=
  let new := (s.switchTo p).2
  let all := ((s.tensors p new).filter (fun e => teSlow e.2 == slow)).flatMap (fun e => (List.range (teLines e.2)).map (fun i => (e.1, teFirst e.2 + i)))
  let y := s.sqp p
  (s.setSqp p { y with toSend := y.toSend ++ s.migrateList p h slow, missing := y.missing ++ all, slowMig := y.slowMig || slow }).migrateGo p

/-- Slow-tier tensors migrate once LIG_SLOW_DONE has reached the step (R235 step 5). -/
def State.migrateSlow (s : State) (p : Nat) : State :=
  if (s.sqp p).slowMig || !((s.tier p true).isEmpty || stepGe (s.fget (LIG_SLOW_DONE_STEP p)) (s.sqStep p)) then s
  else match s.sqHdr p (s.switchTo p).1 with
    | none => s
    | some h => s.migrateTier p h true

/-- MIGRATE_RECORD: a MIGRATE record is placed by the receiver's new tensor table (R235, R259). -/
def State.migrateRecord (s : State) (p : Nat) (r : List Byte) : State :=
  let t := leAt r 0x10 4
  let l := leAt r 0x14 4
  let new := (s.switchTo p).2
  let line := lineOf (bytesAt r 48 400)
  if leAt r 0 1 ≠ 7 then s
  else if lineHash line ≠ leAt r 0x20 16 then s.palFault p 3 0 t l
  else match s.shardLine p new t l with
    | none => s.ligFault p 0 3 t l
    | some (a, e) =>
      let s := s.palWrite p t l a e (retag new line)
      let x := s.sqp p
      s.setSqp p { x with missing := x.missing.filter (fun y => y != (t, l)) }

/-- STEP_END (R231, R234, R235): the step is over; an agreed switch begins, or the next step is entered. A new table whose header cannot be read halts the
sequencer (R224). -/
def State.stepEnd (s : State) (p : Nat) : State :=
  if !s.sqLive p then s else
  match s.sqHdr p (s.fget (SCH_SQ_EPOCH_SLOT p)) with
  | none => s
  | some h =>
    if !s.stepOver p h then s else
    match (s.sqp p).agreed with
    | none => s.enterStep p
    | some _ =>
      let dst := s.switchTo p
      match s.sqHdr p dst.1 with
      | none => s.sqHeadFault p (s.sqHdrCheck p dst.1 dst.2) true
      | some h' =>
        let s := (s.setSqp p { s.sqp p with missing := [], toSend := [], slowMig := false }).fset (SCH_SQ_STATUS_MIGRATING p) 1
        (s.migrateTier p h' false).migrateSlow p

/-- MIGRATION_COMPLETE: every line of the new shards is present; the new table and epoch come into force, the next step begins and the new
shards are sealed (R224, R235, R241). -/
def State.migrated (s : State) (p : Nat) : State :=
  if !s.fbit (SCH_SQ_STATUS_MIGRATING p) || s.fbit (SCH_SQ_STATUS_HALTED p) then s else
  let s := (s.migrateGo p).migrateSlow p
  if !(s.sqp p).missing.isEmpty || !(s.sqp p).toSend.isEmpty || !(s.sqp p).slowMig then s else
  let (slot, epoch) := s.switchTo p
  let c := s.sqHdrCheck p slot epoch
  if c.1 ≠ 0 then s.sqHeadFault p c true else
  -- a request that has replaced the agreed one stays for a later switch
  let same := s.fget (SCH_SQ_NEXT_SLOT p) == slot && s.fget (SCH_SQ_NEXT_EPOCH p) == epoch
  let s := s.fsets ([(SCH_SQ_EPOCH_SLOT p, slot), (SCH_SQ_EPOCH_EPOCH p, epoch), (SCH_SQ_STATUS_MIGRATING p, 0)] ++
    (if same then [(SCH_SQ_NEXT_REQ p, 0)] else []))
  let s := s.enterStep p
  if s.fbit (PAL_CTRL_ENABLE p) then (s.sealStart p).palReseed p else s

-- Ends of a step ----------------------------------------------------------------------------------------------------------------------------------------

/-- Is no reduction of a fast-tier tensor outstanding in the step (R175)? -/
def State.fastReduced (s : State) (p : Nat) : Bool :=
  if !s.fbit (SCH_SQ_CTRL_ENABLE p) then true else
  match s.sqHdr p (s.fget (SCH_SQ_EPOCH_SLOT p)) with
  | none => false
  | some h => (List.range h.entries).all (fun i => match s.sqEnt p i with
    | none => false
    | some b =>
      let e := parseSEnt b
      e.kind != 5 || (s.sqp p).fin.contains i || (match s.sqItem p h e with | some g => gSlow g | none => false))

/-- After LIG_STEP has moved, the digests of the step leave (R243). -/
def State.afterStep (before s : State) (p : Nat) : State :=
  match (s.lp p).last with
  | some n => if (before.lp p).last = some n then s else s.digestSend p false n []
  | none => s

def State.stepCommit (s : State) (p : Nat) : State := State.afterStep s (s.ligCommit p (s.fastReduced p)) p
def State.rollbackDone (s : State) (p : Nat) : State := State.afterStep s ((if (s.lp p).rolling then s.ligRollback p else s).ligSkipEnd p (s.fastReduced p)) p

/-- The end of a slow-tier update; when LIG_SLOW_DONE moves, its digests leave (R180, R243). -/
def State.slowDone (s : State) (p : Nat) : State :=
  let j := s.fget (LIG_SLOW_DONE_STEP p)
  let x := s.lp p
  let t := s.slowComplete p
  let k := t.fget (LIG_SLOW_DONE_STEP p)
  if j = k then t
  else t.digestSend p true k ((x.slow.filter (fun w => w.note.step == k)).foldl (fun m w => mins m w.note.tensor (w.list, w.count)) [])

-- Takeover (R263 to R265) ----------------------------------------------------------------------------------------------------------------------------------

/-- The first entry of the spare list that is on standby: its index and bytes. -/
def State.standby (s : State) (p : Nat) : Option (Nat × List Byte) :=
  let a := s.fget (PAL_SPARES_BASE_BASE p) * 128
  (List.range 8).findSome? (fun i => match s.memGet p (a + 16 * i) 16 with
    | some e => if leAt e 0xC 1 = 0 then some (i, e) else none
    | none => none)

/-- A spare list that leaves the partition's space is fault 0x01 (R266). -/
def State.sparesSee (s : State) (p : Nat) : State :=
  match s.firstOut p [(s.fget (PAL_SPARES_BASE_BASE p) * 128, 128)] with
  | some a => s.palArea p 0 a
  | none => s

/-- Every member assigns lost index `i` to the first standby spare (R264). A member whose mirror is replaced reseeds (R258). -/
def State.assignSpare (s : State) (p i : Nat) : State :=
  let s := s.sparesSee p
  match s.standby p, s.bunt p with
  | some (k, e), some b =>
    let s := s.memPut p palSrc (s.fget (PAL_SPARES_BASE_BASE p) * 128 + 16 * k + 0xC) [byteOf 1] .inPlace
    let s := s.setMember p i 0 (bytesAt e 0 12)
    let s := if s.mirror p = 1 ∧ s.fbit (PAL_CTRL_ENABLE p) ∧ (b.self + 1) % b.n = i then s.palReseed p else s
    if s.mirror p = 1 ∧ (i + 1) % b.n = b.self then
      s.fsets [(PAL_MS_STATUS_STATE p 0, 3), (PAL_MS_CONN_CONN p 0, leAt e 8 4)]
    else s
  | _, _ => s

/-- The lowest-index member that is still joined sends a TAKEOVER notice for lost member `i` (R264). -/
def State.takeoverSend (s : State) (p i : Nat) : State :=
  match s.bunt p, s.standby p with
  | some _, none => s.sparesSee p
  | some b, some (_, e) =>
    if (List.range b.n).find? (fun m => s.memberState p m == 1) ≠ some b.self then s else
    let note := bytesAt (leBytes 8 b.id ++ leBytes 2 i ++ leBytes 4 (s.sqStep p) ++ leBytes 2 (if s.mirror p = 1 then (i + 1) % b.n else 0xFFFF)) 0 32
    let s := s.zSend (zMsg p (leAt e 8 4) 1 none none note)
    let s := (List.range b.n).foldl (fun s m =>
      if m = b.self ∨ m = i then s else s.zSend (zMsg p (s.memberConn p m) 1 none none note)) s
    s.assignSpare p i
  | _, _ => s

/-- The slot in which partition `p` mirrors member `i`. -/
def State.mirrorSlot (s : State) (p i : Nat) : Option Nat :=
  (List.range 4).find? (fun n => s.fget (PAL_MS_CONN_CONN p n) != 0xFFFFFFFF && s.fget (PAL_MS_STATUS_STATE p n) != 0 &&
    s.fget (PAL_MS_STATUS_SOURCE p n) == i)

/-- TAKEOVER_NOTICE: a notice arrives (R264). A spare takes the lost index: a standby one, or the mirror of that member, joined to no bunting (R263); a
member assigns it to the spare. -/
def State.takeoverNotice (s : State) (p : Nat) (note : List Byte) : State :=
  let i := leAt note 8 2
  match s.bunt p with
  | none => s
  | some b =>
    if leAt note 0 8 ≠ b.id ∨ b.n ≤ i then s
    else if (s.fbit (PAL_CTRL_STANDBY p) || (s.mirrorSlot p i).any (fun _ => !s.fbit (SCH_SQ_STATUS_FORMED p))) && !s.fbit (PAL_STATUS_TAKEN_OVER p) then
      let s := s.buntPut p 0xA (leBytes 2 i)
      (s.fset (PAL_STATUS_TAKEN_OVER p) 1).noteEv 0x12 0 p (leAt note 10 4)
    else (s.memberLost p i).assignSpare p i

/-- The whole state of a source, from the spare's own mirror slot `n` (R263, R265): every line of the base and every ENTRY payload. -/
def State.ownState (s : State) (p n : Nat) : State :=
  let s := s.msSettle p n
  (s.mslot p n).desc.foldl (fun s t =>
    match s.tensorEnt p (s.epochNow p) t, s.memGet p (s.msDesc p n t) 64 with
    | some (a, e), some d =>
      let s := (List.range (leAt d 4 4)).foldl (fun s i =>
        let l := leAt d 0 4 + i
        match (s.msLine p n t l).bind (fun b => s.memGet p b 512) with
        | some x => if teFirst e ≤ l ∧ l < teFirst e + teLines e then s.palWrite p t l (teLineAddr e l) e x else s
        | none => s) s
      s.memPut p palSrc (a + 0x54) (bytesAt d 0x20 28) .inPlace
    | _, _ => s) s

/-- SPARE_STATE_REQUEST: a spare that holds the tables of its index asks the mirror, on `conn`, for the whole state, or takes it from its own slot; the
seal that ends it enables the sequencer and forces a skip (R261, R263, R265). Where neither is there, the takeover fails with fault 0x06. -/
def State.spareRequest (s : State) (p : Nat) (conn : Option Nat) : State :=
  if !s.fbit (PAL_STATUS_TAKEN_OVER p) then s else
  let ts := s.tensors p (s.epochNow p)
  match conn, s.mirrorSlot p (s.selfIx p) with
  | some c, _ =>
    let s := s.setPp p { s.pp p with fix := ts.foldl (fun m e =>
      mins m e.1 ⟨2, teSlow e.2, (List.range (teLines e.2)).map (· + teFirst e.2), false⟩) [] }
    (s.zSend (zMsg p c 2 none none (leBytes 4 0xFFFFFFFF))).palIdle p
  | none, some n =>
    let s := s.ownState p n
    let behind := ts.filter (fun e => s.mirrorBehind p (if teSlow e.2 then (s.mslot p n).sverified else s.fget (PAL_MS_VSTEP_STEP p n)) (teSlow e.2))
    if !behind.isEmpty then behind.foldl (fun s e => s.fromReplica p e.1 (teSlow e.2)) s
    else ((s.setPp p { s.pp p with takeover := true }).sealStart p).palReseed p
  | none, none => s.palFault p 6 0 0 0xFFFFFFFF

-- Commands ---------------------------------------------------------------------------------------------------------------------------------------------------

def execStepCommit (p : Nat) (s : State) : Host.Outcome State Fault Refusal := onUnit (p < 16) (s.stepCommit p)
def execRollbackComplete (p : Nat) (s : State) : Host.Outcome State Fault Refusal := onUnit (p < 16) (s.rollbackDone p)
def execSlowUpdateComplete (p : Nat) (s : State) : Host.Outcome State Fault Refusal := onUnit (p < 16) (s.slowDone p)
def execStepEnd (p : Nat) (s : State) : Host.Outcome State Fault Refusal := onUnit (p < 16) (s.stepEnd p)
def execMigrationComplete (p : Nat) (s : State) : Host.Outcome State Fault Refusal := onUnit (p < 16) (s.migrated p)
def execSealComplete (p : Nat) (s : State) : Host.Outcome State Fault Refusal := onUnit (p < 16) (s.sealDone p)
def execDigestMessageArrival (p r step : Nat) (slow : Bool) (s : State) : Host.Outcome State Fault Refusal :=
  onUnit (p < 16) (s.digestArrival p r step slow)
def execRepairRequest (p : Nat) (slot : Option Nat) (conn t : Nat) (whole : Bool) (s : State) : Host.Outcome State Fault Refusal :=
  onUnit (decide (p < 16) && (slot.all (fun n => decide (n < 4)))) (s.repairRequest p slot conn t whole)
def execRepairRecord (p : Nat) (r : List Byte) (s : State) : Host.Outcome State Fault Refusal := onUnit (p < 16) (s.repairRecord p r)
def execStepVerified (p : Nat) (slow : Bool) (s : State) : Host.Outcome State Fault Refusal := onUnit (p < 16) (s.stepVerified p slow)
def execDirtyScanSend (p applied slots : Nat) (s : State) : Host.Outcome State Fault Refusal := onUnit (p < 16) (s.dirtyScan p applied slots)
/-- Operands of a mirror command: a partition and a slot. -/
def msOk (p n : Nat) : Bool := decide (p < 16) && decide (n < 4)
def execMirrorLine (p n : Nat) (r : List Byte) (s : State) : Host.Outcome State Fault Refusal := onUnit (msOk p n) (s.mirrorLine p n r)
def execMirrorDescribe (p n : Nat) (r : List Byte) (s : State) : Host.Outcome State Fault Refusal := onUnit (msOk p n) (s.msDescribe p n r)
def execMirrorEntry (p n : Nat) (r : List Byte) (s : State) : Host.Outcome State Fault Refusal := onUnit (msOk p n) (s.mirrorEntry p n r)
def execMirrorCommit (p n : Nat) (r : List Byte) (s : State) : Host.Outcome State Fault Refusal := onUnit (msOk p n) (s.mirrorCommit p n r)
def execMirrorVerify (p n : Nat) (r : List Byte) (s : State) : Host.Outcome State Fault Refusal := onUnit (msOk p n) (s.mirrorVerify p n r)
def execLogMoveComplete (p n : Nat) (s : State) : Host.Outcome State Fault Refusal := onUnit (msOk p n) (s.logMoved p n)
def execMigrateRecord (p : Nat) (r : List Byte) (s : State) : Host.Outcome State Fault Refusal := onUnit (p < 16) (s.migrateRecord p r)
def execLineRebuild (p a : Nat) (mirror replica : Option (List Byte)) (h : HostStores) (s : State) : Host.Outcome State Fault Refusal :=
  onUnit (p < 16) ((s.hostStores h).lineRebuild p a mirror replica)
def execSpareStateRequest (p : Nat) (conn : Option Nat) (s : State) : Host.Outcome State Fault Refusal := onUnit (p < 16) (s.spareRequest p conn)

end Sys2Proof.Machine
end

