-- ==== Sys2Proof/Machine/Hbm.lean ====
section
/-!
DEFINITION. The memory controllers' own work: the patrol scrubber (R275), channel errors and map-out (R278 to R282) with its consequences
for tasks, palimpsest structures and the step (R262), and re-encryption (R286, R287).
-/
namespace Sys2Proof.Machine

/-- Partitions that an owner's event goes to (R277, R280): the partition, or the READERS and the WRITER of a shared region. -/
def State.ownerParts (s : State) (o : Nat) : List Nat :=
  if o < 16 then [o]
  else match s.shared (o - 16) with
    | some r => (List.range 16).filter (fun p => r.readers.testBit p || r.writer == p)
    | none => []

/-- PATROL_SCRUB: the next line of channel `c` is read; `err` says what the read finds: 0 a correctable line, 1 an uncorrectable one (R275). -/
def State.patrol (s : State) (c : Nat) (err : Option Nat) : State :=
  if s.fget HBM_CTRL_SCRUB_HOURS = 0 ∨ (s.chan c).state ≠ 0 ∨ !s.gateOn (8 + c / 32) ∨ !s.gateOn 6 ∨ s.asleep then s else
  let l := mget 0 s.hbm.scrub c
  let s := { s with hbm := { s.hbm with scrub := mset 0 s.hbm.scrub c ((l + 1) % 2 ^ 22) } }
  match err with
  | some k => if k < 2 then s.lineErr 0 (c * 2 ^ 22 + l, k) else s
  | none => s

/-- The trigger of a map-out (R278): a channel with an owner waits; a free one is marked mapped out (R280). -/
def State.mapTrigger (s : State) (c : Nat) : State :=
  let x := s.chan c
  if x.state ≠ 0 ∧ x.state ≠ 4 then s
  else if x.owner < 24 then s.setChan c { x with state := 3 }
  else (s.setChan c { x with state := 1 }).ledFact { s.led with mapped := sins s.led.mapped c }

/-- UE_LIMIT_REACHED: UE_LIMIT distinct lines of the channel were found uncorrectable within 1 s (R278). -/
def State.ueLimit (s : State) (c : Nat) : State :=
  match mget [] s.hbm.ues c with
  | [] => s
  | e :: l =>
    let lines := ((e :: l).filter (fun x => decide (e.2 ≤ x.2 + 1000000))).foldl (fun a x => sins a x.1) []
    if max 1 (s.fget HBM_CTRL_UE_LIMIT) ≤ lines.length ∧ (s.chan c).state = 0 then s.mapTrigger c else s

/-- CHANNEL_TRAINING_LOSS (R278); the PHY of a stopped stack has no training to lose (R31). -/
def State.trainLoss (s : State) (c : Nat) : State :=
  let x := s.chan c
  if x.state = 0 ∧ s.gateOn (8 + c / 32) then s.setChan c { x with state := 4 } else s

/-- RETRAIN_RESULT: the channel returns to service, or 100 µs have passed and map-out is triggered (R278). -/
def State.retrainEnd (s : State) (c : Nat) (ok : Bool) : State :=
  let x := s.chan c
  if x.state ≠ 4 then s else if ok then s.setChan c { x with state := 0 } else s.mapTrigger c

/-- HBM_MAPOUT written with GO (R278). -/
def State.hbmMapout (s : State) (v : Nat) : State :=
  if v.testBit 31 && s.stackThere (v % 256 / 32) then s.mapTrigger (v % 256) else s

/-- The channel whose turn it is: the lowest that waits (R278). -/
def State.mapNext (s : State) : Option Nat := (List.range 256).find? (fun c => (s.chan c).state == 3)

/-- An event of a channel (R279, R281). -/
def State.chanEv (s : State) (typ kind o c code detail : Nat) : State :=
  let ps := s.ownerParts o
  let ev := mkEv typ 3 (if o < 16 then some o else none) false code detail
  s.hbmErr kind (c * 2 ^ 31) { ev with parts := ps.map (fun p => (p, detail)) }

/-- CHANNEL_MAP_OUT: homes are assigned and the map-out of channel `c` begins (R279); one that would leave its owner no channel is refused
(R281). -/
def State.mapOut (s : State) (c : Nat) : State :=
  if s.hbm.mapJob.isSome ∨ s.mapNext ≠ some c then s else
  let x := s.chan c
  match s.owner x.owner with
  | none => s.setChan c { x with state := 1 }
  | some w =>
    if w.live.length ≤ 1 then
      ({ s with hbm := { s.hbm with late := s.hbm.late.filter (fun e => e.1 / 2 ^ 30 != x.owner) } }.setChan c { x with state := 2 }).chanEv 0x15 5 x.owner c x.slot (Config.evDetail 0x15).toNat
    else { s with hbm := { s.hbm with mapJob := some c } }

/-- What a map-out carries over: the addresses and bytes of the lines of owner `w` that survive at another place. They are the dirty LLC lines of
the failed channel, and the written lines of relocated granules whose channel is not the failed one (R279 steps 1 and 3). -/
def State.survivors (s : State) (w : Owner) (c lim : Nat) : List (Nat × List Byte) :=
  let dirty := (s.hbm.llc.flatMap (fun e => e.2)).filterMap (fun l => if l.dirty && l.line / 2 ^ 22 == c then some l.line else none)
  let old := s.hbm.homes.filter (fun l => l / 2 ^ 22 != c && !s.poison.contains l)
  (dirty ++ old).filterMap (fun l => match w.ofDpa (l * 512) with
    | some a => if a < lim ∧ (dirty.contains l ∨ w.lost.contains (a / 2048 % w.chs.length)) then
        some (a, (List.range 512).map (fun i => s.memByte (l * 512 + i))) else none
    | none => none)

/-- The key tag of page `q` of channel `c` becomes `i` (R285). -/
def State.setTag (s : State) (c q i : Nat) : State :=
  { s with hbm := { s.hbm with tags := if i = (s.chan c).tag then mdel s.hbm.tags (c * 1024 + q) else mins s.hbm.tags (c * 1024 + q) i } }

/-- The layout of owner `o` after its slot `k`, channel `c`, is mapped out; the cache drops the lines that move (R279). -/
def State.remap (s : State) (o c : Nat) (w w' : Owner) : State :=
  let lim := w'.size
  let owned := fun (l : Nat) => w.chs.contains (l / 2 ^ 22)
  { s with hbm := { s.hbm with
    own := mins s.hbm.own o w', homes := s.hbm.homes.filter (fun l => !owned l),
    llc := s.hbm.llc.filterMap (fun e =>
      let l := e.2.filter (fun x => !(owned x.line && (x.line / 2 ^ 22 == c || match w.ofDpa (x.line * 512) with
        | some a => decide (lim ≤ a) || w.lost.contains (a / 2048 % w.chs.length)
        | none => true)))
      if l.isEmpty then none else some (e.1, l)) } }

/-- Line `a` of owner `o`, at DPA `d`, is written whole. -/
def State.putLine (s : State) (o a d : Nat) (bs : List Byte) : State :=
  let t := s.lineGood o a d
  { t with mem := putBytes t.mem (fun i => d + i) 0 bs }

/-- A surviving line goes to its new home. -/
def State.putHome (o : Nat) (w : Owner) (s : State) (x : Nat × List Byte) : State :=
  (w.toDpa x.1).elim s (fun d => s.putLine o x.1 d x.2)

/-- The first of a channel's pages that lie wholly in the homes of an owner. -/
def Owner.homePage (w : Owner) : Nat := ceilDiv (ceilDiv (w.size / 2048) w.chs.length * 2048) (2 ^ 21)

/-- The layout of owner `o` after slot `k` is mapped out, with the surviving lines, and those whose writes waited, at their new homes, which take
the current key index (R279, R287). -/
def State.relayout (s : State) (o c : Nat) (w : Owner) (k : Nat) : State :=
  let w' := { w with lost := sins w.lost k }
  let late := (s.hbm.late.filter (fun e => e.1 / 2 ^ 30 == o)).map (fun e => (e.1 % 2 ^ 30 * 512, e.2))
  let s := ((s.survivors w c w'.size).filter (fun x => late.all (fun y => y.1 != x.1)) ++ late).foldl (State.putHome o w') (s.remap o c w w')
  let s := { s with hbm := { s.hbm with late := s.hbm.late.filter (fun e => e.1 / 2 ^ 30 != o) } }
  w'.live.foldl (fun s ch => (List.range (1024 - w'.homePage)).foldl (fun s q => s.setTag ch (w'.homePage + q) w.cur) s) s

/-- The palimpsest structures of partition `p` when owner `o` has lost a channel (R262): its mirror slots that lie there wait for their sources' reseeds
(APPLIED goes back, log entry 167), and a lost digest table is sealed again, with the reseed after the seal. -/
def State.palLost (s : State) (p o : Nat) : State :=
  let there := fun (a : Nat) => decide (o < 16) || (match s.loc p a with | .mem x _ _ => x == o | _ => false)
  let s := (List.range 4).foldl (fun s n =>
    if s.fget (PAL_MS_CONN_CONN p n) = 0xFFFFFFFF ∨ s.fget (PAL_MS_STATUS_STATE p n) = 0 ∨
       !(there (s.fget (PAL_MS_BASE_BASE p n) * 512) || there (s.fget (PAL_MS_LOG_BASE p n) * 64) || there (s.fget (PAL_MS_DESC_BASE p n) * 64)) then s
    else (s.setMslot p n { MSlot.init with lost := true }).fsets
      [(PAL_MS_STATUS_STATE p n, 1), (PAL_MS_APPLIED_SEQ p n, (s.fget (PAL_MS_APPLIED_SEQ p n) + 2 ^ 32 - 1) % 2 ^ 32)]) s
  let cnt := ((s.tensorTable p (s.epochNow p)).map (·.2)).getD 0
  if !s.fbit (PAL_CTRL_ENABLE p) then s else
  let lost := (s.memGet p (s.digestAddr p 0) (64 * cnt)).isNone
  let s := s.memSee p palSrc (s.digestAddr p 0) (64 * cnt)
  if lost then (s.setPp p { s.pp p with thenReseed := true }).sealStart p else s

/-- MAP_OUT_SWITCH: homes and LLC are done; the layout switches at once (R279 steps 4 and 5), and the owner's tasks and structures follow (R262). -/
def State.mapSwitch (s : State) : State :=
  match s.hbm.mapJob with
  | none => s
  | some c =>
    let x := s.chan c
    let s := { s with hbm := { s.hbm with mapJob := none } }
    match s.owner x.owner with
    | none => s.setChan c { x with state := 1 }
    | some w =>
      let s := (s.relayout x.owner c w x.slot).setChan c { x with state := 1 }
      let s := s.ledFact { s.led with mapped := sins s.led.mapped c }
      let size := w.size - 2 ^ 31
      let s := s.chanEv 0x14 4 x.owner c (x.slot + 2 ^ 8 * w.chs.length) size
      let s := if 16 ≤ x.owner then s else
        ((s.sp x.owner).tasks.filter (fun e => e.2.st == .spilled)).foldl (fun s e => s.taskEnd x.owner e.1 1 0xFF 0xFF 0 e.2) s
      (s.ownerParts x.owner).foldl (fun s p => (s.forceSkip p).palLost p x.owner) s

/-- REKEY_PAGE: the last line of page `q` of channel `c` has been written under the owner's current index; `errs` are the lines of the page that a
read found uncorrectable (R286). An index with no page left is retired: HBM_KEYSTATE counts the pages (R287). -/
def State.rekeyPage (s : State) (c q : Nat) (errs : List Nat) : State :=
  let x := s.chan c
  match s.owner x.owner with
  | none => s
  | some w =>
    if x.state ≠ 0 ∨ s.tagOf c q = w.cur then s else
    let s := errs.foldl (fun s l => s.lineErr 0 (c * 2 ^ 22 + q * 4096 + l % 4096, 1)) s
    s.setTag c q w.cur

/-- A channel of a stack that the variant has (R2, R3). -/
def State.chanOk (s : State) (c : Nat) : Bool := decide (c < 256) && s.stackThere (c / 32)

def execPatrolScrub (c : Nat) (err : Option Nat) (s : State) : Host.Outcome State Fault Refusal := onUnit (s.chanOk c) (s.patrol c err)
def execUeLimitReached (c : Nat) (s : State) : Host.Outcome State Fault Refusal := onUnit (s.chanOk c) (s.ueLimit c)
def execChannelTrainingLoss (c : Nat) (s : State) : Host.Outcome State Fault Refusal := onUnit (s.chanOk c) (s.trainLoss c)
def execRetrainResult (c : Nat) (ok : Bool) (s : State) : Host.Outcome State Fault Refusal := onUnit (s.chanOk c) (s.retrainEnd c ok)
def execChannelMapOut (c : Nat) (s : State) : Host.Outcome State Fault Refusal := onUnit (s.chanOk c) (s.mapOut c)
def execMapOutSwitch (s : State) : Host.Outcome State Fault Refusal := .next s.mapSwitch
def execRekeyPage (c q : Nat) (errs : List Nat) (s : State) : Host.Outcome State Fault Refusal :=
  onUnit (s.chanOk c && decide (q < 1024)) (s.rekeyPage c q errs)

end Sys2Proof.Machine
end

