-- ==== Sys2Proof/Machine/Aes.lean ====
section
/-!
DEFINITION. AES-256 with its GCM and XTS modes (R283, R314, which take them from their standards), over little-endian byte lists. A block is one
number with its first byte lowest.
-/
namespace Sys2Proof.Machine

/-- The substitution of one byte: eight bits for each value. -/
def aesSub (x : Nat) : Nat :=
  bitsAt 0x16BB54B00F2D99416842E6BF0D89A18CDF2855CEE9871E9B948ED9691198F8E19E1DC186B95735610EF6034866B53E708A8BBD4B1F74DDE8C6B4A61C2E2578BA08AE7A65EAF4566CA94ED58D6D37C8E779E4959162ACD3C25C2406490A3A32E0DB0B5EDE14B8EE4688902A22DC4F816073195D643D7EA7C41744975FEC130CCDD2F3FF1021DAB6BCF5389D928F40A351A89F3C507F02F94585334D43FBAAEFD0CF584C4A39BECB6A5BB1FC20ED00D153842FE329B3D63B52A05A6E1B1A2C830975B227EBE28012079A059618C323C7041531D871F1E5A534CCF73F362693FDB7C072A49CAFA2D4ADF04759FA7DC982CA76ABD7FE2B670130C56F6BF27B777C63 (8 * x) 8

/-- The substitution of each of `n` bytes. -/
def aesSubs (n w : Nat) : Nat := (List.range n).foldl (fun v i => v + aesSub (bitsAt w (8 * i) 8) * 2 ^ (8 * i)) 0

/-- The round keys of a 32-byte key: 60 words of 32 bits, the latest first. Word `i` is the word eight before it and the word before it, which
every eighth time is turned, substituted and given a power of two, and four later is substituted. -/
def aesWords (key : List Byte) : List Nat :=
  let first := ((List.range 8).map (fun i => leAt key (4 * i) 4)).reverse
  (List.range 52).foldl (fun ws i =>
    let p := ws.headD 0
    let q := if i % 8 = 0 then aesSubs 4 (p / 2 ^ 8 + p % 2 ^ 8 * 2 ^ 24) ^^^ 2 ^ (i / 8) else if i % 8 = 4 then aesSubs 4 p else p
    (ws.getD 7 0 ^^^ q) :: ws) first

/-- The 15 round keys, the first first. -/
def aesKeys (key : List Byte) : List Nat :=
  let ws := (aesWords key).reverse
  (List.range 15).map (fun r => (List.range 4).foldl (fun v j => v + ws.getD (4 * r + j) 0 * 2 ^ (32 * j)) 0)

/-- Substitution, and the rows turned: byte r of column c comes from column c + r. -/
def aesShift (a : Nat) : Nat :=
  (List.range 16).foldl (fun v i => v + aesSub (bitsAt a (8 * (i % 4 + 4 * ((i / 4 + i % 4) % 4))) 8) * 2 ^ (8 * i)) 0

/-- Every byte doubled in the field of 2^8 elements. -/
def aesDouble (a : Nat) : Nat :=
  let top := a &&& (2 ^ 7 * ((2 ^ 128 - 1) / 255))
  (a - top) * 2 ^^^ top / 2 ^ 7 * 0x1B

/-- Every column turned by `k` bytes. -/
def aesTurn (a k : Nat) : Nat :=
  let low := a &&& ((2 ^ (8 * k) - 1) * ((2 ^ 128 - 1) / (2 ^ 32 - 1)))
  (a - low) / 2 ^ (8 * k) + low * 2 ^ (8 * (4 - k))

/-- The columns mixed. -/
def aesMix (a : Nat) : Nat := aesDouble (a ^^^ aesTurn a 1) ^^^ aesTurn a 1 ^^^ aesTurn a 2 ^^^ aesTurn a 3

/-- Encryption of one block under the round keys of a key. -/
def aesBlock (ks : List Nat) (b : Nat) : Nat :=
  let x := ((ks.drop 1).take 13).foldl (fun x k => aesMix (aesShift x) ^^^ k) (b ^^^ ks.headD 0)
  aesShift x ^^^ ks.getD 14 0

-- GCM ---------------------------------------------------------------------------------------------------------------------------------------

/-- A block as the number with its first byte highest. -/
def bigEnd (n : Nat) (bs : List Byte) : Nat := leNat ((bytesAt bs 0 n).reverse)

/-- The bytes of such a number. -/
def bigBytes (n v : Nat) : List Byte := (leBytes n v).reverse

/-- The product in the field of 2^128 elements, the highest bit being the power 0. -/
def gcmMul (x y : Nat) : Nat :=
  ((List.range 128).foldl (fun (a : Nat × Nat) i =>
    (if x.testBit (127 - i) then a.1 ^^^ a.2 else a.1, a.2 / 2 ^^^ a.2 % 2 * (0xE1 * 2 ^ 120))) (0, y)).1

/-- The hash of the additional data and the ciphertext under `h`. -/
def gcmHash (h : Nat) (aad ct : List Byte) : Nat :=
  let part := fun (acc : Nat) (bs : List Byte) =>
    (List.range (ceilDiv bs.length 16)).foldl (fun a i => gcmMul (a ^^^ bigEnd 16 ((bs.drop (16 * i)).take 16)) h) acc
  gcmMul (part (part 0 aad) ct ^^^ (8 * aad.length * 2 ^ 64 + 8 * ct.length)) h

/-- The key stream's block `n` for a 12-byte IV. -/
def gcmStream (ks : List Nat) (iv : List Byte) (n : Nat) : List Byte := leBytes 16 (aesBlock ks (leNat (bytesAt iv 0 12 ++ bigBytes 4 n)))

/-- `bs` under the key stream: encryption and decryption alike. -/
def gcmCrypt (ks : List Nat) (iv bs : List Byte) : List Byte :=
  (List.range (ceilDiv bs.length 16)).flatMap (fun i =>
    ((bs.drop (16 * i)).take 16).zipWith (· ^^^ ·) (gcmStream ks iv (i + 2)))

/-- The 16-byte tag of a ciphertext. -/
def gcmTag (ks : List Nat) (iv aad ct : List Byte) : List Byte :=
  bigBytes 16 (gcmHash (bigEnd 16 (leBytes 16 (aesBlock ks 0))) aad ct ^^^ bigEnd 16 (gcmStream ks iv 1))

/-- AES-256-GCM: the ciphertext and its tag. -/
def gcmSeal (key iv aad body : List Byte) : List Byte :=
  let ks := aesKeys key
  let ct := gcmCrypt ks iv body
  ct ++ gcmTag ks iv aad ct

/-- The body of a ciphertext with its tag; none where the tag fails. -/
def gcmOpen (key iv aad ct : List Byte) : Option (List Byte) :=
  let ks := aesKeys key
  let n := ct.length - 16
  if 16 ≤ ct.length ∧ gcmTag ks iv aad (ct.take n) = ct.drop n then some (gcmCrypt ks iv (ct.take n)) else none

-- XTS ---------------------------------------------------------------------------------------------------------------------------------------

/-- AES-256-XTS of one data unit: `key` is the data key and then the tweak key, `unit` the number that the tweak is formed of. -/
def xtsSeal (key : List Byte) (unit : Nat) (bs : List Byte) : List Byte :=
  let ks := aesKeys (bytesAt key 0 32)
  ((List.range (bs.length / 16)).foldl (fun (a : List (List Byte) × Nat) i =>
    (leBytes 16 (aesBlock ks (leAt bs (16 * i) 16 ^^^ a.2) ^^^ a.2) :: a.1, a.2 * 2 % 2 ^ 128 ^^^ a.2 / 2 ^ 127 * 0x87))
    ([], aesBlock (aesKeys (bytesAt key 32 32)) unit)).1.reverse.flatMap id

end Sys2Proof.Machine
end

