-- ==== Sys2Proof/Machine/Routes.lean ====
section
/-!
DEFINITION. Routes over the dies' meshes (R40, R41, R468): grid positions, the numbered links of a dimension-ordered route, and the check of the
traffic between an Ethernet port and the stacks (R56, KIND 0x3). Routes from tiles are those that code 0x0F has checked.
-/
namespace Sys2Proof.Machine

/-- A place on a die's grid: die, row, column. -/
abbrev Spot := Nat × Nat × Nat

def tileSpot (t : Nat) : Spot := (dieOf t, t % 76 / 19, t % 19)
def stackSpot (k : Nat) : Spot := (k / 4, 0, 2 + 5 * (k % 4))
def portSpot (j : Nat) : Spot := (j / 8, 3, 2 + 2 * (j % 8))

/-- The steps from `a` to `b`, each as the lower of the two places that it joins. -/
def steps (a b : Nat) : List Nat := if a ≤ b then (List.range (b - a)).map (a + ·) else (List.range (a - b)).map (fun i => a - 1 - i)

/-- Links of one die from (r, c) along the row to column c2, then along that column to row r2, in the order of travel. -/
def dieLinks (r c r2 c2 : Nat) : List Nat := (steps c c2).map (18 * r + ·) ++ (steps r r2).map (fun i => 72 + 19 * i + c2)

/-- The numbered links of a route, each with its die, in the order of travel; whether it crosses dies. -/
def routeLinks (a b : Spot) : List (Nat × Nat) × Bool :=
  let (d, r, c) := a
  let (d2, r2, c2) := b
  if d = d2 then ((dieLinks r c r2 c2).map (fun l => (d, l)), false)
  else ((dieLinks r c r 0).map (fun l => (d, l)) ++ (dieLinks r 0 r2 c2).map (fun l => (d2, l)), true)

/-- Is a numbered link permitted to a section? -/
def Sect.permits (x : Sect) (e : Nat × Nat) : Bool := (if e.1 = 0 then x.routesA else x.routesB).testBit e.2

/-- Is the route between two places permitted to a section? -/
def routeOk (x : Sect) (a b : Spot) : Bool :=
  let (l, cross) := routeLinks a b
  l.all x.permits && (!cross || x.d2d.testBit 0)

/-- What stops a packet of partition `p` between two places: the first link of its route that is not permitted, as FAB_VIOLATION_ADDR names it; for
the die-to-die interface, which has no number, a value the spec leaves open (log entry 155). -/
def State.routeStop (s : State) (p : Nat) (a b : Spot) : Option Nat :=
  match s.sect p with
  | none => none
  | some x =>
    let (l, cross) := routeLinks a b
    ((l.find? (fun e => !x.permits e)).map (fun e => e.2 + 256 * e.1)) <|>
      (if cross && !x.d2d.testBit 0 then some Config.d2dLink.toNat else none)

/-- What stops an access of port `j` for partition `p` to `n` bytes at PMS address `a`. -/
def State.portStop (s : State) (p j a n : Nat) : Option Nat :=
  (linePieces a n).findSome? (fun pc => match s.loc p pc.1 with
    | .mem _ _ d => s.routeStop p (portSpot j) (stackSpot (d / 2 ^ 36))
    | _ => none)

/-- A read by port `j` for partition `p`: over a route that is not permitted it returns poison and is a violation of KIND 0x3 (R56). -/
def State.portRead (s : State) (p src j a n : Nat) (req : MReq) : State × MRes :=
  match s.portStop p j a n with
  | some l => (s.violate p 3 src l, { MRes.empty with bytes := List.replicate n 0, bad := [a] })
  | none => s.memRead p a n req

/-- A write by port `j` for partition `p`: over a route that is not permitted it is discarded (R56). Answers whether it was carried. -/
def State.portWrite (s : State) (p src j a : Nat) (bs : List Byte) (req : MReq) : State × MRes × Bool :=
  match s.portStop p j a bs.length with
  | some l => (s.violate p 3 src l, MRes.empty, false)
  | none => let (s, r) := s.memWrite p a bs req; (s, r, true)

end Sys2Proof.Machine
end

