-- ==== Sys2Proof/Machine/Ethernet.lean ====
section
/-!
DEFINITION. Ethernet ports (R289 to R310): received frames, receive buffers and flow control, preemption, energy-efficient Ethernet, LLDP,
cables, filters and the raw transmit rings.
-/
namespace Sys2Proof.Machine

/-- `n` bytes from offset `o` in network byte order. -/
def beAt (bs : List Byte) (o n : Nat) : Nat := leNat (bytesAt bs o n).reverse
/-- `n` bytes of `v` in network byte order. -/
def beBytes (n v : Nat) : List Byte := (leBytes n v).reverse

-- Ports and sub-ports ------------------------------------------------------------------------------------------------------------------------

/-- Sub-port number. -/
def subNo (j k : Nat) : Nat := 4 * j + k

/-- Is sub-port `k` one of port `j`'s mode, on a present port whose clock runs? -/
def State.subThere (s : State) (j k : Nat) : Bool := s.portThere j && s.gateOn (24 + j) && decide (k < s.ethSubs j)

/-- Is the link of sub-port `k` up? -/
def State.linkUp (s : State) (j k : Nat) : Bool := s.fbit (ETH_LINK_UP j k)

/-- Has the management path disabled port `j` (R442)? -/
def State.portOff (s : State) (j : Nat) : Bool := (s.fget EVT_ADMIN_UNIT_PORT_DISABLE).testBit j

/-- A sticky bit: its change from 0 to 1 raises a port event (R307). -/
def State.sticky (s : State) (f : Fld) : State :=
  if s.fbit f then s else (s.fset f 1).devEv 0x16 2 (Config.evCode 0x16).toNat (Config.evDetail 0x16).toNat

/-- Bit `k` of a four-bit field of ETH_STATUS. -/
def State.statBit (s : State) (f : Fld) (k : Nat) (v : Bool) : State :=
  s.fset f (if v then setBit (s.fget f) k else clearBit (s.fget f) k)

-- Frames of the MAC itself, and the raw frame in progress (R301, R302) --------------------------------------------------------------------------

/-- The raw frame that a sub-port is sending. -/
def State.txNow (s : State) (j k : Nat) : Option TxNow := mfind s.eth.now (subNo j k)

/-- The priority of a frame: its PCP, or that of untagged frames. -/
def State.prioOf (s : State) (j : Nat) (b : List Byte) : Nat :=
  if beAt b 12 2 = 0x8100 then beAt b 14 2 / 8192 else s.fget (ETH_CTRL_UNTAGGED_PRIO j)

/-- Is priority `q` express on port `j` (R301)? -/
def State.isExpress (s : State) (j q : Nat) : Bool := (s.fget (ETH_PREEMPT_EXPRESS j)).testBit q

/-- The smallest fragment, its 4 check bytes included (R299, R301): the larger of the two addFragSize counts units of 64 bytes above 64. -/
def State.fragMin (s : State) (j k : Nat) : Nat := 64 * (1 + max (s.fget (ETH_PREEMPT_ADD_FRAG_SIZE j)) (mget 0 s.eth.frag (subNo j k)))

/-- Can the frame in progress still be cut: is preemption active and the frame preemptable, and can what is sent and what remains each hold a smallest fragment? -/
def State.cuttable (s : State) (j k : Nat) (f : TxNow) : Bool :=
  (s.fget (ETH_STATUS_PREEMPT_ACTIVE j)).testBit k && !s.isExpress j (s.prioOf j f.bytes) && decide (f.sent + 2 * (s.fragMin j k - 4) ≤ f.bytes.length)

/-- Room for an express frame (R301): nothing is being sent, or the frame in progress is cut. Where the cut falls between its two limits depends on
the moment, which is a free value (log entry 168). -/
def State.txCut (s : State) (j k : Nat) : Option State :=
  match s.txNow j k with
  | none => some s
  | some f =>
    if !s.cuttable j k f then none else
    let m := s.fragMin j k - 4
    let (v, s) := s.free 16
    let cut := f.sent + m + v % (f.bytes.length - f.sent - 2 * m + 1)
    let s := { s with eth := { s.eth with now := mins s.eth.now (subNo j k) { f with sent := cut, frags := f.frags + 1 } } }
    some (s.emit (.fragment j k f.frags false ((f.bytes.take cut).drop f.sent)))

/-- Is it a frame of the verification of preemption? A disabled port sends none (R442). -/
def Out.isVerify : Out → Bool
  | .verify .. => true
  | _ => false

/-- The MAC sends a frame of its own: after the wake from LPI (R302), and after the frame in progress unless it is express and that one is cut. -/
def State.macSend (s : State) (j k : Nat) (express : Bool) (o : Out) : State :=
  let late := { s with eth := { s.eth with wait := mupd [] s.eth.wait (subNo j k) (· ++ [o]) } }
  if s.portOff j && o.isVerify then s
  else if (s.fget (ETH_STATUS_LPI_TX j)).testBit k then late
  else if (s.txNow j k).isNone then s.emit o
  else if express then ((s.txCut j k).map (fun t => t.emit o)).getD late
  else late

/-- Is it a flow-control frame? -/
def Out.isPause : Out → Bool
  | .pause .. => true
  | _ => false

/-- The frames of the MAC that waited go out, flow control first. -/
def State.macFlush (s : State) (j k : Nat) : State :=
  let l := (mget [] s.eth.wait (subNo j k)).filter (fun o => !(s.portOff j && o.isVerify))
  (l.filter Out.isPause ++ l.filter (fun o => !o.isPause)).foldl State.emit { s with eth := { s.eth with wait := mdel s.eth.wait (subNo j k) } }

-- Receive buffer and flow control (R295 to R298, R310) -----------------------------------------------------------------------------------------

/-- Cells of each sub-port's share. -/
def State.share (s : State) (j : Nat) : Nat := 16384 / (max 1 (s.ethSubs j))

/-- XOFF and XON in effect (R310). -/
def State.xoffAt (s : State) (j k q : Nat) : Nat := clamp 1 (s.share j) (s.fget (ETH_WM_XOFF j k q))
def State.xonAt (s : State) (j k q : Nat) : Nat := min (s.fget (ETH_WM_XON j k q)) (s.xoffAt j k q - 1)

/-- Cells in use on a sub-port, and those counted against one priority. -/
def State.cells (s : State) (j k : Nat) : Nat := ((s.eth.buf.filter (fun f => f.port == j && f.sub == k)).map (·.cells)).sum
def State.cellsOf (s : State) (j k q : Nat) : Nat :=
  ((s.eth.buf.filter (fun f => f.port == j && f.sub == k && f.prio == q)).map (·.cells)).sum

/-- Does PFC apply to priority `q` of port `j`? -/
def State.pfcOn (s : State) (j q : Nat) : Bool := s.fget (ETH_FLOW_MODE j) == 2 && (s.fget (ETH_FLOW_PFC_EN j)).testBit q

/-- The priorities whose watermarks are in use, with their counts (R296). -/
def State.flowCounts (s : State) (j k : Nat) : List (Nat × Nat) :=
  match s.fget (ETH_FLOW_MODE j) with
  | 1 => [(0, s.cells j k)]
  | 2 => ((List.range 8).filter (s.pfcOn j)).map (fun q => (q, s.cellsOf j k q))
  | _ => []

/-- Counts compared with their watermarks: the priorities that change share one pause or PFC frame (R296). -/
def State.flowCheck (s : State) (j k : Nat) : State :=
  if !s.linkUp j k then s else
  let key := fun q => 8 * subNo j k + q
  let ch := (s.flowCounts j k).filterMap (fun (e : Nat × Nat) =>
    if s.eth.xoff.contains (key e.1) then (if e.2 ≤ s.xonAt j k e.1 then some (e.1, 0) else none)
    else if s.xoffAt j k e.1 ≤ e.2 then some (e.1, s.fget (ETH_FLOW_QUANTA j)) else none)
  if ch.isEmpty then s else
  let off := ch.foldl (fun m (e : Nat × Nat) => if s.eth.xoff.contains (key e.1) then sdel m (key e.1) else sins m (key e.1)) s.eth.xoff
  ({ s with eth := { s.eth with xoff := off } }).macSend j k true (.pause j k (s.fget (ETH_FLOW_MODE j) == 2) ch)

/-- The pause sent again while the count stays above XON (R296). -/
def State.pauseRefresh (s : State) (j k q : Nat) : State :=
  match (s.flowCounts j k).find? (fun e => e.1 == q) with
  | none => s
  | some e =>
    if s.linkUp j k && s.eth.xoff.contains (8 * subNo j k + q) && decide (s.xonAt j k q < e.2) then
      s.macSend j k true (.pause j k (s.fget (ETH_FLOW_MODE j) == 2) [(q, s.fget (ETH_FLOW_QUANTA j))])
    else s

/-- May the buffer take a frame of `n` cells and priority `q` (R295)? -/
def State.admits (s : State) (j k q n : Nat) : Bool :=
  let sh := s.share j
  let used := s.cells j k + n
  let keep := (((List.range 8).filter (s.pfcOn j)).map (fun x => sh - s.xoffAt j k x)).sum
  decide (used ≤ sh) && (s.pfcOn j q || decide (keep ≤ sh - used))

/-- The Zheris engine takes the oldest frame of a sub-port from the buffer. -/
def State.takeFrame (s : State) (j k : Nat) : State :=
  match s.eth.buf.find? (fun f => f.port == j && f.sub == k) with
  | none => s
  | some f => ({ s with eth := { s.eth with buf := s.eth.buf.erase f } }).flowCheck j k

/-- A received pause or PFC frame (R297): the scheme of ETH_FLOW.MODE is obeyed. Time 0 ends a pause. -/
def State.pauseReceived (s : State) (j k : Nat) (pfc : Bool) (times : List (Nat × Nat)) : State :=
  if !s.linkUp j k || s.fget (ETH_FLOW_MODE j) != (if pfc then 2 else 1) then s else
  let l := if pfc then times else (List.range 8).map (fun q => (q, ((times.head?).map (·.2)).getD 0))
  let m := l.foldl (fun m (e : Nat × Nat) =>
    if 8 ≤ e.1 then m else if e.2 = 0 then sdel m (8 * subNo j k + e.1) else sins m (8 * subNo j k + e.1)) s.eth.paused
  { s with eth := { s.eth with paused := m } }

/-- A received pause time runs out. -/
def State.pauseOver (s : State) (j k q : Nat) : State := { s with eth := { s.eth with paused := sdel s.eth.paused (8 * subNo j k + q) } }

/-- May a frame of priority `q` start on sub-port `k` now: its link is up, its port enabled, the priority not paused, its path not in LPI, the device
not furled (R297, R302, R442), and no frame in progress, or one that an express frame may cut (R301)? -/
def State.canSend (s : State) (j k q : Nat) : Bool :=
  s.subThere j k && s.linkUp j k && !s.portOff j && !s.eth.paused.contains (8 * subNo j k + q) &&
    !(s.fget (ETH_STATUS_LPI_TX j)).testBit k && s.fget PWR_FURL_STATE == 0 &&
    (s.txNow j k).all (fun f => s.isExpress j q && s.cuttable j k f)

-- Preemption (R299 to R301) ---------------------------------------------------------------------------------------------------------------------

/-- Preemption of a sub-port formed again from R300's conditions: verification starts, ends or stands. -/
def State.preemptCheck (s : State) (j k : Nat) : State :=
  let want := s.linkUp j k && s.fbit (ETH_PREEMPT_ENABLE j) && s.fbit (ETH_LINK_PARTNER_PREEMPT j k)
  let skip := s.fbit (ETH_PREEMPT_VERIFY_DISABLE j)
  let s :=
    if !want || skip then s.fset (ETH_LINK_VERIFY j k) 0
    else if s.fget (ETH_LINK_VERIFY j k) = 0 then
      (({ s with eth := { s.eth with tries := mset 0 s.eth.tries (subNo j k) 1 } }).fset (ETH_LINK_VERIFY j k) 1).macSend j k false (.verify j k false)
    else s
  s.statBit (ETH_STATUS_PREEMPT_ACTIVE j) k (want && (skip || s.fget (ETH_LINK_VERIFY j k) == 2))

/-- A verify or respond frame arrives. -/
def State.verifyReceived (s : State) (j k : Nat) (respond : Bool) : State :=
  if !s.linkUp j k then s
  else if respond then
    (if s.fget (ETH_LINK_VERIFY j k) = 1 then (s.fset (ETH_LINK_VERIFY j k) 2).preemptCheck j k else s)
  else s.macSend j k false (.verify j k true)

/-- The 10 ms verify time expires: at most 3 attempts. -/
def State.verifyTimeout (s : State) (j k : Nat) : State :=
  if s.fget (ETH_LINK_VERIFY j k) ≠ 1 then s
  else
    let n := mget 0 s.eth.tries (subNo j k)
    if n < 3 then ({ s with eth := { s.eth with tries := mset 0 s.eth.tries (subNo j k) (n + 1) } }).macSend j k false (.verify j k false)
    else s.fset (ETH_LINK_VERIFY j k) 3

-- Energy-efficient Ethernet (R302) ----------------------------------------------------------------------------------------------------------------

/-- Is LPI offered on port `j`: ENABLE and a passive medium? -/
def State.eeeOffered (s : State) (j : Nat) : Bool := s.fbit (ETH_EEE_ENABLE j) && s.fget (ETH_CABLE_MEDIUM j) == 1

/-- TW_US formed again: the larger of 4 µs and the partner's receive wake time while LPI is offered and the partner's TLV is current. -/
def State.eeeCheck (s : State) (j k : Nat) : State :=
  s.fset (ETH_LINK_TW_US j k) (if s.eeeOffered j && s.fbit (ETH_LINK_PARTNER_EEE j k) then
    min 255 (max 4 (mget 0 s.eth.wake (subNo j k))) else 0)

/-- Are raw frames queued on the transmit ring of a sub-port? -/
def State.txQueued (s : State) (j k : Nat) : Bool :=
  s.fbit (ETH_TX_CFG_ENABLE j k) && s.fget (ETH_TX_PTR_HEAD j k) != s.fget (ETH_TX_PTR_TAIL j k)

/-- The transmit path enters LPI after IDLE_US in which no frame waited: none in progress, of the MAC, or on the raw ring (those of the Zheris engine
are its part). -/
def State.lpiEntry (s : State) (j k : Nat) : State :=
  if s.linkUp j k && s.fget (ETH_LINK_TW_US j k) != 0 && !s.txQueued j k && (s.txNow j k).isNone && (mget [] s.eth.wait (subNo j k)).isEmpty then
    s.statBit (ETH_STATUS_LPI_TX j) k true
  else s

/-- The transmit wake time has passed: the frames of the MAC that waited go out. -/
def State.lpiExit (s : State) (j k : Nat) : State :=
  if s.fget PWR_FURL_STATE = 0 then (s.statBit (ETH_STATUS_LPI_TX j) k false).macFlush j k else s

-- LLDP (R306) -----------------------------------------------------------------------------------------------------------------------------------

/-- The agent keeps the partner's LLDPDU and decodes its fields; a TTL of 0 ends its information at once. `eee` is the receive wake time of
its EEE TLV, `pre` the addFragSize of an Additional Ethernet Capabilities TLV that reports preemption supported and enabled. -/
def State.lldpReceived (s : State) (j k : Nat) (pdu : List Byte) (eee : Option Nat) (pre : Option Nat) (ttl : Nat) : State :=
  if !s.linkUp j k then s else
  let n := subNo j k
  let live := ttl != 0
  let s := { s with eth := { s.eth with lldp := if live then mset [] s.eth.lldp n pdu else mdel s.eth.lldp n
                                        wake := if live then mset 0 s.eth.wake n (eee.getD 0) else mdel s.eth.wake n
                                        frag := if live then mset 0 s.eth.frag n (pre.getD 0 % 4) else mdel s.eth.frag n } }
  let s := s.fsets [(ETH_LINK_PARTNER_EEE j k, b2n (live && eee.isSome)), (ETH_LINK_PARTNER_PREEMPT j k, b2n (live && pre.isSome))]
  (s.eeeCheck j k).preemptCheck j k

/-- The partner's information expires: preemption and LPI entry end (R300, R302). -/
def State.lldpExpiry (s : State) (j k : Nat) : State :=
  let n := subNo j k
  let s := { s with eth := { s.eth with lldp := mdel s.eth.lldp n, wake := mdel s.eth.wake n, frag := mdel s.eth.frag n } }
  let s := s.fsets [(ETH_LINK_PARTNER_EEE j k, 0), (ETH_LINK_PARTNER_PREEMPT j k, 0)]
  (s.eeeCheck j k).preemptCheck j k

/-- The agent sends an LLDPDU on a sub-port whose link is up. -/
def State.lldpSend (s : State) (j k : Nat) : State :=
  if s.linkUp j k && s.fget PWR_FURL_STATE == 0 then
    s.macSend j k false (.lldp j k (s.fget (ETH_MAC_ADDR 0 0)) (s.fget (ETH_MAC_ADDR j k)) 120 (if s.eeeOffered j then some 6 else none)
      (s.fbit (ETH_PREEMPT_ENABLE j)))
  else s

-- Links and cables (R298, R303 to R305) -------------------------------------------------------------------------------------------------------------

/-- The limit of a module's power (R304, R459): 25.0 W and the port's trim, in 0.25 W. -/
def State.modLimit (s : State) (j : Nat) : Int := ((100 : Nat) : Int) + s.trimByte (0x26 + j)

/-- ETH_CABLE as the module in the port declares it; above the limit it is held in low power (R304). -/
def State.cableOf (s : State) (j : Nat) : State :=
  match mfind s.gen.modules j with
  | none => s
  | some m => s.fsets [(ETH_CABLE_MEDIUM j, m.1), (ETH_CABLE_REACH_DM j, m.2.1), (ETH_CABLE_MAX_POWER j, m.2.2),
                       (ETH_CABLE_MODULE_HELD j, b2n (decide (s.modLimit j < ((m.2.2 : Nat) : Int))))]

/-- The taps that lane `l` is trained with: the fused ones plus the trims (R457, R459). -/
def State.laneTaps (s : State) (l : Nat) : List Int :=
  (List.range 3).map (fun x => (mget [] s.fuse.taps l).getD x 0 + s.trimByte (0x4E + 3 * l + x))

/-- Link training of a sub-port. `an`: auto-negotiation completed in the port's mode; `cable`: MEDIUM and REACH_DM from link training on copper (R304); a
medium that needs a module is none where MOD_PRSNT_N is high (R462). Without it what a module declares is taken. Eye heights are measured (R444). A
partner that does not offer the port's mode leaves a copper link down (R305). A held module's link is not brought up, and nothing trains while the
device is furled. -/
def State.linkRise (s : State) (j k : Nat) (an : Bool) (cable : Option (Nat × Nat)) : State :=
  if !s.subThere j k || s.linkUp j k || s.fget PWR_FURL_STATE != 0 || s.gen.readyMs.isNone then s else
  let s := match cable with
    | none => s.cableOf j
    | some c =>
      let there := c.1 == 1 || s.gen.prsnt.testBit j
      s.fsets [(ETH_CABLE_MEDIUM j, if there then c.1 else 0), (ETH_CABLE_REACH_DM j, if there then c.2 else 0), (ETH_CABLE_MAX_POWER j, 0)]
  if s.fbit (ETH_CABLE_MODULE_HELD j) then s else
  let taps := (s.lanes j k).foldl (fun m l => mset [] m l (s.laneTaps l)) s.eth.taps
  let s := { s with eth := { s.eth with taps := taps, fecBad := sdel s.eth.fecBad j } }.eyes (s.lanes j k)
  if !an && (cable.isSome || s.fget (ETH_CABLE_MEDIUM j) == 1) then s else
  let s := (s.fsets [(ETH_LINK_UP j k, 1), (ETH_LINK_AN_DONE j k, b2n an)]).statBit (ETH_STATUS_LINK_UP j) k true
  ((s.eeeCheck j k).preemptCheck j k).flowCheck j k

/-- A sub-port's link goes down (R298): pauses end, preemption ends, LINK_DOWN and the ledger's count are set. -/
def State.linkFall (s : State) (j k : Nat) : State :=
  if !s.linkUp j k then s else
  let before := s
  let n := subNo j k
  let s := (s.fsets [(ETH_LINK_UP j k, 0), (ETH_LINK_AN_DONE j k, 0)]).statBit (ETH_STATUS_LINK_UP j) k false
  let s := s.statBit (ETH_STATUS_LPI_TX j) k false
  let s := { s with eth := { s.eth with xoff := s.eth.xoff.filter (fun x => x / 8 != n), paused := s.eth.paused.filter (fun x => x / 8 != n)
                                        now := mdel s.eth.now n, wait := mdel s.eth.wait n }
                    led := { s.led with linkDown := mupd 0 s.led.linkDown n (· + 1) } }
  -- the recovered clock may have gone with the link (R362, R366)
  before.afterCheck ((s.preemptCheck j k).sticky (ETH_STICKY_LINK_DOWN j))

/-- A module is inserted (R304): `power` in 0.25 W; above 25.0 W and the port's trim it is held in low power. MEDIUM 00b is a port whose MOD_PRSNT_N has
gone high: presence and the cable's properties return to 0 (R462, log entry 206). -/
def State.moduleIn (s : State) (j medium reach power : Nat) : State :=
  if !s.portThere j then s
  else if medium % 4 = 0 then
    { s with gen := { s.gen with prsnt := clearBit s.gen.prsnt j, modules := mdel s.gen.modules j } }.fsets
      [(ETH_CABLE_MEDIUM j, 0), (ETH_CABLE_REACH_DM j, 0), (ETH_CABLE_MAX_POWER j, 0), (ETH_CABLE_MODULE_HELD j, 0)]
  else
    State.cableOf { s with gen := { s.gen with prsnt := setBit s.gen.prsnt j, modules := mins s.gen.modules j (medium, reach, power) } } j

/-- Every sub-port without LPI lets its link go down when the device furls; the others hold it in LPI (R303). -/
def State.ethFurl (s : State) : State :=
  (List.range 16).foldl (fun s j => (List.range 4).foldl (fun s k =>
    if !s.linkUp j k then s
    else if s.fget (ETH_LINK_TW_US j k) = 0 then s.linkFall j k
    else s.statBit (ETH_STATUS_LPI_TX j) k true) s) s

/-- Everything a port holds beside its registers is erased: its clock was stopped (R374). -/
def State.ethWipe (s : State) (j : Nat) : State :=
  let far := fun (n : Nat) (x : Nat) => x / n != j
  { s with eth :=
    { held := s.eth.held.filter (fun e => far 64 e.1), seq := s.eth.seq.filter (fun e => far 32 e.1),
      evT := s.eth.evT.filter (fun e => far 32 e.1), buf := s.eth.buf.filter (fun f => f.port != j),
      xoff := s.eth.xoff.filter (far 32), paused := s.eth.paused.filter (far 32), lldp := s.eth.lldp.filter (fun e => far 4 e.1),
      wake := s.eth.wake.filter (fun e => far 4 e.1), tries := s.eth.tries.filter (fun e => far 4 e.1),
      frag := s.eth.frag.filter (fun e => far 4 e.1), now := s.eth.now.filter (fun e => far 4 e.1), wait := s.eth.wait.filter (fun e => far 4 e.1),
      taps := s.eth.taps.filter (fun e => far 8 e.1), fecBad := sdel s.eth.fecBad j } }

-- Received frames (R291 to R295) ---------------------------------------------------------------------------------------------------------------------

/-- What the filters see of a frame (R292). -/
structure FrameInfo where
  tag : Option (Nat × Nat)
  etype : Nat
  ip4 : Bool
  ip6 : Bool
  /-- UDP source and destination ports. -/
  udp : Option (Nat × Nat)
  ecn : Nat
  deriving DecidableEq, Repr

/-- The ones'-complement sum of the 20 header bytes is 0xFFFF when the checksum is right. -/
def ipSumOk (h : List Byte) : Bool :=
  let t := ((List.range 10).map (fun i => beAt h (2 * i) 2)).sum
  let t := t / 65536 + t % 65536
  (t / 65536 + t % 65536) == 0xFFFF

def frameInfo (b : List Byte) : FrameInfo :=
  let tagged := beAt b 12 2 == 0x8100
  let tag := if tagged then some (beAt b 14 2 / 8192, beAt b 14 2 % 4096) else none
  let l2 := if tagged then 18 else 14
  let et := beAt b (l2 - 2) 2
  let h := b.drop l2
  let ip4 := et == 0x0800
  let ip6 := et == 0x86DD
  let u4 := ip4 && beAt h 0 1 == 0x45 && ipSumOk h && bitsAt (beAt h 6 2) 0 14 == 0 && beAt h 9 1 == 17 && decide (24 ≤ h.length)
  let u6 := ip6 && beAt h 6 1 == 17 && decide (44 ≤ h.length)
  let at_ := if u4 then 20 else 40
  { tag, etype := et, ip4, ip6, udp := if u4 || u6 then some (beAt h at_ 2, beAt h (at_ + 2) 2) else none,
    ecn := if ip4 then beAt h 1 1 % 4 else if ip6 then beAt h 1 1 / 16 % 4 else 0 }

/-- Does filter entry `e` match (R293)? -/
def State.filterHit (s : State) (j k : Nat) (i : FrameInfo) (e : Nat) : Bool :=
  s.fbit (ETH_FILTER_VALID j e) && (s.fget (ETH_FILTER_SUBPORTS j e)).testBit k &&
  (!s.fbit (ETH_FILTER_USE_VID j e) || (match i.tag with | some t => t.2 == s.fget (ETH_FILTER_VID j e) | none => false)) &&
  (!s.fbit (ETH_FILTER_USE_PCP j e) || (match i.tag with | some t => t.1 == s.fget (ETH_FILTER_PCP j e) | none => false)) &&
  (!s.fbit (ETH_FILTER_USE_ETYPE j e) || i.etype == s.fget (ETH_FILTER_ETYPE j e)) &&
  (!s.fbit (ETH_FILTER_USE_UDP j e) ||
    (match i.udp with
     | some u => (if s.fbit (ETH_FILTER_UDP_SRC j e) then u.1 else u.2) == s.fget (ETH_FILTER_UDP_PORT j e)
     | none => false))

/-- The queue that the first matching entry names: none for a frame to drop without a sticky bit, `some none` for one that no enabled
queue of the sub-port takes. -/
def State.steer (s : State) (j k : Nat) (i : FrameInfo) : Option (Option (Nat × Nat)) :=
  match (List.range 64).find? (s.filterHit j k i) with
  | none => some none
  | some e =>
    if s.fbit (ETH_FILTER_ACTION j e) then none
    else
      let q := s.fget (ETH_FILTER_QUEUE j e)
      if s.fget (ETH_Q_CFG_SUBPORT j q) = k ∧ s.fbit (ETH_Q_CFG_ENABLE j q) then some (some (e, q)) else some none

/-- The slot image of a frame (R294). -/
def frameSlot (k e seq prio : Nat) (i : FrameInfo) (b : List Byte) : List Byte :=
  leBytes 2 b.length ++ leBytes 1 k ++ leBytes 1 e ++
  leBytes 1 (b2n i.tag.isSome + 2 * b2n i.ip4 + 4 * b2n i.ip6 + 8 * b2n i.udp.isSome + 16 * i.ecn) ++ leBytes 1 prio ++
  leBytes 2 ((i.tag.map (·.2)).getD 0) ++ leBytes 4 seq ++ List.replicate 52 0 ++ b

/-- Slots of a 16 KiB ring: SIZE_LOG2 4 to 12. -/
def ethSlots (log : Nat) : Nat := 2 ^ clamp 4 12 log

/-- Delivery to a ring (R294). -/
def State.toRing (s : State) (j q p : Nat) (slot : Nat → List Byte) : State :=
  let head := s.fget (ETH_Q_PTR_HEAD j q)
  let n := ethSlots (s.fget (ETH_Q_CFG_SIZE_LOG2 j q))
  if n ≤ ahead 16 head (s.fget (ETH_Q_PTR_TAIL j q)) then s.sticky (ETH_STICKY_RX_DROP j) else
  let a := s.fget (ETH_Q_BASE_BASE j q) * 2 ^ 14 + head % n * 2 ^ 14
  let seq := mget 0 s.eth.seq (32 * j + q)
  let bs := slot seq
  if !s.inSpace p a bs.length then s.stray p macSrc a else
  let r := s.portWrite p macSrc j a bs .inPlace
  if !r.2.2 then r.1
  else if !r.2.1.ro.isEmpty then r.1.broke p macSrc r.2.1
  else if !r.2.1.absent.isEmpty then s.sticky (ETH_STICKY_RX_DROP j) else
  let s := r.1.finc (ETH_Q_PTR_HEAD j q) 1
  let s := { s with eth := { s.eth with seq := mset 0 s.eth.seq (32 * j + q) ((seq + 1) % 2 ^ 32) } }
  let last := mget 0 s.eth.evT (32 * j + q)
  if s.fbit (ETH_Q_CFG_EVENT j q) && (last == 0 || decide (last - 1 + 10 ≤ s.now)) then
    ({ s with eth := { s.eth with evT := mset 0 s.eth.evT (32 * j + q) (s.now + 1) } }).noteEv 0x17 0 p (Config.evDetail 0x17).toNat
  else s

/-- Steps 3 to 6 of R291 for a frame that is neither broken nor link-local. -/
def State.rxSteer (s : State) (j k : Nat) (b : List Byte) : State :=
  let dst := beAt b 0 6
  if dst ≠ s.fget (ETH_MAC_ADDR j k) ∧ dst ≠ 0xFFFFFFFFFFFF then s.sticky (ETH_STICKY_UNSTEERED j) else
  match s.subHolder j k with
  | none => s.sticky (ETH_STICKY_UNSTEERED j)
  | some p =>
    let st := s.fget (FAB_PART_STATE_P p)
    let i := frameInfo b
    let prio := match i.tag with | some t => t.1 | none => s.fget (ETH_CTRL_UNTAGGED_PRIO j)
    let n := ceilDiv (b.length + 4) 256
    if st = 2 ∨ st = 3 ∨ !s.admits j k prio n then s.sticky (ETH_STICKY_RX_DROP j) else
    match s.steer j k i with
    | none => s
    | some none => s.sticky (ETH_STICKY_UNSTEERED j)
    | some (some (e, q)) =>
      if s.fbit (ETH_Q_CFG_CONSUMER j q) then
        if s.fget PWR_FURL_STATE ≠ 0 then s.wakeUp
        else ({ s with eth := { s.eth with buf := s.eth.buf ++ [(⟨j, k, prio, n⟩ : RxHeld)] } }).flowCheck j k
      else if s.fget PWR_FURL_STATE ≠ 0 then s
      else s.toRing j q p (fun seq => frameSlot k e seq prio i b)

/-- Codewords join the FEC histogram of port `j` by their corrected symbols (R444). -/
def State.codewords (s : State) (j : Nat) (l : List Nat) : State :=
  { s with led := { s.led with fec := l.foldl (fun m n => mupd 0 m (16 * j + min n 15) (· + 1)) s.led.fec } }

/-- A received frame (R291): its bytes without the FCS, and what the receiver found: an uncorrectable codeword, a bad FCS, a broken
fragment sequence. While the device is furled, frames are lost; a Zheris frame on a sub-port held in LPI wakes it (R402). -/
def State.rxFrame (s : State) (j k : Nat) (b : List Byte) (fec fcs merge : Bool) : State :=
  if !s.subThere j k || !s.linkUp j k then s
  else if merge then s.sticky (ETH_STICKY_MERGE_ERR j)
  else if fec then { s with eth := { s.eth with fecBad := sins s.eth.fecBad j } }.sticky (ETH_STICKY_FEC_UNCORR j)
  else if fcs then s.sticky (ETH_STICKY_FCS_ERR j)
  else if b.length + 4 < 64 then s.sticky (ETH_STICKY_RUNT j)
  else if clamp 1522 16320 (s.fget (ETH_CTRL_MAXFRAME j)) < b.length + 4 then s.sticky (ETH_STICKY_OVERSIZE j)
  else if beAt b 12 2 = 0x8808 ∨ beAt b 0 6 / 16 = 0x0180C200000 then s
  else if s.portOff j then s.sticky (ETH_STICKY_RX_DROP j)
  else s.rxSteer j k b

-- Raw transmit rings (R309) ------------------------------------------------------------------------------------------------------------------------

/-- HEAD moves past a slot. -/
def State.txNext (s : State) (j k : Nat) : State := s.finc (ETH_TX_PTR_HEAD j k) 1

/-- A transmit ring fault: the slot is skipped. -/
def State.txFault (s : State) (j k p : Nat) : State := (s.txNext j k).noteEv 0x18 2 p (Config.evDetail 0x18).toNat

/-- The address of the slot at HEAD of a raw ring. -/
def State.txSlot (s : State) (j k : Nat) : Nat :=
  s.fget (ETH_TX_BASE_BASE j k) * 2 ^ 14 + s.fget (ETH_TX_PTR_HEAD j k) % ethSlots (s.fget (ETH_TX_CFG_SIZE_LOG2 j k)) * 2 ^ 14

/-- LENGTH of the slot at `a`. -/
def State.txLen (s : State) (p j a : Nat) : Nat := leNat (s.portRead p macSrc j a 2 .inPlace).2.bytes

/-- May a slot hold a frame of `len` bytes? -/
def State.txLenOk (s : State) (j len : Nat) : Bool := decide (14 ≤ len) && decide (len ≤ clamp 1522 16320 (s.fget (ETH_CTRL_MAXFRAME j)) - 4)

/-- The raw frame of sub-port `k` with the source address put in (R290), padded to 60 bytes. -/
def State.txBytes (s : State) (j k : Nat) (b : List Byte) : List Byte :=
  let b := b.take 6 ++ beBytes 6 (s.fget (ETH_MAC_ADDR j k)) ++ b.drop 12
  b ++ List.replicate (60 - b.length) 0

/-- The slot at HEAD of the raw ring of a sub-port: none where nothing is queued or may start; else the skip of a slot that cannot be sent, or the
frame in progress. -/
def State.txLoad (s : State) (j k : Nat) : Option (State × Bool) :=
  match s.subHolder j k with
  | none => none
  | some p =>
    if !s.txQueued j k || !s.subThere j k then none else
    let a := s.txSlot j k
    if !s.inSpace p a 2 then some ((s.stray p macSrc a).txNext j k, false) else
    let len := s.txLen p j a
    if !s.txLenOk j len then some (s.txFault j k p, false)
    else if !s.inSpace p (a + 0x40) len then some ((s.stray p macSrc (a + 0x40)).txNext j k, false)
    else
      let r := s.portRead p macSrc j (a + 0x40) len .inPlace
      if !r.2.ok then some (r.1.txFault j k p, false) else
      let b := s.txBytes j k r.2.bytes
      if !s.canSend j k (s.prioOf j b) then none
      else some ({ r.1 with eth := { r.1.eth with now := mins r.1.eth.now (subNo j k) ⟨b, 0, 0⟩ } }, true)

/-- The frame at HEAD starts, where nothing is in progress and its slot can be sent. A slot that cannot be is left to TX_FRAME_SENT. -/
def State.txStart (s : State) (j k : Nat) : State :=
  if (s.txNow j k).isSome then s else
  match s.txLoad j k with
  | some (t, true) => t
  | _ => s

/-- The frame in progress has been sent: what remains of it leaves, and HEAD advances. -/
def State.txEnd (s : State) (j k : Nat) (f : TxNow) : State :=
  let s := { s with eth := { s.eth with now := mdel s.eth.now (subNo j k) } }
  (s.emit (if f.frags = 0 then .frame j k f.bytes else .fragment j k f.frags true (f.bytes.drop f.sent))).txNext j k

/-- A raw frame is sent: the one in progress, or else the one at HEAD, which starts now. -/
def State.txFrame (s : State) (j k : Nat) : State :=
  match s.txNow j k with
  | some f => s.txEnd j k f
  | none =>
    match s.txLoad j k with
    | none => s
    | some (t, _) => ((t.txNow j k).map (t.txEnd j k)).getD t

-- Register writes ----------------------------------------------------------------------------------------------------------------------------------

/-- A write of word `w` of filter entry `e`: words 1 to 3 are held; word 0 applies them all together (R293). -/
def State.filterWrite (s : State) (j e w v : Nat) : State :=
  let key := 64 * j + e
  let l := (mget [] s.eth.held key).filter (fun x => x.1 != w) ++ [(w, v)]
  if w ≠ 0 then { s with eth := { s.eth with held := mset [] s.eth.held key l } } else
  let flds := (ETH_FILTER j e).flds
  let s := l.foldl (fun s (x : Nat × Nat) => flds.foldl (fun s f =>
    if f.lo / 32 = x.1 then s.fset f (bitsAt x.2 (f.lo % 32) f.width) else s) s) s
  { s with eth := { s.eth with held := mdel s.eth.held key } }

/-- A write of ENABLE of a receive queue: setting it zeroes SEQ (R294). -/
def State.rxqEnable (s : State) (j q : Nat) (on : Bool) : State :=
  let s := if on then { s with eth := { s.eth with seq := mdel s.eth.seq (32 * j + q) } } else s
  s.fset (ETH_Q_CFG_ENABLE j q) (b2n on)

/-- ETH_EEE or ETH_PREEMPT was written. -/
def State.ethCapsWritten (s : State) (j : Nat) : State :=
  (List.range 4).foldl (fun s k => (s.eeeCheck j k).preemptCheck j k) s

/-- Are the port and sub-port numbers the device's? -/
def subOk (j k : Nat) : Bool := decide (j < 16) && decide (k < 4)

def execRxFrame (j k : Nat) (b : List Byte) (fec : List (Option Nat)) (fcs merge : Bool) (s : State) : Host.Outcome State Fault Refusal :=
  onUnit (subOk j k)
    ((if s.subThere j k && s.linkUp j k then s.codewords j (fec.filterMap id) else s).rxFrame j k b (fec.contains none) fcs merge)
def execPauseRefresh (j k q : Nat) (s : State) : Host.Outcome State Fault Refusal := onUnit (subOk j k && q < 8) (s.pauseRefresh j k q)
def execLldpduReceived (j k : Nat) (pdu : List Byte) (eee : Option Nat) (pre : Option Nat) (ttl : Nat) (s : State) :
    Host.Outcome State Fault Refusal := onUnit (subOk j k) (s.lldpReceived j k pdu eee pre ttl)
def execLldpTransmit (j k : Nat) (s : State) : Host.Outcome State Fault Refusal := onUnit (subOk j k) (s.lldpSend j k)
def execLldpTtlExpiry (j k : Nat) (s : State) : Host.Outcome State Fault Refusal := onUnit (subOk j k) (s.lldpExpiry j k)
def execVerifyFrameReceived (j k : Nat) (respond : Bool) (s : State) : Host.Outcome State Fault Refusal :=
  onUnit (subOk j k) (s.verifyReceived j k respond)
def execPreemptVerifyTimeout (j k : Nat) (s : State) : Host.Outcome State Fault Refusal := onUnit (subOk j k) (s.verifyTimeout j k)
def execLinkDown (j k : Nat) (s : State) : Host.Outcome State Fault Refusal := onUnit (subOk j k) (s.linkFall j k)
def execModuleInsertion (j medium reach power : Nat) (s : State) : Host.Outcome State Fault Refusal :=
  onUnit (j < 16) (s.moduleIn j medium reach power)
def execFurlComplete (s : State) : Host.Outcome State Fault Refusal :=
  .next (if s.fget PWR_FURL_STATE = 1 ∧ s.pwr.prev.isEmpty then s.ethFurl.furlDone else s)

end Sys2Proof.Machine
end

