-- ==== Sys2Proof/Machine/Zheris.lean ====
section
/-!
DEFINITION. The Zheris remote-write transport (R311 to R336): frames, connection setup, sending and completing requests, receiving and
placing, selective repeat, rate control, reachability, rebinding and the context cache.
-/
namespace Sys2Proof.Machine

-- Contexts (R317 to R319) -------------------------------------------------------------------------------------------------------------------------

/-- Fields of the open descriptor (R318). -/
def Conn.role (c : Conn) : Nat := leAt c.desc 0 1
def Conn.pcp (c : Conn) : Nat := leAt c.desc 1 1
def Conn.dscp (c : Conn) : Nat := leAt c.desc 2 1
def Conn.flag (c : Conn) (i : Nat) : Bool := (leAt c.desc 3 1).testBit i
def Conn.pinned (c : Conn) : Bool := c.flag 2
def Conn.port (c : Conn) : Nat := leAt c.desc 4 1
def Conn.sub (c : Conn) : Nat := leAt c.desc 5 1
def Conn.root (c : Conn) : Nat := leAt c.desc 6 1
def Conn.group (c : Conn) : Nat := leAt c.desc 0xA 2
def Conn.peerConn (c : Conn) : Nat := leAt c.desc 0xC 4
def Conn.peerId (c : Conn) : Nat := leAt c.desc 0x10 8

/-- L: the bytes of a wire message (R321). -/
def Conn.msgBytes (c : Conn) : Nat := 512 * 2 ^ c.seg

def State.setConn (s : State) (i : Nat) (c : Conn) : State := { s with zt := { s.zt with ctx := mins s.zt.ctx i c } }
/-- Context `i` changed by `f`. -/
def State.modConn (s : State) (i : Nat) (f : Conn → Conn) : State := { s with zt := { s.zt with ctx := mmod s.zt.ctx i f } }

/-- Contexts of a partition. -/
def State.connsOf (s : State) (p : Nat) : List (Nat × Conn) := s.zt.ctx.filter (fun e => e.2.part == p)

/-- The context is used now (R333). -/
def State.touchConn (s : State) (i : Nat) : State :=
  let n := s.zt.useN + 1
  { s with zt := { s.zt with useN := n } }.modConn i (fun c => { c with used := n })

/-- A Zheris fault of partition `p` (R336). -/
def State.zFault (s : State) (p code conn : Nat) : State :=
  s.recErr { idx := 0x10 + p, valid := ZTX_P_FAULT_VALID p, ovf := some (ZTX_P_FAULT_OVERFLOW p),
             fill := [(ZTX_P_FAULT_CODE p, code), (ZTX_P_FAULT_CONN_CONN p, conn)],
             ev := mkEv 0x1B (if code = 3 then 3 else 2) (some p) true code conn }

/-- Does the engine run: ENABLE at 1 (R336), awake? -/
def State.zOn (s : State) : Bool := s.fbit ZTX_CTRL_ENABLE && s.fget PWR_FURL_STATE == 0

/-- Have fetching and write-back stopped for partition `p` (R335, R358)? -/
def State.zHostLost (s : State) (p : Nat) : Bool := s.hostLost p

/-- The section's CONN_ONCHIP. -/
def State.onchip (s : State) (p : Nat) : Nat := ((s.sect p).map (·.onchip)).getD 0

-- Timers and rates -----------------------------------------------------------------------------------------------------------------------------------

/-- RTO_MIN and RTO_MAX in 1/256 of 10 ns. -/
def State.rtoMin (s : State) : Nat := max 1 (s.fget ZTX_RTO_RTO_MIN) * 25600
def State.rtoMax (s : State) : Nat := max s.rtoMin (s.fget ZTX_RTO_RTO_MAX * 25600)

/-- The computed RTO (R327). -/
def State.rtoOf (s : State) (c : Conn) : Nat := match c.srtt with | none => s.rtoMin | some t => max s.rtoMin (t.1 + 4 * t.2)

/-- A new round-trip sample, formed as in RFC 6298. -/
def rttSample (old : Option (Nat × Nat)) (r : Nat) : Nat × Nat :=
  match old with
  | none => (r, r / 2)
  | some (sr, v) => ((7 * sr + r) / 8, (3 * v + (if sr < r then r - sr else sr - r)) / 4)

def Ratio.norm (n d : Nat) : Ratio := let g := max 1 (Nat.gcd n d); ⟨n / g, d / g⟩
def Ratio.nat (n : Nat) : Ratio := ⟨n, 1⟩
def Ratio.le (a b : Ratio) : Bool := decide (a.num * b.den ≤ b.num * a.den)
def Ratio.max (a b : Ratio) : Ratio := if a.le b then b else a
def Ratio.min (a b : Ratio) : Ratio := if a.le b then a else b
def Ratio.add (a b : Ratio) : Ratio := Ratio.norm (a.num * b.den + b.num * a.den) (a.den * b.den)
/-- a − b, for b at most a. -/
def Ratio.sub (a b : Ratio) : Ratio := Ratio.norm (a.num * b.den - b.num * a.den) (a.den * b.den)
def Ratio.mul (a b : Ratio) : Ratio := Ratio.norm (a.num * b.num) (a.den * b.den)
def Ratio.div (a : Ratio) (n : Nat) : Ratio := Ratio.norm a.num (a.den * n)

/-- RATE_MAX: the line rate of the connection's sub-port in bytes per second (R329). -/
def State.lineRate (s : State) (c : Conn) : Ratio :=
  Ratio.nat (match s.fget (ETH_STATUS_MODE c.port) with | 1 => 200000000000 | 2 => 100000000000 | _ => 50000000000)

/-- A setting in units of 100 Mb/s. -/
def rateUnits (n : Nat) : Ratio := Ratio.nat (n * 12500000)
def State.rateMin (s : State) : Ratio := rateUnits (max 1 (s.fget ZTX_RATE_CFG_RATE_MIN))

/-- A rate period (R329). -/
def State.ratePeriod (s : State) (c : Conn) : Conn :=
  let g := 2 ^ max 1 (s.fget ZTX_RATE_CFG_G_SHIFT)
  let dp := ahead 32 c.rxNow.1 c.rxLast.1
  let dc := ahead 32 c.rxNow.2 c.rxLast.2
  let f : Ratio := if dp = 0 then Ratio.nat 0 else Ratio.norm dc dp
  let a := (c.cong.sub (c.cong.div g)).add (f.div g)
  let c := { c with cong := a, rxLast := c.rxNow }
  if 0 < dc then { c with rate := s.rateMin.max (c.rate.mul ((Ratio.nat 1).sub (a.div 2))), goodN := 0 }
  else
    let n := c.goodN + 1
    let step := if s.fget ZTX_RATE_CFG_HAI_AFTER < n then s.fget ZTX_RATE_STEP_HAI_STEP else s.fget ZTX_RATE_STEP_AI_STEP
    { c with goodN := n, rate := (s.lineRate c).min (c.rate.add (rateUnits step)) }

-- Packets out (R311 to R314) -----------------------------------------------------------------------------------------------------------------------

/-- Key and salt of a direction (R315): the initiator's packets have the first of each; `mine` names this side's. -/
def Conn.dirKey (c : Conn) (mine : Bool) : List Byte × List Byte :=
  let i := if (c.role == 0) == mine then 0 else 1
  (bytesAt c.keys (32 * i) 32, bytesAt c.keys (64 + 4 * i) 4)

/-- The IV of packet `pn` under a salt (R314). -/
def zIv (salt : List Byte) (pn : Nat) : List Byte := salt ++ leBytes 8 pn

/-- A body under this side's key: ciphertext and tag (R314). -/
def Conn.sealed (c : Conn) (pn : Nat) (header body : List Byte) : List Byte :=
  gcmSeal (c.dirKey true).1 (zIv (c.dirKey true).2 pn) header body

/-- The body of a packet under the peer's key; none where its tag fails. -/
def Conn.opened (c : Conn) (pn : Nat) (header body : List Byte) : Option (List Byte) :=
  gcmOpen (c.dirKey false).1 (zIv (c.dirKey false).2 pn) header body

/-- The common header (R312). -/
def Conn.header (c : Conn) (typ flags pn : Nat) : List Byte :=
  leBytes 1 (16 + typ) ++ leBytes 1 flags ++ leBytes 2 0 ++ leBytes 4 c.peerConn ++ leBytes 6 pn ++ leBytes 2 0

/-- The ones'-complement sum of 16-bit words in network byte order. -/
def onesSum (bs : List Byte) : Nat :=
  let t := ((List.range (ceilDiv bs.length 2)).map (fun i => beAt bs (2 * i) 2)).sum
  if t = 0 then 0 else (t - 1) % 65535 + 1

/-- The UDP checksum over IPv6 of a datagram whose header and payload are given. -/
def udpSum (src dst udp : List Byte) : Nat :=
  let n := 65535 - onesSum (src ++ dst ++ beBytes 4 udp.length ++ beBytes 4 17 ++ udp)
  if n = 0 then 65535 else n

/-- The frame of a packet of type `typ` with packet number `pn` (R311). -/
def State.zFrame (s : State) (i : Nat) (c : Conn) (typ flags pn : Nat) (body : List Byte) : ZFrame :=
  let header := c.header typ flags pn
  let out := if typ < 8 then c.sealed pn header body else body
  let srcPort := 0xC000 + i % 16384
  let dstPort := s.fget ZTX_CTRL_UDP_PORT
  let udp := beBytes 2 srcPort ++ beBytes 2 dstPort ++ beBytes 2 (8 + header.length + out.length) ++ beBytes 2 0 ++ header ++ out
  { port := c.port, sub := c.sub, dstMac := bytesAt c.desc 0x18 6, srcMac := s.fget (ETH_MAC_ADDR c.port c.sub),
    tag := if c.flag 1 then some (c.pcp, leAt c.desc 8 2) else none, ipv6 := c.flag 0, ihl := 5, dscp := c.dscp,
    ecn := if typ = 1 ∨ typ = 3 then 2 else 0, ttl := 64, ident := 0, dontFragment := true,
    srcIp := bytesAt c.desc 0x20 16, dstIp := bytesAt c.desc 0x30 16, srcPort, dstPort,
    checksum := if c.flag 0 then udpSum (bytesAt c.desc 0x20 16) (bytesAt c.desc 0x30 16) udp else 0,
    header, sealed := typ < 8, body := out.take body.length, gcm := out.drop body.length,
    express := (s.fget (ETH_PREEMPT_EXPRESS c.port)).testBit c.pcp }

/-- A frame's bytes on the wire, without the FCS (R311). The IPv6 flow label is 0 (log entry 170). -/
def ZFrame.bytes (f : ZFrame) : List Byte :=
  let n := 8 + f.header.length + f.body.length + f.gcm.length
  let tc := 4 * f.dscp + f.ecn
  let ip4 := beBytes 1 (64 + f.ihl) ++ beBytes 1 tc ++ beBytes 2 (4 * f.ihl + n) ++ beBytes 2 f.ident ++ beBytes 2 (16384 * b2n f.dontFragment) ++
    beBytes 1 f.ttl ++ beBytes 1 17
  let ends := bytesAt f.srcIp 0 4 ++ bytesAt f.dstIp 0 4
  f.dstMac ++ beBytes 6 f.srcMac ++ (match f.tag with | some t => beBytes 2 0x8100 ++ beBytes 2 (8192 * t.1 + t.2) | none => []) ++
  (if f.ipv6 then
     beBytes 2 0x86DD ++ beBytes 4 (0x60000000 + tc * 2 ^ 20) ++ beBytes 2 n ++ beBytes 1 17 ++ beBytes 1 f.ttl ++ f.srcIp ++ f.dstIp
   else beBytes 2 0x0800 ++ ip4 ++ beBytes 2 (65535 - onesSum (ip4 ++ ends)) ++ ends) ++
  beBytes 2 f.srcPort ++ beBytes 2 f.dstPort ++ beBytes 2 n ++ beBytes 2 f.checksum ++ f.header ++ f.body ++ f.gcm

/-- May connection `c` send now? -/
def State.zCanSend (s : State) (c : Conn) : Bool := s.zOn && s.canSend c.port c.sub c.pcp

/-- A frame of context `i` leaves, after the cut of a frame in progress (R301), and the context is used (R333). On a sub-port that its partition does
not hold it is dropped, a violation of KIND 0x4 (R56). -/
def State.zEmit (s : State) (i : Nat) (c : Conn) (f : ZFrame) : State :=
  if s.subHolder c.port c.sub ≠ some c.part then s.violate c.part 4 zherisSrc (16 * c.port + c.sub)
  else ((((s.txCut c.port c.sub).getD s).emit (.zheris i f))).touchConn i

/-- A packet under the next PN of its direction. -/
def State.zRaw (s : State) (i typ flags : Nat) (body : List Byte) : State :=
  match mfind s.zt.ctx i with
  | none => s
  | some c => (s.setConn i { c with nextPn := c.nextPn + 1 }).zEmit i c (s.zFrame i c typ flags c.nextPn body)

/-- The context that signs HELLO and HELLO_ACK: "ET9-ZHERIS". -/
def zContext : List Byte := [0x45, 0x54, 0x39, 0x2D, 0x5A, 0x48, 0x45, 0x52, 0x49, 0x53]

/-- What a HELLO (`typ` 8) or HELLO_ACK holds before its signature (R316). -/
def State.helloBody (s : State) (i typ : Nat) (c : Conn) : List Byte :=
  leBytes 4 (s.connNo i) ++ leBytes 1 c.root ++ leBytes 1 (leAt c.desc 7 1) ++ leBytes 2 0 ++ leBytes 8 s.deviceId ++
  (if typ = 8 then c.nonceI else c.nonceR ++ c.nonceI)

/-- HELLO or HELLO_ACK (R316): PN 0, with the signature under the identity key. -/
def State.zHello (s : State) (i : Nat) : State :=
  match mfind s.zt.ctx i with
  | none => s
  | some c =>
    if !s.zCanSend c || s.fatal then s else
    let typ := if c.role = 0 then 8 else 9
    let body := s.helloBody i typ c
    let sign := edSign s.fuse.idKey zContext (shake256 (c.header typ 0 0 ++ body) 64)
    (s.setConn i { c with sign }).zEmit i c (s.zFrame i c typ 0 0 (body ++ sign))

/-- Key material of a connection (R315). -/
def zKeys (root : Nat) (nonceI nonceR : List Byte) (idI idR connI connR : Nat) : List Byte :=
  shake256 (leBytes 32 (Config.rootKey root).toNat ++ zContext ++ nonceI ++ nonceR ++
    leBytes 8 idI ++ leBytes 8 idR ++ leBytes 4 connI ++ leBytes 4 connR) 72

/-- The connection enters OPEN: keys, R at the line rate (R315, R317, R329). -/
def State.zOpened (s : State) (i : Nat) (c : Conn) (peerSeg : Nat) : State :=
  let me := s.deviceId
  let no := s.connNo i
  let keys := if c.role = 0 then zKeys c.root c.nonceI c.nonceR me c.peerId no c.peerConn
    else zKeys c.root c.nonceI c.nonceR c.peerId me c.peerConn no
  s.setConn i { c with state := 3, seg := min (leAt c.desc 7 1) peerSeg, keys, rate := s.lineRate c, cong := Ratio.nat 0, rto := s.rtoMin }

-- Completing requests (R322) ---------------------------------------------------------------------------------------------------------------------------

/-- Messages of a request. -/
def Conn.parts (c : Conn) (r : ZReq) : Nat := if r.bytes = 0 then 1 else ceilDiv r.bytes c.msgBytes

/-- The status with which a request can complete now. -/
def Conn.status (c : Conn) (t : ZTx) : Option Nat :=
  if t.invalid then some 6
  else if c.state = 5 then some c.endStatus
  else if !t.left.isEmpty then none
  else if t.refused then some 1
  else if t.cut = c.parts t.r then some (if t.poisoned then 5 else 0)
  else none

/-- The sender record (R324). -/
def senderRecord (status : Nat) (r : ZReq) : List Byte :=
  leBytes 1 0x21 ++ leBytes 1 status ++ leBytes 2 0 ++ leBytes 4 r.conn ++ leBytes 8 r.tag ++ leBytes 4 r.bytes ++ leBytes 4 r.imm ++ leBytes 8 0

/-- Does the completion of a request write a sender record? A pennant's failure is counted instead (R435). -/
def needsRecord (r : ZReq) (status : Nat) : Bool := r.client != 5 && (r.flags.testBit 3 || status != 0)

/-- A request completes: its counter (status OK only), its record, and what its client does. -/
def State.zFinish (s : State) (r : ZReq) (status : Nat) : State :=
  let p := r.part
  let s := if status = 0 ∧ r.flags.testBit 2 then s.sigAdd p r.lsig r.linc else s
  let s := if needsRecord r status then s.cplPut p (senderRecord status r) else s
  if status = 0 then
    match r.cb with
    | .none => s
    | .entry step i => if s.fget (SCH_SQ_STEP_STEP p) = step then s.sqEntryDone p i else s
    | .verify slow step => s.palAcked p slow step
  else if r.client = 5 then s.fsat (EVT_P_LOST_COUNT p) 1
  else s

/-- Completes requests of context `i` in order while they can; one that needs a record and finds no place waits (R354). -/
def State.zComplete (i : Nat) : Nat → State → State
  | 0, s => s
  | n + 1, s =>
    match mfind s.zt.ctx i with
    | none => s
    | some c =>
      match c.reqs with
      | [] => s
      | t :: rest =>
        match c.status t with
        | none => s
        | some st =>
          if needsRecord t.r st && !s.hlqRoom t.r.part then s.fset (HIF_P_STATUS_HLQ_FULL t.r.part) 1
          else State.zComplete i n ((s.setConn i { c with reqs := rest }).zFinish t.r st)

def State.zCompleteAll (s : State) (i : Nat) : State :=
  State.zComplete i (((mfind s.zt.ctx i).map (·.reqs.length)).getD 0) s

/-- The connection enters CLOSED; its requests complete with `status`; messages in progress are discarded. -/
def State.zClose (s : State) (i status : Nat) : State :=
  (s.modConn i (fun c => { c with state := 5, endStatus := status, msgs := [], flight := [], resend := [], fresh := [], late := [], away := false, recs := [], tell := [],
                                  ackDue := false, probeDue := false })).zCompleteAll i

/-- A CLOSE packet (R313, R331), when it can be sent and a PN is left. -/
def State.zSendClose (s : State) (i reason : Nat) : State :=
  match mfind s.zt.ctx i with
  | none => s
  | some c => if s.zCanSend c && !s.fatal && decide (c.nextPn < 2 ^ 48) then s.zRaw i 4 0 (leBytes 1 reason ++ leBytes 7 0) else s

/-- Closes from this side: CLOSE is sent, and repeated up to three times. -/
def State.zCloseLocal (s : State) (i reason : Nat) : State :=
  ((s.zSendClose i reason).modConn i (fun c => { c with closeTries := 0, closeReason := reason })).zClose i 2

/-- A direction that reaches PN 2^48 − 1 closes the connection with fault 0x04 (R314, R336). -/
def State.zExhausted (s : State) (i : Nat) : State :=
  match mfind s.zt.ctx i with
  | none => s
  | some c => (s.zFault c.part 4 (s.connNo i)).zCloseLocal i 1

/-- A packet of an OPEN connection, unless the PNs of its direction are used up. -/
def State.zOut (s : State) (i typ flags : Nat) (body : List Byte) : State :=
  match mfind s.zt.ctx i with
  | none => s
  | some c => if c.nextPn < 2 ^ 48 - 1 then s.zRaw i typ flags body else s.zExhausted i

-- Sending (R321, R325, R327, R328) ------------------------------------------------------------------------------------------------------------------------

/-- ECHO of an ACK (R313). -/
def State.zEcho (s : State) (p no : Nat) : Nat :=
  match (List.range 4).find? (fun n => s.fget (PAL_MS_CONN_CONN p n) == no) with
  | some n => s.fget (PAL_MS_APPLIED_SEQ p n)
  | none => 0

/-- The body of an ACK: at most 16 ranges, the newest first. -/
def State.ackBody (s : State) (i : Nat) (c : Conn) : List Byte :=
  let top := ((c.pns.head?).map (·.1)).getD 0
  let rs := c.pns.take 16
  leBytes 4 c.rcvDone ++ leBytes 4 c.rxPkts ++ leBytes 4 c.rxCe ++ leBytes 4 (s.zEcho c.part (s.connNo i)) ++ leBytes 6 top ++
  leBytes 2 (min 0xFFFF ((s.now - c.lastArr) * 100)) ++ leBytes 1 rs.length ++ leBytes 1 (b2n !c.tell.isEmpty) ++ leBytes 2 0 ++
  leBytes 4 (c.tell.head?.getD 0) ++ rs.flatMap (fun (r : Nat × Nat) => leBytes 4 (top - r.1) ++ leBytes 4 (top - r.2))

/-- An ACK: it tells of one refused message; another follows for each further one. -/
def State.zAck (s : State) (i : Nat) (c : Conn) : State :=
  (s.setConn i { c with tell := c.tell.drop 1, ackDue := decide (1 < c.tell.length), unacked := 0 }).zOut i 2 0 (s.ackBody i c)

/-- The source bytes of `n` bytes at offset `off` of a request, which port `j` reads: `none` while a page is not resident; poison gives zeros. -/
def State.zSource (s : State) (r : ZReq) (j off n : Nat) : State × Option (List Byte × Bool) :=
  match r.data with
  | some d => (s, some (bytesAt d off n, false))
  | none =>
    let (s, m) := s.portRead r.part zherisSrc j (r.locAddr + off) n .inPlace
    let s := s.broke r.part zherisSrc m
    if !m.absent.isEmpty then (s.demand r.part 0xF0 m.absent, none)
    else if m.ok then (s, some (m.bytes, false)) else (s, some (List.replicate n 0, true))

/-- Marks the request of message `seq` as poisoned. -/
def Conn.poison (c : Conn) (seq : Nat) : Conn :=
  { c with reqs := c.reqs.map (fun t => if t.left.contains seq then { t with poisoned := true } else t) }

/-- The body of a DATA packet (R313). Only the last part carries the request's notification (R321). -/
def dataBody (m : ZMsg) (seq off addr : Nat) (poison : Bool) (payload : List Byte) : List Byte :=
  let f := if m.final then m.req.flags % 4 else 0
  let k := fun (v : Nat) => if m.final then v else 0
  leBytes 4 seq ++ leBytes 4 off ++ leBytes 4 m.bytes ++ leBytes 4 (k m.req.imm) ++ leBytes 8 addr ++
  leBytes 1 (f + 4 * b2n poison) ++ leBytes 1 (k m.req.rsig) ++ leBytes 2 (k m.req.rinc) ++ leBytes 4 0 ++ payload

/-- A segment leaves the lists of those to be sent. -/
def Conn.taken (c : Conn) (e : Nat × Nat) : Conn := { c with resend := c.resend.erase e, fresh := c.fresh.erase e }

/-- Sends a segment under a new PN: one that was sent before counts as a retransmission. While its source page is away the connection's segments
wait, so that they are first sent in their order (R321, R327). -/
def State.zSegment (s : State) (i : Nat) (again : Bool) (e : Nat × Nat) : State :=
  match mfind s.zt.ctx i with
  | none => s
  | some c =>
    match (mfind c.msgs e.1).filter (fun m => m.segs.contains e.2) with
    | none => s.modConn i (fun c => c.taken e)
    | some m =>
      let size := 2 ^ c.seg
      let off := e.2 * size
      let n := min size (m.bytes - off)
      match s.zSource m.req c.port (c.msgBytes * m.part + off) n with
      | (s, none) => s.modConn i (fun c => { c with away := true })
      | (s, some (bytes, bad)) =>
        let addr := match m.req.remote with | some a => a + c.msgBytes * m.part | none => 0
        let pn := c.nextPn
        let s := s.modConn i (fun c =>
          let c := if bad then c.poison e.1 else c
          { c.taken e with flight := mins (c.flight.filter (fun x => x.2 != e)) pn e, late := c.late.filter (fun x => x.2 != e) })
        let s := if again then s.fsat ZTX_RETX_COUNT 1 else s
        s.zOut i 1 0 (dataBody m e.1 off addr bad bytes)

/-- Cuts the next message that the window of 16 allows (R321); its segments wait to be sent. -/
def State.zCut (s : State) (i : Nat) (c : Conn) : Option State :=
  if 16 ≤ ahead 32 c.nextSeq c.peerDone then none else
  match c.reqs.findIdx? (fun t => !t.invalid && !t.refused && decide (t.cut < c.parts t.r)) with
  | none => none
  | some x =>
    match c.reqs[x]? with
    | none => none
    | some t =>
      let l := c.msgBytes
      let bytes := min l (t.r.bytes - l * t.cut)
      let segs := if bytes = 0 then 1 else ceilDiv bytes (2 ^ c.seg)
      let seq := c.nextSeq
      let m : ZMsg := ⟨t.cut, bytes, t.r, t.cut + 1 == c.parts t.r, List.range segs⟩
      some (s.setConn i { c with nextSeq := (seq + 1) % 2 ^ 32, msgs := mins c.msgs seq m,
                                 reqs := c.reqs.set x { t with cut := t.cut + 1, left := sins t.left seq },
                                 fresh := c.fresh ++ (List.range segs).map (fun g => (seq, g)) })

/-- Has a connection a packet to send: an ACK, a PROBE, a segment to send again, or a new one? -/
def State.zHas (s : State) (i : Nat) (c : Conn) : Bool :=
  (c.ackDue && !c.pns.isEmpty) || c.probeDue || (!c.away && (!c.resend.isEmpty || !c.fresh.isEmpty || (s.zCut i c).isSome))

/-- May its next packet go now? In the device-fatal state none goes but a pennant's (R440). -/
def State.zReady (s : State) (i : Nat) (c : Conn) : Bool :=
  c.resident && (c.state == 3 || c.state == 4) && s.zCanSend c && !s.fatal && s.zHas i c

/-- One packet of context `i`: ACKs, a PROBE, lost segments, then new ones in increasing OFFSET (R321, R327, R328). -/
def State.zOne (s : State) (i : Nat) : State :=
  match mfind s.zt.ctx i with
  | none => s
  | some c =>
    if c.ackDue && !c.pns.isEmpty then s.zAck i c
    else if c.probeDue then (s.setConn i { c with probeDue := false }).zOut i 3 0 (leBytes 8 0)
    else
      match c.resend with
      | e :: _ => s.zSegment i true e
      | [] =>
        match c.fresh with
        | e :: _ => s.zSegment i false e
        | [] =>
          match s.zCut i c with
          | none => s
          | some t => t.zSegment i false (c.nextSeq, 0)

/-- The connection of a sub-port whose turn it is, of those that `only` names (R329): of the highest PCP with a packet ready, the one that was used
least recently. -/
def State.zPick (s : State) (j k : Nat) (only : Nat → Conn → Bool) : Option (Nat × Conn) :=
  let l := s.zt.ctx.filter (fun e => e.2.port == j && e.2.sub == k && only e.1 e.2 && s.zReady e.1 e.2)
  let top := l.foldl (fun m e => max m e.2.pcp) 0
  minBy (fun (e : Nat × Conn) => e.2.used) (l.filter (fun e => e.2.pcp == top))

/-- At most `n` packets of a sub-port, one a turn. -/
def State.zTurns (j k : Nat) (only : Nat → Conn → Bool) : Nat → State → State
  | 0, s => s
  | n + 1, s =>
    match s.zPick j k only with
    | none => s
    | some e => State.zTurns j k only n (s.zOne e.1)

/-- As many packets as a connection can have to send. -/
def Conn.backlog (c : Conn) : Nat :=
  c.tell.length + 3 + c.resend.length + c.fresh.length + (c.reqs.map (fun t => 1 + ceilDiv t.r.bytes (2 ^ c.seg) + c.parts t.r)).sum

/-- As many as the connections of a sub-port can have. -/
def State.backlog (s : State) (j k : Nat) : Nat := ((s.zt.ctx.filter (fun e => e.2.port == j && e.2.sub == k)).map (fun e => e.2.backlog)).sum

/-- The connections of a sub-port send what they may. -/
def State.zPumpSub (s : State) (j k : Nat) : State := State.zTurns j k (fun _ _ => true) (s.backlog j k) s

/-- Context `i` has something new: its sub-port sends what it may. -/
def State.zPump (s : State) (i : Nat) : State :=
  match mfind s.zt.ctx i with
  | none => s
  | some c => s.zPumpSub c.port c.sub

/-- Pages of a partition have come in: its connections go on. -/
def State.zPumpPart (s : State) (p : Nat) : State :=
  let l := s.connsOf p
  l.foldl (fun s e => (s.modConn e.1 (fun c => { c with away := false })).zPump e.1) s

/-- Is the raw frame that would start next express (R309)? -/
def State.rawExpress (s : State) (j k : Nat) : Bool :=
  match s.txLoad j k with
  | some (t, true) => (t.txNow j k).any (fun f => s.isExpress j (s.prioOf j f.bytes))
  | _ => false

/-- The sub-port's transmit path is free for new frames: first those of the MAC, then the express frames, then the others. The raw ring, whose frame is of
either class, sends at least one frame in 16 of its class (R301, R309). -/
def State.subGo (s : State) (j k : Nat) : State :=
  if (s.txNow j k).isSome || (s.fget (ETH_STATUS_LPI_TX j)).testBit k then s.zPumpSub j k else
  let s := s.macFlush j k
  let first := s.rawExpress j k
  let s := State.zTurns j k (fun _ c => s.isExpress j c.pcp) (if first then 15 else s.backlog j k) s
  let s := (if first then s else State.zTurns j k (fun _ _ => true) 15 s).txStart j k
  s.zPumpSub j k

/-- Asks for the fetch of a context that is not cached (R334, R335). -/
def State.zFetch (s : State) (i : Nat) : State :=
  if (mfind s.zt.ctx i).any (fun c => s.zHostLost c.part) then s else { s with zt := { s.zt with fetch := sins s.zt.fetch i } }

-- Taking requests (R320, R322) ------------------------------------------------------------------------------------------------------------------------------

/-- Can a pennant not be sent on connection `c` (R435): not OPEN or not cached, its path down, disabled or paused, or its window full? -/
def State.pennantStuck (s : State) (c : Conn) : Bool :=
  c.state != 3 || !c.resident || decide (16 ≤ ahead 32 c.nextSeq c.peerDone) || !s.subThere c.port c.sub || !s.linkUp c.port c.sub || s.portOff c.port ||
    s.eth.paused.contains (8 * subNo c.port c.sub + c.pcp) || (s.fatal && !s.zCanSend c)

/-- Connection `c` with request `t` put before every request that is not cut whole. -/
def Conn.putAhead (c : Conn) (t : ZTx) : Conn :=
  let x := (c.reqs.findIdx? (fun t => decide (t.cut < c.parts t.r))).getD c.reqs.length
  { c with reqs := c.reqs.take x ++ [t] ++ c.reqs.drop x }

/-- Connection `c` with segment `seg` first of those not yet sent. -/
def Conn.freshFirst (seg : Nat × Nat) (c : Conn) : Conn := { c with fresh := seg :: c.fresh.erase seg }

/-- The segment of a message just cut on connection `c` leaves first, at once where the sub-port can send. -/
def State.zAhead (s : State) (i : Nat) (c : Conn) : State :=
  let s := s.modConn i (Conn.freshFirst (c.nextSeq, 0))
  if s.zCanSend c then s.zSegment i false (c.nextSeq, 0) else s

/-- A pennant goes ahead of all other traffic of its connection (R435): its message is cut before every request that is not cut whole, and its one segment
leaves first. -/
def State.zPennant (s : State) (i : Nat) (c : Conn) (t : ZTx) : State :=
  let s := s.setConn i (c.putAhead t)
  ((s.zCut i (c.putAhead t)).map (fun u => u.zAhead i c)).getD s

/-- A request taken from a ring or a client. A destination that the spec does not give an internal message is free (log entry 6). -/
def State.zTake (s : State) (r : ZReq) (bad : Bool) : State :=
  let (v, s) := match r.remote with | some a => (a, s) | none => s.free 64
  let r := { r with remote := some v }
  let outside := r.data.isNone && decide (0 < r.bytes) && !s.inSpace r.part r.locAddr r.bytes
  let s := if outside then s.violate r.part 5 zherisSrc r.locAddr else s
  match s.partConn r.part r.conn with
  | none => (s.zFault r.part 1 r.conn).zFinish r 6
  | some (i, c) =>
    let inv := bad || outside || decide (2 ^ 32 ≤ r.bytes)
    let s := if inv then s.zFault r.part 1 r.conn else s
    if r.client = 5 then
      (if s.pennantStuck c then s.zFinish r 2 else let s := s.zPennant i c ⟨r, 0, [], false, false, false⟩; if s.fatal then s else s.zPump i)
    else
    let s := s.setConn i { c with reqs := c.reqs ++ [⟨r, 0, [], false, false, inv⟩] }
    let s := s.zCompleteAll i
    if c.resident then s.zPump i else s.zFetch i

/-- A send descriptor as a request (R320), and whether a field is out of range. -/
def parseSend (p : Nat) (b : List Byte) : ZReq × Bool :=
  ({ part := p, conn := leAt b 4 4, client := 0, flags := leAt b 1 1, rsig := leAt b 2 1, lsig := leAt b 3 1, locAddr := leAt b 8 8,
     remote := some (leAt b 0x10 8), bytes := leAt b 0x18 4, imm := leAt b 0x1C 4, rinc := leAt b 0x20 2, linc := leAt b 0x22 2,
     tag := leAt b 0x28 8, data := none, cb := .none },
   decide (1 < leAt b 0 1) || decide (16 ≤ leAt b 1 1) || !zeroAt b 0x24 4 || !zeroAt b 0x30 16)

/-- ZTX_SEND_REQUEST: the oldest request of the internal clients of partition `p`, a pennant first, or the descriptor at HEAD of its send ring. In the
device-fatal state and in an orderly shutdown none but a pennant is accepted (R440, R453). -/
def State.zSendReq (s : State) (p : Nat) (internal : Bool) : State :=
  if !s.zOn || (s.stopped && !internal) then s
  else if internal then
    match (s.zt.int.find? (fun r => r.part == p && r.client == 5)).orElse (fun _ => if s.stopped then none else s.zt.int.find? (fun r => r.part == p)) with
    | none => s
    | some r => ({ s with zt := { s.zt with int := s.zt.int.erase r } }).zTake r false
  else if !s.fbit (ZTX_P_CTRL_ENABLE p) || s.fget (ZTX_P_SQ_HEAD_HEAD p) == s.fget (ZTX_P_SQ_TAIL_TAIL p) then s
  else
    let n := 2 ^ clamp 4 16 (s.fget (ZTX_P_SQ_CFG_SIZE_LOG2 p))
    let a := s.fget (ZTX_P_SQ_BASE_BASE p) * 64 + 64 * (s.fget (ZTX_P_SQ_HEAD_HEAD p) % n)
    let s := s.finc (ZTX_P_SQ_HEAD_HEAD p) 1
    if !s.inSpace p a 64 then (s.stray p zherisSrc a).zFault p 1 0xFFFFFFFF
    else
      let r := s.memRead p a 64 .inPlace
      if !r.2.ok then r.1.zFault p 1 0xFFFFFFFF
      else if leAt r.2.bytes 0 1 = 0 then r.1
      else let (q, bad) := parseSend p r.2.bytes; r.1.zTake q bad

-- Reachability (R330) ---------------------------------------------------------------------------------------------------------------------------------------

/-- An authenticated packet from a peer: its UNREACHABLE connections of the partition are OPEN again. -/
def State.zHeard (s : State) (p id : Nat) : State :=
  let l := (s.connsOf p).filter (fun e => e.2.peerId == id && e.2.state == 4)
  if l.isEmpty then s else
  (l.foldl (fun s e => s.modConn e.1 (fun c => { c with state := 3 })) s).noteEv 0x1A 0 p (Config.evDetail 0x1A).toNat

/-- KEEPALIVE_EXPIRY: a PROBE on one resident OPEN connection to the peer, the lowest-numbered pinned one if any. -/
def State.keepalive (s : State) (p id : Nat) : State :=
  let l := (s.connsOf p).filter (fun e => e.2.peerId == id && e.2.state == 3 && e.2.resident)
  let key := fun (e : Nat × Conn) => s.connNo e.1
  match (minBy key (l.filter (fun e => e.2.pinned))).orElse (fun _ => minBy key l) with
  | none => s
  | some e => (s.modConn e.1 (fun c => { c with probeDue := true })).zPump e.1

-- Rebinding (R332) -----------------------------------------------------------------------------------------------------------------------------------------

/-- Moves the incomplete requests of context `a` to context `b`, ahead of those there, and closes `a` without records. A context that is not cached is
fetched for them. -/
def State.zMove (s : State) (a b : Nat) : State :=
  match mfind s.zt.ctx a, mfind s.zt.ctx b with
  | some ca, some cb =>
    let no := s.connNo b
    let moved := ca.reqs.map (fun t => { t with r := { t.r with conn := no }, cut := 0, left := [], refused := false, poisoned := false })
    let s := ((s.setConn a { ca with reqs := [] }).setConn b { cb with reqs := moved ++ cb.reqs }).zCloseLocal a 2
    if cb.resident then s.zPump b else s.zFetch b
  | _, _ => s

/-- REBIND of connection numbers: whether both are the partition's and in a state to be rebound, and the state. Requests that wait in an
internal path follow. -/
def State.zRebind (s : State) (p old new : Nat) : Option State :=
  match s.partConn p old, s.partConn p new with
  | some (a, ca), some (b, cb) =>
    if a = b ∨ (ca.state ≠ 3 ∧ ca.state ≠ 4) ∨ cb.state = 5 then none else
    let s := { s with zt := { s.zt with int := s.zt.int.map (fun (r : ZReq) => if r.part = p ∧ r.conn = old ∧ r.client ≠ 5 then { r with conn := new } else r) } }
    some (s.zMove a b)
  | _, _ => none

/-- After the sequencer has changed bunting entries, the connections of those whose CONN changed are rebound (R332). -/
def State.zRebound (before s : State) (p : Nat) : State :=
  match s.bunt p with
  | none => s
  | some b => (List.range b.n).foldl (fun s m =>
      let old := before.memberConn p m
      let new := s.memberConn p m
      if old = new then s else (s.zRebind p old new).getD s) s

/-- PEER_UNREACHABLE: the partition's OPEN connections to the peer, its event, and the members that they reach (R233, R264). -/
def State.unreachable (s : State) (p id : Nat) : State :=
  let l := (s.connsOf p).filter (fun e => e.2.peerId == id && e.2.state == 3)
  if l.isEmpty then s else
  let s := l.foldl (fun s e => s.modConn e.1 (fun c => { c with state := 4 })) s
  let s := s.noteEv 0x19 3 p (Config.evDetail 0x19).toNat
  match s.bunt p with
  | none => s
  | some b => (List.range b.n).foldl (fun s m =>
      let hit := match s.partConn p (s.memberConn p m) with | some (_, c) => c.peerId == id | none => false
      if m = b.self ∨ !hit ∨ s.memberState p m = 2 then s
      else let s1 := s.memberLost p m; s1.zRebound (s1.takeoverSend p m) p) s

-- Receiving (R312, R323 to R326) ---------------------------------------------------------------------------------------------------------------------------------

/-- A packet number joins the received ranges, kept in decreasing order. -/
def addPn : List (Nat × Nat) → Nat → List (Nat × Nat)
  | [], x => [(x, x)]
  | (hi, lo) :: l, x =>
    if hi + 1 < x then (x, x) :: (hi, lo) :: l
    else if x = hi + 1 then (x, lo) :: l
    else if lo ≤ x then (hi, lo) :: l
    else if x + 1 = lo then
      (match l with
       | (h2, l2) :: l' => if h2 + 1 = x then (hi, l2) :: l' else (hi, x) :: (h2, l2) :: l'
       | [] => [(hi, x)])
    else (hi, lo) :: addPn l x

/-- Does a region-table entry (32 bytes) allow `len` bytes at `a` (R323)? -/
def State.regionHit (s : State) (p group a len : Nat) (b : List Byte) : Bool :=
  let base := leAt b 0 8
  let n := leAt b 8 8
  let g := leAt b 0x10 2
  (leAt b 0x12 1).testBit 0 && (g == 0xFFFF || g == group) && decide (base ≤ a) && decide (a + len ≤ base + n) &&
  (if base < pagedBase then
     (match s.owner p with | some o => decide (base + n ≤ o.size) | none => false)
   else if base < sharedBase then false
   else
     let r := (base - sharedBase) / sharedStep
     (match s.shared r, s.owner (16 + r) with
      | some e, some o => e.writer == p && decide ((base - sharedBase) % sharedStep + n ≤ o.size)
      | _, _ => false))

/-- The addresses of the region table's entries. -/
def State.regionEnts (s : State) (p : Nat) : List Nat :=
  (List.range (min 1024 (s.fget (ZTX_P_REGION_COUNT_COUNT p)))).map (fun i => s.fget (ZTX_P_REGION_BASE_BASE p) * 32 + 32 * i)

/-- Does the entry at `e` allow a message? -/
def State.regionAt (s : State) (p group a len e : Nat) : Bool :=
  match s.memGet p e 32 with
  | some b => s.regionHit p group a len b
  | none => false

/-- Is there a region for a message? -/
def State.regionOk (s : State) (p group a len : Nat) : Bool := len == 0 || (s.regionEnts p).any (s.regionAt p group a len)

/-- The look through the table, up to the entry that admits the message (R56, R272). -/
def State.regionSee (s : State) (p group a len : Nat) : State :=
  if len = 0 then s else
  let l := s.regionEnts p
  (l.take ((l.takeWhile (fun e => !s.regionAt p group a len e)).length + 1)).foldl (fun s e => s.memSee p zherisSrc e 32) s

/-- Records of messages in progress that a partition may hold (R324). -/
def State.recQuota (s : State) (p : Nat) : Nat := max 16 (ceilDiv (16384 * s.onchip p) 65536)
def State.recsOf (s : State) (p : Nat) : Nat := ((s.connsOf p).map (fun e => e.2.recs.length)).sum
def State.recsAll (s : State) : Nat := (s.zt.ctx.map (fun e => e.2.recs.length)).sum

/-- Segments of a message. -/
def segCount (seg len : Nat) : Nat := if len = 0 then 1 else ceilDiv len (2 ^ seg)

/-- The arrival record (R324). -/
def arrivalRecord (no seq : Nat) (r : ZRec) : List Byte :=
  leBytes 1 0x20 ++ leBytes 1 (b2n r.poisoned) ++ leBytes 2 0 ++ leBytes 4 no ++ leBytes 8 r.addr ++ leBytes 4 r.len ++ leBytes 4 r.imm ++
  leBytes 4 seq ++ leBytes 4 0

/-- Is message record `r` complete? -/
def ZRec.full (r : ZRec) (seg : Nat) : Bool := r.refused || r.segs.length == segCount seg r.len

/-- Announces completed messages in MSG_SEQ order (R324); one that needs a record and finds no place waits (R354). -/
def State.zAnnounce (i : Nat) : Nat → State → State
  | 0, s => s
  | n + 1, s =>
    match mfind s.zt.ctx i with
    | none => s
    | some c =>
      match mfind c.recs c.rcvDone with
      | none => s
      | some r =>
        let p := c.part
        if !r.full c.seg then s
        else if !r.refused && r.mflags.testBit 1 && !s.hlqRoom p then s.fset (HIF_P_STATUS_HLQ_FULL p) 1
        else
          let s := if !r.refused && r.mflags.testBit 1 then s.cplPut p (arrivalRecord (s.connNo i) c.rcvDone r) else s
          let s := if !r.refused && r.mflags.testBit 0 then s.sigAdd p r.sig r.inc else s
          State.zAnnounce i n (s.setConn i { c with rcvDone := (c.rcvDone + 1) % 2 ^ 32, recs := mdel c.recs c.rcvDone, ackDue := true })

/-- The lines that a segment touches become poisoned (R325). -/
def State.zPoison (s : State) (p a n : Nat) : State :=
  (linePieces a n).foldl (fun s (e : Nat × Nat) => s.memPoison p zherisSrc e.1) s

/-- A DATA packet as its fields (R313). -/
structure ZData where
  seq : Nat
  off : Nat
  len : Nat
  imm : Nat
  addr : Nat
  mflags : Nat
  sig : Nat
  inc : Nat
  payload : List Byte

def parseData (b : List Byte) : ZData :=
  ⟨leAt b 0 4, leAt b 4 4, leAt b 8 4, leAt b 0xC 4, leAt b 0x10 8, leAt b 0x18 1, leAt b 0x19 1, leAt b 0x1A 2, b.drop 32⟩

/-- Are the fields of a segment those of its message's record? POISON belongs to the segment. -/
def ZRec.agrees (r : ZRec) (d : ZData) : Bool :=
  r.len == d.len && r.imm == d.imm && r.addr == d.addr && r.mflags % 4 == d.mflags % 4 && r.sig == d.sig && r.inc == d.inc

/-- Is a DATA packet well formed for its connection: reserved fields 0, MSG_LEN at most L, OFFSET and the payload as the segment size says? -/
def ZData.ok (d : ZData) (c : Conn) (b : List Byte) : Bool :=
  decide (32 ≤ b.length) && decide (d.mflags < 8) && zeroAt b 0x1C 4 && decide (d.len ≤ c.msgBytes) && d.off % 2 ^ c.seg == 0 &&
  decide (d.off / 2 ^ c.seg < segCount c.seg d.len) && d.payload.length == min (2 ^ c.seg) (d.len - d.off)

/-- The packet with number `pn` may be acknowledged from time `now` on. -/
def Conn.gotPn (c : Conn) (now pn : Nat) : Conn :=
  { c with pns := addPn c.pns pn, lastArr := if c.pns.head?.all (fun r => decide (r.1 < pn)) then now else c.lastArr }

/-- A segment's bytes, or the poison of its lines, written through the connection's port; whether a route carried them (R56, R324, R325). -/
def State.zStore (s : State) (c : Conn) (a : Nat) (bs : List Byte) (bad : Bool) : State × Bool :=
  match s.portStop c.part c.port a bs.length with
  | some l => (s.violate c.part 3 zherisSrc l, false)
  | none => (if bad then s.zPoison c.part a bs.length else s.memPut c.part zherisSrc a bs .inPlace, true)

/-- A DATA packet's segment placed (R324): its bytes, its bit, and what its completion announces. -/
def State.zPlace (s : State) (i pn : Nat) (c : Conn) (r : ZRec) (d : ZData) : State :=
  let g := d.off / 2 ^ c.seg
  if r.refused || r.segs.contains g then s.setConn i (c.gotPn s.now pn) else
  let bad := d.mflags.testBit 2
  let (s, carried) := s.zStore c (d.addr + d.off) d.payload bad
  if !carried then s else
  let r := { r with segs := sins r.segs g, poisoned := r.poisoned || bad }
  let c := (c.gotPn s.now pn)
  let s := s.setConn i { c with recs := mins c.recs d.seq r, ackDue := c.ackDue || r.full c.seg }
  State.zAnnounce i (c.recs.length + 1) s

/-- The first segment of a message: a record, and the region that decides for the whole message (R323). -/
def State.zFirst (s : State) (i pn : Nat) (c : Conn) (d : ZData) : State :=
  let p := c.part
  let ok := s.regionOk p c.group d.addr d.len
  let s := s.regionSee p c.group d.addr d.len
  let r : ZRec := ⟨d.len, d.imm, d.addr, d.mflags % 4, d.sig, d.inc, !ok, false, []⟩
  if ok then (s.setConn i { c with recs := mins c.recs d.seq r }).zPlace i pn { c with recs := mins c.recs d.seq r } r d
  else
    let c := { c.gotPn s.now pn with recs := mins c.recs d.seq r, tell := c.tell ++ [d.seq], ackDue := true }
    let s := ((s.setConn i c).zFault p 2 (s.connNo i)).violate p 5 zherisSrc d.addr
    State.zAnnounce i (c.recs.length + 1) s

/-- An authenticated DATA segment (R324). -/
def State.zData (s : State) (i pn : Nat) (ce : Bool) (b : List Byte) : State :=
  match mfind s.zt.ctx i with
  | none => s
  | some c =>
    let d := parseData b
    let c := { c with rxPkts := (c.rxPkts + 1) % 2 ^ 32, rxCe := (c.rxCe + b2n ce) % 2 ^ 32, unacked := c.unacked + 1,
                      ackDue := c.ackDue || decide (max 1 (s.fget ZTX_ACK_CFG_ACK_PKTS) ≤ c.unacked + 1) }
    let s := s.setConn i c
    if !d.ok c b then s.fsat ZTX_STALE_COUNT 1
    else if ahead 32 c.rcvDone d.seq ≠ 0 ∧ ahead 32 c.rcvDone d.seq < 2 ^ 31 then s.setConn i (c.gotPn s.now pn)
    else match mfind c.recs d.seq with
      | some r => if r.agrees d then s.zPlace i pn c r d else s.fsat ZTX_STALE_COUNT 1
      | none =>
        if s.recQuota c.part ≤ s.recsOf c.part ∨ 16384 ≤ s.recsAll then s
        else s.zFirst i pn c d

-- ACKs at the sender (R327) -----------------------------------------------------------------------------------------------------------------------------------------

/-- PN ranges of an ACK. -/
def ackRanges (b : List Byte) : List (Nat × Nat) :=
  let top := leAt b 0x10 6
  (List.range (leAt b 0x18 1)).map (fun r => (top - leAt b (0x20 + 8 * r + 4) 4, top - leAt b (0x20 + 8 * r) 4))

/-- A segment is acknowledged; with its last one the message is. -/
def Conn.ackSeg (c : Conn) (e : Nat × Nat) : Conn :=
  match mfind c.msgs e.1 with
  | none => c
  | some m =>
    let segs := sdel m.segs e.2
    if segs.isEmpty then
      { c with msgs := mdel c.msgs e.1, reqs := c.reqs.map (fun t => { t with left := sdel t.left e.1 }) }
    else { c with msgs := mins c.msgs e.1 { m with segs := segs } }

/-- Transmissions that REORDER makes lost (R327). -/
def State.zLost (s : State) (c : Conn) : Conn :=
  let k := max 1 (s.fget ZTX_ACK_CFG_REORDER)
  let lost := c.flight.filter (fun e => decide (e.1 + k ≤ c.maxAck))
  { c with flight := c.flight.filter (fun e => decide (c.maxAck < e.1 + k)), resend := c.resend ++ lost.map (·.2),
           late := lost.foldl (fun m e => mins m e.1 e.2) c.late, away := c.away && lost.isEmpty }

/-- An authenticated ACK. `rtt` is the time since the newest transmission that it acknowledges was sent, in 10 ns. -/
def State.zAcked (s : State) (i rtt : Nat) (b : List Byte) : State :=
  match mfind s.zt.ctx i with
  | none => s
  | some c =>
    let n := leAt b 0x18 1
    if b.length < 0x20 + 8 * n ∨ n = 0 ∨ 16 < n ∨ !zeroAt b 0x1A 2 ∨ 2 ≤ leAt b 0x19 1 then s.fsat ZTX_STALE_COUNT 1 else
    let rs := ackRanges b
    let hit := (c.flight ++ c.late).filter (fun e => rs.any (fun r => decide (r.1 ≤ e.1) && decide (e.1 ≤ r.2)))
    let top := max c.maxAck (min (leAt b 0x10 6) (c.nextPn - 1))
    let fresh := !hit.isEmpty || decide (c.maxAck < top)
    let c := { c with flight := c.flight.filter (fun e => !hit.contains e), late := c.late.filter (fun e => !hit.contains e),
                      resend := c.resend.filter (fun e => !hit.any (fun h => h.2 == e)), maxAck := top, peerDone := leAt b 0 4,
                      rxNow := (leAt b 4 4, leAt b 8 4) }
    let c := if (leAt b 0x19 1).testBit 0 then
        { c with reqs := c.reqs.map (fun t => if t.left.contains (leAt b 0x1C 4) then { t with refused := true } else t) } else c
    let c := hit.foldl (fun c e => c.ackSeg e.2) c
    let c := if hit.isEmpty then c else { c with srtt := some (rttSample c.srtt ((rtt - leAt b 0x16 2) * 256)) }
    let c := if fresh then { c with rto := s.rtoOf c } else c
    (((s.setConn i (s.zLost c)).zCompleteAll i).zPump i)

/-- RTO_EXPIRY: the transmission with number `pn` is lost; RTO doubles, R halves. `all`: every unacknowledged packet is older than RTO, so a
PROBE goes too (R327, R329). -/
def State.zRto (s : State) (i pn : Nat) (all : Bool) : State :=
  match mfind s.zt.ctx i with
  | none => s
  | some c =>
    match mfind c.flight pn with
    | none => s
    | some e =>
      (s.setConn i { c with flight := mdel c.flight pn, resend := c.resend ++ [e], late := mins c.late pn e, away := false, rto := min s.rtoMax (2 * c.rto),
                            rate := s.rateMin.max (c.rate.div 2), goodN := 0, probeDue := c.probeDue || all }).zPump i

-- Setup packets (R316, R317) ---------------------------------------------------------------------------------------------------------------------------------------------

/-- Do the signature and the fields of a HELLO or HELLO_ACK pass R316's checks? Its signature begins at byte `n` of its body. -/
def State.helloOk (s : State) (c : Conn) (k : ZPkt) (n : Nat) : Bool :=
  k.body.length == n + 114 &&
  edVerify (bytesAt c.desc 0x40 57) zContext (shake256 (k.header ++ k.body.take n) 64) (bytesAt k.body n 114) &&
  leAt k.body 8 8 == c.peerId && leAt k.body 0 4 == c.peerConn && leAt k.body 4 1 == c.root && s.nv.rootEn.testBit (leAt k.body 4 1)

def State.authFail (s : State) : State := s.fsat ZTX_AUTH_FAIL_COUNT 1

/-- HELLO at a responder. -/
def State.zHelloIn (s : State) (i : Nat) (c : Conn) (k : ZPkt) : State :=
  let b := k.body
  if !s.helloOk c k 0x30 then s.authFail
  else if !zeroAt b 6 2 then s.fsat ZTX_STALE_COUNT 1
  else
    let nonce := bytesAt b 0x10 32
    if c.state = 1 then
      -- the nonce and the keys need randomness (R408)
      if s.fbit SEC_STATUS_RNG_FAULT then s else
      let (nr, s) := s.freeBytes 32
      ((s.zOpened i { c with nonceI := nonce, nonceR := nr } (leAt b 5 1)).zHello i).zPump i
    else if c.role = 1 ∧ (c.state = 3 ∨ c.state = 4) ∧ nonce = c.nonceI then s.zHello i
    else s.authFail

/-- HELLO_ACK at an initiator: one that comes when the connection no longer waits for it is only checked. -/
def State.zHelloAckIn (s : State) (i : Nat) (c : Conn) (k : ZPkt) : State :=
  let b := k.body
  if !s.helloOk c k 0x50 then s.authFail
  else if c.state ≠ 2 then s
  else if bytesAt b 0x30 32 != c.nonceI then s.authFail
  else if !zeroAt b 6 2 then s.fsat ZTX_STALE_COUNT 1
  else (s.zOpened i { c with nonceR := bytesAt b 0x10 32 } (leAt b 5 1)).zPump i

/-- A CLOSE from the peer (R331). -/
def State.zPeerClose (s : State) (i : Nat) (c : Conn) : State :=
  ((s.modConn i (fun c => { c with closeTries := 3 })).zClose i 3).noteEv 0x1A 0 c.part (Config.evDetail 0x1A).toNat

/-- What an authenticated packet of types DATA, ACK, PROBE and CLOSE leaves on its connection: its PN, and the ACK that it makes due. -/
def State.zSeen (s : State) (i pn typ flags : Nat) (c : Conn) : State :=
  let gap := decide (c.largest + 1 < pn)
  let c' := { c with ackDue := c.ackDue || gap || flags.testBit 0 || typ == 3, largest := max c.largest pn }
  (s.setConn i (if typ = 1 then c' else c'.gotPn s.now pn)).zHeard c.part c.peerId

/-- A packet for a cached context (R312 to R317, R324). -/
def State.zHandle (s : State) (i : Nat) (k : ZPkt) (rtt : Nat) : State :=
  match mfind s.zt.ctx i with
  | none => s.fsat ZTX_STALE_COUNT 1
  | some c =>
    let typ := leAt k.header 0 1 % 16
    let pn := leAt k.header 8 6
    if typ = 8 then s.zHelloIn i c k
    else if typ = 9 then s.zHelloAckIn i c k
    else if c.state ≠ 3 ∧ c.state ≠ 4 ∧ c.state ≠ 5 then s.authFail
    else match c.opened pn k.header k.body with
    | none => s.authFail
    | some body =>
      if c.state = 5 then s else
      let s := s.touchConn i
      let s := s.zSeen i pn typ (leAt k.header 1 1) { c with used := s.zt.useN }
      let s := match typ with
        | 1 => s.zData i pn k.ce body
        | 2 => s.zAcked i rtt body
        | 3 => if zeroAt body 0 8 then s else s.fsat ZTX_STALE_COUNT 1
        | _ => if zeroAt body 1 7 then s.zPeerClose i c else s.fsat ZTX_STALE_COUNT 1
      let s := if pn = 2 ^ 48 - 1 ∧ typ ≠ 4 then s.zExhausted i else s
      s.zPump i

/-- May the miss queue take one more packet of partition `p` (R334)? -/
def State.missRoom (s : State) (p : Nat) : Bool :=
  decide (s.zt.miss.length < 512) &&
  decide ((s.zt.miss.filter (fun e => match mfind s.zt.ctx e.1 with | some c => c.part == p | none => false)).length < 256)

/-- A packet for a context that is not cached (R334, R335). -/
def State.zMiss (s : State) (i : Nat) (c : Conn) (k : ZPkt) : State :=
  if s.zHostLost c.part then s
  else if !s.missRoom c.part then s.fsat ZTX_MISS_DROPS_COUNT 1
  else
    let s := { s with zt := { s.zt with miss := s.zt.miss ++ [(i, k)] } }
    (s.fset ZTX_MISSQ_PEAK (max (s.fget ZTX_MISSQ_PEAK) s.zt.miss.length)).zFetch i

/-- Is the common header one that R312 does not drop, but for its DST_CONN? -/
def headerOk (h : List Byte) : Bool :=
  let t := leAt h 0 1 % 16
  leAt h 0 1 / 16 == 1 && (t == 1 || t == 2 || t == 3 || t == 4 || t == 8 || t == 9) && decide (leAt h 1 1 < 2) && zeroAt h 2 2 && zeroAt h 14 2

/-- A Zheris packet arrives. Packets of another type than `typ` are another command's. -/
def State.zArrive (s : State) (typ : Nat) (k : ZPkt) (rtt : Nat) : State :=
  if !s.zOn then s else
  let s := s.takeFrame k.port k.sub
  if s.portOff k.port then s.sticky (ETH_STICKY_RX_DROP k.port)
  else if !headerOk k.header then s.fsat ZTX_STALE_COUNT 1
  else if leAt k.header 0 1 % 16 ≠ typ then s
  else match s.findConn (leAt k.header 4 4) with
    | none => s.fsat ZTX_STALE_COUNT 1
    | some (i, c) =>
      let st := s.fget (FAB_PART_STATE_P c.part)
      if s.subHolder k.port k.sub ≠ some c.part then s.fsat ZTX_STALE_COUNT 1
      else if st = 2 ∨ st = 3 then s
      else if c.resident then s.zHandle i k rtt
      else s.zMiss i c k

-- The context cache (R333 to R335) -----------------------------------------------------------------------------------------------------------------------------------------

/-- Writes a context back, sealed, to the host's backing table. Send requests that it holds wait for its next fetch, which is asked for (R334). -/
def State.zEvict (s : State) (i : Nat) : State :=
  let (b, s) := s.freeBytes 256
  let s := (s.hostWrite (s.fget ZTX_CTX_BASE_BASE * 2 ^ 12 + 256 * i) b).modConn i (fun c => { c with resident := false })
  if (mfind s.zt.ctx i).any (fun c => !c.reqs.isEmpty) then s.zFetch i else s

/-- A free slot of the partition's share of the cache, after an eviction if it is full; none while it has to wait. -/
def State.zSlot (s : State) (p : Nat) : Option State :=
  let held := (s.connsOf p).filter (fun e => e.2.resident)
  if held.length < s.onchip p then some s
  else if s.zHostLost p then none
  else (minBy (fun (e : Nat × Conn) => e.2.used) (held.filter (fun e => !e.2.pinned))).map (fun e => s.zEvict e.1)

/-- CONTEXT_FETCH_COMPLETE: the context takes a slot and its queued packets are handled in arrival order; a failed seal check closes it with
LOST_CONTEXT and fault 0x03. `rtts` gives the round-trip times of the queued ACKs. -/
def State.fetchDone (s : State) (i : Nat) (ok : Bool) (rtts : List Nat) : State :=
  match mfind s.zt.ctx i with
  | none => s
  | some c =>
    if !s.zt.fetch.contains i || c.resident || s.zHostLost c.part then s else
    let q := (s.zt.miss.filter (fun e => e.1 == i)).map (·.2)
    let drop := fun (s : State) => { s with zt := { s.zt with fetch := sdel s.zt.fetch i, miss := s.zt.miss.filter (fun e => e.1 != i) } }
    if !ok then ((drop s).zFault c.part 3 (s.connNo i)).zClose i 4
    else match s.zSlot c.part with
      | none => s
      | some s =>
        let s := (drop s).modConn i (fun c => { c with resident := true })
        -- segments for a partition that is DRAINING or SCRUBBING are dropped (R50)
        let st : Nat := s.fget (FAB_PART_STATE_P c.part)
        let q : List ZPkt := if st = 2 ∨ st = 3 then [] else q
        let s := ((q.zipIdx).foldl (fun s (e : ZPkt × Nat) => s.zHandle i e.1 (rtts.getD e.2 0)) s)
        s.zPump i

-- Operations (R318, R331, R332) ---------------------------------------------------------------------------------------------------------------------------------------------

/-- Writes BUSY and CODE of ZTX_Pp_OP_STATUS. -/
def State.opCode (s : State) (p code : Nat) : State := s.fsets [(ZTX_P_OP_STATUS_BUSY p, 0), (ZTX_P_OP_STATUS_CODE p, code)]

/-- The lowest number that a rising list does not hold, from `n` up. -/
def lowestFree : List Nat → Nat → Nat
  | [], n => n
  | a :: l, n => if a = n then lowestFree l (n + 1) else n

/-- Are the fields of an open descriptor in range, and its sub-port the partition's (R318)? -/
def State.descOk (s : State) (p : Nat) (d : List Byte) : Bool :=
  decide (leAt d 0 1 ≤ 1) && decide (leAt d 1 1 ≤ 7) && decide (leAt d 2 1 ≤ 63) && decide (leAt d 3 1 < 8) && decide (leAt d 4 1 ≤ 15) &&
  decide (leAt d 5 1 ≤ 3) && decide (leAt d 6 1 ≤ 7) && decide (10 ≤ leAt d 7 1) && decide (leAt d 7 1 ≤ 13) && decide (leAt d 8 2 ≤ 0xFFF) &&
  zeroAt d 0x1E 2 && zeroAt d 0x79 7 && s.subHolder (leAt d 4 1) (leAt d 5 1) == some p && s.nv.rootEn.testBit (leAt d 6 1)

/-- Would one more peer of partition `p` exceed the 1,024 entries of the peer table (R330)? -/
def State.peersFull (s : State) (p id : Nat) : Bool :=
  let l := (s.zt.ctx.filter (fun e => e.2.state != 5)).map (fun e => (e.2.part, e.2.peerId))
  let u := l.foldl (fun (m : List (Nat × Nat)) x => if m.contains x then m else x :: m) []
  !u.contains (p, id) && decide (1024 ≤ u.length)

/-- A new context; R starts at the line rate (R329). -/
def State.newConn (s : State) (p : Nat) (d : List Byte) (nonce : List Byte) : Conn :=
  let c : Conn :=
  { part := p, state := if leAt d 0 1 = 1 then 1 else 2, desc := d, seg := leAt d 7 1, nonceI := nonce, nonceR := [], keys := [], sign := [],
    resident := true, used := s.zt.useN, nextSeq := 0, nextPn := 1, reqs := [], msgs := [], flight := [], resend := [], fresh := [], late := [], away := false, maxAck := 0,
    peerDone := 0, srtt := none, rto := s.rtoMin, rate := Ratio.nat 0, cong := Ratio.nat 0, goodN := 0, rxNow := (0, 0), rxLast := (0, 0),
    closeTries := 0, closeReason := 1, endStatus := 2, probeDue := false, rcvDone := 0, recs := [], pns := [], largest := 0, rxPkts := 0,
    rxCe := 0, unacked := 0, lastArr := 0, tell := [], ackDue := false }
  { c with rate := s.lineRate c }

/-- OPEN (R318, R333): checks, the lowest free index, and HELLO for an initiator. -/
def State.zOpen (s : State) (p : Nat) : State :=
  let s := { s with zt := { s.zt with opens := sdel s.zt.opens p } }
  match s.memGet p (s.fget (ZTX_P_OPEN_DESC_BASE p) * 128) 128 with
  | none => (s.memSee p zherisSrc (s.fget (ZTX_P_OPEN_DESC_BASE p) * 128) 128).opCode p 4
  | some d =>
    let mine := s.connsOf p
    if !s.descOk p d then s.opCode p 4
    -- a nonce needs randomness (R408, log entry 207)
    else if leAt d 0 1 = 0 ∧ s.fbit SEC_STATUS_RNG_FAULT then s.opCode p 4
    else if ((s.sect p).map (·.host)).getD 0 ≤ mine.length then s.opCode p 2
    else if (leAt d 3 1).testBit 2 ∧ s.onchip p - 1 ≤ (mine.filter (fun e => e.2.pinned)).length then s.opCode p 3
    else if s.peersFull p (leAt d 0x10 8) then s.opCode p 5
    else match s.zSlot p with
      | none => { s with zt := { s.zt with opens := sins s.zt.opens p } }.fset (ZTX_P_OP_STATUS_BUSY p) 1
      | some s =>
        let i := lowestFree (mkeys s.zt.ctx) 0
        let (nonce, s) := if leAt d 0 1 = 0 then s.freeBytes 32 else ([], s)
        let s := (s.setConn i (s.newConn p d nonce)).touchConn i
        let s := ((s.opCode p 0).fset (ZTX_P_OP_RESULT_VALUE p) (s.connNo i))
        if leAt d 0 1 = 0 then s.zHello i else s

/-- OPEN operations that wait for a slot are tried again. -/
def State.zRetryOpens (s : State) : State := s.zt.opens.foldl (fun s p => s.zOpen p) s

/-- CLOSE (R331). -/
def State.zCloseOp (s : State) (p : Nat) : State :=
  match s.partConn p (s.fget (ZTX_P_OP_ARG_CONN p)) with
  | none => s.opCode p 1
  | some (i, c) => if c.state = 3 ∨ c.state = 4 then (s.zCloseLocal i 1).opCode p 0 else s.opCode p 1

/-- RELEASE (R319, R331): the context is FREE and its generation advances. -/
def State.zRelease (s : State) (p : Nat) : State :=
  match s.partConn p (s.fget (ZTX_P_OP_ARG_CONN p)) with
  | none => s.opCode p 1
  | some (i, c) =>
    if c.state ≠ 5 ∨ !c.reqs.isEmpty then s.opCode p 1
    else (({ s with zt := { s.zt with ctx := mdel s.zt.ctx i, gens := mset 0 s.zt.gens i ((mget 0 s.zt.gens i + 1) % 4096),
                                      fetch := sdel s.zt.fetch i, miss := s.zt.miss.filter (fun e => e.1 != i) } }).opCode p 0).zRetryOpens

/-- REBIND (R332). -/
def State.zRebindOp (s : State) (p : Nat) : State :=
  match s.zRebind p (s.fget (ZTX_P_OP_ARG_CONN p)) (s.fget (ZTX_P_OP_ARG_NEW_CONN p)) with
  | none => s.opCode p 1
  | some s => s.opCode p 0

/-- QUERY (R319): STATE, RESIDENT, PINNED, R in units of 100 Mb/s and the incomplete requests. -/
def State.zQuery (s : State) (p : Nat) : State :=
  match s.partConn p (s.fget (ZTX_P_OP_ARG_CONN p)) with
  | none => s.opCode p 1
  | some (_, c) =>
    (s.fsets [(ZTX_P_OP_RESULT_VALUE p, c.state * 2 ^ 29 + b2n c.resident * 2 ^ 28 + b2n c.pinned * 2 ^ 27),
              (ZTX_P_OP_RESULT_RATE p, c.rate.num / (c.rate.den * 12500000)),
              (ZTX_P_OP_RESULT_PENDING p, min 0xFFFF c.reqs.length)]).opCode p 0

/-- A write of ZTX_Pp_OP: the operation, unless one is in progress or the engine does not run. -/
def State.zOp (s : State) (p op : Nat) : State :=
  if s.fbit (ZTX_P_OP_STATUS_BUSY p) || !s.zOn then s else
  match op with
  | 1 => s.zOpen p
  | 2 => s.zCloseOp p
  | 3 => s.zRelease p
  | 4 => s.zRebindOp p
  | 5 => s.zQuery p
  | _ => s

-- Timers ------------------------------------------------------------------------------------------------------------------------------------------------------------------------

/-- What a timer of context `n` (a connection number) does while it is in one of `states`. -/
def State.zTimer (s : State) (n : Nat) (states : List Nat) (f : Nat → Conn → State) : State :=
  if !s.zOn then s else
  match s.findConn n with
  | none => s
  | some (i, c) => if states.contains c.state then f i c else s

/-- SETUP_TIMEOUT: CLOSED with fault 0x04 (R317, R336). -/
def State.setupTimeout (s : State) (n : Nat) : State :=
  s.zTimer n [2] (fun i c => (s.zFault c.part 4 n).zClose i 2)

/-- CLOSE_REPEAT: up to three times. -/
def State.closeRepeat (s : State) (n : Nat) : State :=
  s.zTimer n [5] (fun i c =>
    if c.closeTries < 3 ∧ !c.keys.isEmpty then (s.zSendClose i c.closeReason).modConn i (fun c => { c with closeTries := c.closeTries + 1 }) else s)

/-- ACK_DELAY_EXPIRY. -/
def State.ackDelay (s : State) (n : Nat) : State :=
  s.zTimer n [3, 4] (fun i c => if c.unacked = 0 then s else (s.setConn i { c with ackDue := true }).zPump i)

-- Called by other units -------------------------------------------------------------------------------------------------------------------------------------------------------------

/-- A place of the host-lost queue is free again: requests and messages that waited for one go on (R354). -/
def State.zDrain (s : State) (p : Nat) : State :=
  (s.connsOf p).foldl (fun s e => ((State.zAnnounce e.1 (e.2.recs.length) s).zCompleteAll e.1).zPump e.1) s

/-- Partition `p` is host-lost (R335, R358): packets queued for its fetches are dropped. -/
def State.zLoseHost (s : State) (p : Nat) : State :=
  let mine := fun (i : Nat) => (mfind s.zt.ctx i).any (fun c => c.part == p)
  { s with zt := { s.zt with fetch := s.zt.fetch.filter (fun i => !mine i), miss := s.zt.miss.filter (fun e => !mine e.1) } }

/-- Connections of `p` whose context lies in host memory close with LOST_CONTEXT and fault 0x03 (R360). -/
def State.zLoseContexts (s : State) (p : Nat) : State :=
  ((s.connsOf p).filter (fun e => !e.2.resident)).foldl (fun s e => (s.zFault p 3 (s.connNo e.1)).zClose e.1 4) s

/-- A lowered CONN_ONCHIP evicts the excess contexts, least recently used first (R45); while the host is lost none is evicted (R335). -/
def State.zTrim (p : Nat) : Nat → State → State
  | 0, s => s
  | n + 1, s =>
    let held := (s.connsOf p).filter (fun e => e.2.resident)
    if held.length ≤ s.onchip p || s.zHostLost p then s
    else match minBy (fun (e : Nat × Conn) => e.2.used) (held.filter (fun e => !e.2.pinned)) with
      | none => s
      | some e => State.zTrim p n (s.zEvict e.1)

/-- Fetching resumes: contexts beyond a lowered CONN_ONCHIP are evicted, contexts with requests are fetched, and OPENs that waited go on. -/
def State.zFindHost (s : State) (p : Nat) : State :=
  let s := s.fset ZTX_MISSQ_HOST_LOST 0
  let s := State.zTrim p (s.connsOf p).length s
  let s := ((s.connsOf p).filter (fun e => !e.2.resident && !e.2.reqs.isEmpty)).foldl (fun s e => s.zFetch e.1) s
  s.zRetryOpens

/-- A link root index is retired: its connections close (R407). -/
def State.zRetireRoot (s : State) (x : Nat) : State :=
  (s.zt.ctx.filter (fun e => e.2.root == x && (e.2.state == 3 || e.2.state == 4))).foldl (fun s e => s.zClose e.1 2) s

/-- The transmit path of a sub-port enters LPI (R302): no frame waits, of the Zheris engine either. -/
def State.subIdle (s : State) (j k : Nat) : State :=
  if s.zt.ctx.any (fun e => e.2.port == j && e.2.sub == k && e.2.resident && (e.2.state == 3 || e.2.state == 4) && s.zHas e.1 e.2) then s else s.lpiEntry j k

-- Commands -------------------------------------------------------------------------------------------------------------------------------------------------------------------------------

def execZtxSendRequest (p : Nat) (internal : Bool) (s : State) : Host.Outcome State Fault Refusal := onUnit (p < 16) (s.zSendReq p internal)
def execDataPacket (k : ZPkt) (s : State) : Host.Outcome State Fault Refusal := onUnit (subOk k.port k.sub) (s.zArrive 1 k 0)
def execAckPacket (k : ZPkt) (rtt : Nat) (s : State) : Host.Outcome State Fault Refusal := onUnit (subOk k.port k.sub) (s.zArrive 2 k rtt)
def execProbePacket (k : ZPkt) (s : State) : Host.Outcome State Fault Refusal := onUnit (subOk k.port k.sub) (s.zArrive 3 k 0)
def execClosePacket (k : ZPkt) (s : State) : Host.Outcome State Fault Refusal := onUnit (subOk k.port k.sub) (s.zArrive 4 k 0)
def execHelloPacket (k : ZPkt) (s : State) : Host.Outcome State Fault Refusal := onUnit (subOk k.port k.sub) (s.zArrive 8 k 0)
def execHelloAckPacket (k : ZPkt) (s : State) : Host.Outcome State Fault Refusal := onUnit (subOk k.port k.sub) (s.zArrive 9 k 0)
def execHelloRepeat (n : Nat) (s : State) : Host.Outcome State Fault Refusal := .next (s.zTimer n [2] (fun i _ => s.zHello i))
def execSetupTimeout (n : Nat) (s : State) : Host.Outcome State Fault Refusal := .next (s.setupTimeout n)
def execCloseRepeat (n : Nat) (s : State) : Host.Outcome State Fault Refusal := .next (s.closeRepeat n)
def execRtoExpiry (n pn : Nat) (all : Bool) (s : State) : Host.Outcome State Fault Refusal :=
  .next (s.zTimer n [3, 4] (fun i _ => s.zRto i pn all))
def execAckDelayExpiry (n : Nat) (s : State) : Host.Outcome State Fault Refusal := .next (s.ackDelay n)
def execRatePeriod (n : Nat) (s : State) : Host.Outcome State Fault Refusal :=
  .next (s.zTimer n [3, 4] (fun i c => if c.reqs.isEmpty then s else s.setConn i (s.ratePeriod c)))
def execRateIdleReset (n : Nat) (s : State) : Host.Outcome State Fault Refusal :=
  .next (s.zTimer n [3, 4] (fun i c => s.setConn i { c with rate := s.lineRate c, cong := Ratio.nat 0 }))
def execKeepaliveExpiry (p id : Nat) (s : State) : Host.Outcome State Fault Refusal :=
  onUnit (p < 16) (if s.zOn then s.keepalive p id else s)
def execPeerUnreachable (p id : Nat) (s : State) : Host.Outcome State Fault Refusal :=
  onUnit (p < 16) (if s.zOn then s.unreachable p id else s)
def execContextFetchComplete (i : Nat) (ok : Bool) (rtts : List Nat) (s : State) : Host.Outcome State Fault Refusal :=
  .next (if s.zOn then s.fetchDone i ok rtts else s)

/-- The takeover of a member's index, with the REBIND of R332. -/
def execTakeoverNotice (p : Nat) (note : List Byte) (s : State) : Host.Outcome State Fault Refusal :=
  onUnit (p < 16) (s.zRebound (s.takeoverNotice p note) p)
/-- A page comes in; sends that waited for it go on. -/
def execPageInComplete (p g : Nat) (h : HostStores) (s : State) : Host.Outcome State Fault Refusal :=
  onUnit (p < 16) (((s.hostStores h).pageDone p g).zPumpPart p)
def execPauseFrameReceived (j k : Nat) (pfc : Bool) (times : List (Nat × Nat)) (s : State) : Host.Outcome State Fault Refusal :=
  onUnit (subOk j k) ((s.pauseReceived j k pfc times).subGo j k)
def execPauseExpiry (j k q : Nat) (s : State) : Host.Outcome State Fault Refusal :=
  onUnit (subOk j k && q < 8) ((s.pauseOver j k q).subGo j k)
def execLinkUp (j k : Nat) (an : Bool) (cable : Option (Nat × Nat)) (s : State) : Host.Outcome State Fault Refusal :=
  onUnit (subOk j k) ((s.linkRise j k an cable).subGo j k)
def execLpiExit (j k : Nat) (s : State) : Host.Outcome State Fault Refusal := onUnit (subOk j k) ((s.lpiExit j k).subGo j k)
def execLpiEntry (j k : Nat) (s : State) : Host.Outcome State Fault Refusal := onUnit (subOk j k) (s.subIdle j k)
def execTxFrameSent (j k : Nat) (s : State) : Host.Outcome State Fault Refusal := onUnit (subOk j k) ((s.txFrame j k).subGo j k)

end Sys2Proof.Machine
end

