-- ==== Sys2Proof/Machine/HostIf.lean ====
section
/-!
DEFINITION. The host interface (R337 to R361): the data window, page bias, command rings, the completion ring and the host-lost queue, host
loss and re-attachment.
-/
namespace Sys2Proof.Machine

-- The window rules (R341) ---------------------------------------------------------------------------------------------------------------------------

/-- What R341 says of one PMS address for the host: 0 permitted, 1 in the partition's memory space but forbidden, 2 outside it. -/
def State.hostClass (s : State) (p a : Nat) (write : Bool) : Nat :=
  if a < pagedBase then
    match s.owner p with
    | none => 2
    | some o => if o.size ≤ a then 2 else if o.spillBase ≤ a ∨ s.scrubs p then 1 else 0
  else if a < sharedBase then (if (a - pagedBase) / 2 ^ 21 < s.pages p then 1 else 2)
  else
    let r := (a - sharedBase) / sharedStep
    match s.shared r, s.owner (16 + r) with
    | some e, some o =>
      if r ≥ 8 ∨ o.size ≤ (a - sharedBase) % sharedStep ∨ !(e.readers.testBit p || e.writer == p) then 2
      else if !e.readers.testBit p ∨ (write ∧ e.writer ≠ p ∧ e.writer ≠ 0xFF) ∨ s.scrubs (16 + r) then 1 else 0
    | _, _ => 2

/-- A refused piece of a host access. -/
def State.hostViolate (s : State) (p a : Nat) : State := s.violate p 6 hostSrc (s.violAddr p a)

/-- A read of `n` bytes through the window: the bytes, and whether any is poisoned or refused (R342). `dev` is false for CXL.mem. -/
def State.winRead (s : State) (p a n : Nat) (dev : Bool) : State × List Byte × Bool :=
  (linePieces a n).foldl (fun (acc : State × List Byte × Bool) (pc : Nat × Nat) =>
    let (s, bs, bad) := acc
    if s.hostClass p pc.1 false ≠ 0 then (s.hostViolate p pc.1, bs ++ List.replicate pc.2 0, true)
    else
      let r := s.memRead p pc.1 pc.2 .inPlace dev
      (r.1, bs ++ r.2.bytes, bad || !r.2.ok)) (s, [], false)

/-- A write through the window: a refused piece is discarded as a violation. The addresses of pieces that met poison are answered. -/
def State.winWrite (s : State) (p a : Nat) (bs : List Byte) (dev : Bool) : State × List Nat :=
  (linePieces a bs.length).foldl (fun (acc : State × List Nat) (pc : Nat × Nat) =>
    let (s, bad) := acc
    if s.hostClass p pc.1 true ≠ 0 then (s.hostViolate p pc.1, bad)
    else
      let r := s.memWrite p pc.1 ((bs.drop (pc.1 - a)).take pc.2) .host dev
      (r.1, bad ++ r.2.bad)) (s, [])

/-- BAR2 by CXL.io (R338, R339, R342): Unsupported Request from an unbound function, and from function 0 once its decoder is committed. -/
def State.ioPart (s : State) (fn : Nat) : Option Nat :=
  if !s.hif.present ∨ (fn = 0 ∧ s.fbit HIF_STATUS_HDM_COMMITTED) then none else s.fnPart fn

def State.winAddr (s : State) (fn off : Nat) : Nat := s.fget (HIF_WIN_BASE fn) * 2 ^ 21 + off

/-- Do `n` bytes at an offset lie in the 64 GiB window (R32)? A request to other addresses is none of the device's. -/
def inWindow (off n : Nat) : Bool := decide (off + n ≤ 2 ^ 36)

def State.ioReadNow (s : State) (fn off n : Nat) : State :=
  match s.ioPart fn with
  | none => s.emit (.cpl fn none false)
  | some p => let (s, bs, bad) := s.winRead p (s.winAddr fn off) n true; s.emit (.cpl fn (some bs) bad)

def State.ioWriteNow (s : State) (fn off : Nat) (bs : List Byte) : State :=
  match s.ioPart fn with
  | none => s.emit (.cpl fn none false)
  | some p => (s.winWrite p (s.winAddr fn off) bs true).1

/-- Is the page of PMS address `a` SHARED, so that CXL.mem may reach it (R344, R345)? -/
def State.isShared (s : State) (p a : Nat) : Bool := match s.loc p a with | .mem o x _ => s.bias o x != 0 | _ => false

/-- A CXL.mem request that bias refuses (R345). -/
def State.biasRefuse (s : State) (p : Nat) : State := (s.fsat (HIF_P_BIAS_ERR_COUNT p) 1).fset (HIF_P_STATUS_BIAS_VIOL p) 1

/-- CXL.mem through function 0 (R338, R345). -/
def State.memReadNow (s : State) (off n : Nat) : State :=
  if !s.fbit HIF_STATUS_HDM_COMMITTED then s else
  match s.fnPart 0 with
  | none => s.emit (.memData (List.replicate n 0) true)
  | some p =>
    let a := s.winAddr 0 off
    if s.hostClass p a false = 0 ∧ !s.isShared p a then (s.biasRefuse p).emit (.memData (List.replicate n 0) true)
    else let (s, bs, bad) := s.winRead p a n false; s.emit (.memData bs bad)

def State.memWriteNow (s : State) (off : Nat) (bs : List Byte) : State :=
  if !s.fbit HIF_STATUS_HDM_COMMITTED then s else
  match s.fnPart 0 with
  | none => s
  | some p =>
    let a := s.winAddr 0 off
    if s.hostClass p a true = 0 ∧ !s.isShared p a then s.biasRefuse p
    else (s.winWrite p a bs false).1

/-- The function that a host request came through. -/
def HostOp.fn : HostOp → Option Nat
  | .bus b => match b.src with | .host f => some f | _ => none
  | .early b => match b.src with | .host f => some f | _ => none
  | .ioRead f _ _ => some f
  | .ioWrite f _ _ => some f
  | .memRead _ _ => some 0
  | .memWrite _ _ => some 0

/-- Has a host access that waits come through function `f`? -/
def State.hostWaits (s : State) (f : Nat) : Bool := s.clk.waiting.any (fun o => o.fn == some f)

/-- A window access: it wakes a furled device, and completes after the wake (R402). -/
def State.hostOp (s : State) (o : HostOp) (f : State → State) : State :=
  if s.fget PWR_FURL_STATE = 0 ∧ !s.clk.divBusy then f s
  else { s.wakeUp with clk := { s.wakeUp.clk with waiting := s.wakeUp.clk.waiting ++ [o] } }

-- Page bias (R344 to R347) ------------------------------------------------------------------------------------------------------------------------------

/-- Sets the bias of a page of an owner: 0 DEVICE, 1 SHARED. -/
def State.setBias (s : State) (o g v : Nat) : State := { s with hif := { s.hif with bias := mset 0 s.hif.bias (o * 2 ^ 18 + g) v } }

/-- A page flips to DEVICE: BISnpInv for its lines as 8,192 blocks of four, the modified lines that the host returns are written, and the
page is DEVICE (R346). `dirty` are those lines, by PMS address of partition `p`. Where the host can hold none, only the bias changes (R344, R358). -/
def State.flip (s : State) (p o g : Nat) (dirty : HostStores) : State :=
  let line := fun (a : Nat) => match s.ownLoc o a with | .mem _ _ d => d / 256 | _ => 0
  if !s.hostCaches o then s.setBias o g 0 else
  let s := { s with out := ((List.range 8192).map (fun i => Out.snoop true (line (g * 2 ^ 21 + 256 * i)))).reverse ++ s.out }
  let here := dirty.filter (fun e => match s.loc p e.1 with | .mem o' a _ => o' == o && a / 2 ^ 21 == g | _ => false)
  let s := here.foldl (fun s e => (s.memWrite p e.1 e.2 .host false).1) s
  s.setBias o g 0

/-- One page of a BIAS command: of the interleaved range, its spill area included, or of a shared region (R344, R346). -/
def State.biasPage (s : State) (p a mode : Nat) (dirty : HostStores) : State :=
  match (if a < pagedBase then s.ownLoc p a else s.loc p a) with
  | .mem o x _ =>
    if a < pagedBase ∨ sharedBase ≤ a then
      let now := s.bias o x
      if mode = 1 then (if now = 0 then s.setBias o (x / 2 ^ 21) 1 else s)
      else if now = 0 then s else s.flip p o (x / 2 ^ 21) dirty
    else s
  | _ => s

/-- A write of HIF_BIND (R347, R357): the old partition's SHARED pages flip first; partitions that no function serves any more are lost. -/
def State.flipAll (s : State) (p : Nat) (dirty : HostStores) : State :=
  let of := fun o => o == p || (decide (16 ≤ o) && match s.shared (o - 16) with | some r => r.readers.testBit p || r.writer == p | none => false)
  ((s.hif.bias.filter (fun e => of (e.1 / 2 ^ 18) && e.2 == 1)).map (fun e => (e.1 / 2 ^ 18, e.1 % 2 ^ 18))).foldl
    (fun s g => s.flip p g.1 g.2 dirty) s

-- Host loss and re-attachment (R357 to R360) ---------------------------------------------------------------------------------------------------------------

/-- Paging stops with the host (R204): PAGING_STALLED of a partition that has a paged window. -/
def State.stallPaging (s : State) (p : Nat) : State := if s.pages p = 0 then s else s.fset (SCH_PSTATUS_PAGING_STALLED p) 1

/-- Partition `p` becomes host-lost, once it has been attached. -/
def State.lose (s : State) (p cause : Nat) : State :=
  let h := s.hp p
  if !h.attached || s.hostLost p then s else
  (((s.setHp p { h with losses := h.losses + 1, cause }).fset (HIF_P_STATUS_HOST_LOST p) 1).stallPaging p).zLoseHost p

/-- Host requests that have not completed are discarded (R358): those of function `fn`, or of every function. -/
def State.dropOps (s : State) (fn : Option Nat) : State :=
  { s with clk := { s.clk with waiting := s.clk.waiting.filter (fun o =>
    match o.fn with | some f => fn.isSome && fn != some f | none => true) } }

def State.loseAll (s : State) (cause : Nat) : State := (List.range 16).foldl (fun s p => s.lose p cause) s

/-- The link leaves DL_Up. -/
def State.linkLost (s : State) : State := s.fsets [(HIF_STATUS_DL_UP, 0), (HIF_STATUS_WIDTH, 0), (HIF_STATUS_RATE, 0)]

/-- Function `fn`'s MSI-X state after a reset of the function: off, nothing pending (log entry 204). -/
def State.msixReset (s : State) (fn : Nat) : State :=
  let keep := fun (l : NSet) => l.filter (fun v => v / 2048 != fn)
  { s with hif := { s.hif with msixOff := sins s.hif.msixOff fn, masked := keep s.hif.masked, pba := keep s.hif.pba } }

/-- The cases of R357: 1 link down, 2 PERST#, 3 hot reset, 4 Function Level Reset of `fn`, 5 its Bus Master Enable cleared, 6 CXL reset. -/
def State.hostLoss (s : State) (cause fn : Nat) : State :=
  let config := fun (s : State) =>
    ({ s with hif := { s.hif with bme := [], msixOff := List.range 17, masked := [], pba := [] } }).fset HIF_STATUS_HDM_COMMITTED 0
  let one := fun (s : State) => { s with hif := { s.hif with bme := sdel s.hif.bme fn } }
  match cause with
  | 1 => ((s.dropOps none).linkLost.fset ZTX_MISSQ_HOST_LOST 1).loseAll 1
  | 2 => ((config { s.dropOps none with gen := { s.gen with perst := false }, hif := { s.hif with present := false } }).linkLost.fset ZTX_MISSQ_HOST_LOST 1).loseAll 2
  | 3 => ((config (s.dropOps none)).linkLost.fset ZTX_MISSQ_HOST_LOST 1).loseAll 3
  | 4 => (List.range 16).foldl (fun t p => if s.fnOf p = some fn then t.lose p 4 else t) ((one (s.dropOps (some fn))).msixReset fn)
  | 5 => (List.range 16).foldl (fun t p => if s.fnOf p = some fn then t.lose p 5 else t) (one (s.dropOps (some fn)))
  | 6 => ((config (s.dropOps none)).linkLost.fset ZTX_MISSQ_HOST_LOST 1).loseAll 6
  | _ => s

def State.bindWrite (s : State) (v : Nat) (dirty : HostStores) : State :=
  let f0 := v % 32
  let old := s.fget HIF_BIND_F0_PARTITION
  let t := if f0 ≠ old ∧ old < 16 then s.flipAll old dirty else s
  let t := t.fsets [(HIF_BIND_FN_EN, bitsAt v 16 16), (HIF_BIND_F0_PARTITION, f0)]
  (List.range 16).foldl (fun t p => if (s.fnOf p).isSome ∧ (t.fnOf p).isNone then (t.dropOps (s.fnOf p)).lose p 7 else t) t

/-- The link and the partition's function are as R357 and R360 ask: DL_Up, Bus Master Enable. -/
def State.linkReady (s : State) (p : Nat) : Bool :=
  s.fbit HIF_STATUS_DL_UP && (match s.fnOf p with | some f => s.hif.bme.contains f | none => false)

/-- Once the functions answer configuration requests (R461), the host has brought the link up at `width` lanes and RATE `rate`, and has set Bus Master Enable
and MSI-X enable of the partition's function (log entries 119 and 204). -/
def State.linkTrained (s : State) (p width rate : Nat) : State :=
  if width = 0 ∨ !s.hif.present then s else
  let s := s.fsets [(HIF_STATUS_DL_UP, 1), (HIF_STATUS_WIDTH, width), (HIF_STATUS_RATE, rate)]
  match s.fnOf p with
  | some f => { s with hif := { s.hif with bme := sins s.hif.bme f, msixOff := sdel s.hif.msixOff f } }
  | none => s

/-- The interrupt that R433 held is sent if HEAD differs from TAIL. -/
def State.irqRelease (s : State) (p : Nat) : State :=
  if s.evt.irqHeld.contains p then
    let s := { s with evt := { s.evt with irqHeld := sdel s.evt.irqHeld p } }
    if s.fget (EVT_P_PTR_HEAD p) = s.fget (EVT_P_PTR_TAIL p) then s else s.evtIrq p
  else s

/-- Host traffic of an attached partition goes on: paging, model loads, context traffic, and the interrupt that R433 held. -/
def State.resumeHost (s : State) (p : Nat) : State :=
  ((((s.fset (HIF_P_STATUS_HOST_LOST p) 0).modelsWant p).pagesWant p).zFindHost p).irqRelease p

/-- FIRST_ATTACH (R357). -/
def State.firstAttach (s : State) (p width rate : Nat) : State :=
  let s := s.linkTrained p width rate
  if (s.hp p).attached || !s.linkReady p then s
  else (s.setHp p { s.hp p with attached := true }).resumeHost p

/-- Entries of the completion ring, and of a command ring (R348, R352). -/
def State.cplSize (s : State) (p : Nat) : Nat := clamp 4 16 (s.fget (HIF_P_CPL_CFG_SIZE_LOG2 p))
def State.crSize (s : State) (p r : Nat) : Nat := clamp 4 15 (s.fget (HIF_P_CR_CFG_SIZE_LOG2 p r))

/-- A completion record written at ring index `x`: bytes 0x04 to 0x3F, then the frame word (R352). -/
def State.cplEntry (s : State) (p x : Nat) (rec_ : List Byte) : State :=
  let a := s.fget (HIF_P_CPL_BASE_BASE p) * 2 ^ 12 + 64 * (x % 2 ^ s.cplSize p)
  let frame := x % 2 ^ 16 + (x / 2 ^ s.cplSize p + 1) % 2 * 2 ^ 16
  (s.hostWrite (a + 4) (List.replicate 28 0 ++ rec_)).hostWrite a (leBytes 4 frame)

/-- Every unconsumed record written again from TAIL onward, at its own index (R360). -/
def State.rewrite (s : State) (p : Nat) : State :=
  ((s.hp p).unread.zipIdx).foldl (fun s (e : List Byte × Nat) => s.cplEntry p ((s.fget (HIF_P_CPL_TAIL_TAIL p) + e.2) % 2 ^ 32) e.1) s

/-- What ATTACH with KEPT 0 does first (R360). -/
def State.notKept (s : State) (p : Nat) : State :=
  let s := (List.range 8).foldl (fun s r => s.fset (HIF_P_CR_DB_TAIL p r) (s.fget (HIF_P_CR_HEAD_HEAD p r))) s
  -- the commands are gone, and with them what was done of one
  let s := { s with hif := { s.hif with cr := s.hif.cr.filter (fun e => e.1 / 8 != p) } }
  let s := s.zLoseContexts p
  let s := (s.sp p).frames.foldl (fun s (e : Nat × Nat) => s.setPage p e.2 (s.pageEntry p e.2 ||| 4)) s
  let gone := (List.range (s.pages p)).filter (fun g => s.pageEntry p g % 4 == 0)
  s.setSp p { s.sp p with lost := gone.foldl sins (s.sp p).lost }

/-- ATTACH (R360). -/
def State.attach (s : State) (p : Nat) (kept : Bool) : State :=
  if !(s.hp p).attached || !s.hostLost p || !s.linkReady p then s else
  let s := if kept then s else s.notKept p
  let s := { s with hif := { s.hif with cr := s.hif.cr.map (fun (e : Nat × Cr) => if e.1 / 8 = p then (e.1, { e.2 with mism := none }) else e) } }
  (s.rewrite p).resumeHost p

/-- The 256-byte resume record (R359). -/
def State.resume (s : State) (p : Nat) : List Byte :=
  let inHost := ((s.connsOf p).filter (fun e => !e.2.resident)).length
  let pages := ((List.range (s.pages p)).filter (fun g => s.pageEntry p g % 4 == 0)).length
  let h := s.hp p
  [0x52, 0x53, 0x4D, 0x39] ++ leBytes 2 1 ++ leBytes 1 (s.fget (FAB_PART_STATE_P p)) ++
  leBytes 1 (b2n (s.hostLost p) + 2 * b2n (decide (0 < inHost)) + 4 * b2n (decide (0 < pages)) + 8 * s.fget (SCH_SQ_STATUS_FORMED p)) ++
  leBytes 4 h.losses ++ leBytes 4 h.cause ++ leBytes 8 (s.fget FAB_IMAGE_ID_ID) ++ leBytes 4 (s.fget (SCH_SQ_STEP_STEP p)) ++
  leBytes 4 (s.fget (LIG_STEP_STEP p)) ++ leBytes 4 (s.fget (PAL_VERIFIED_STEP p)) ++ leBytes 4 (s.fget (LIG_SLOW_DONE_STEP p)) ++
  leBytes 2 (s.fget (SCH_SQ_EPOCH_EPOCH p)) ++ leBytes 2 0 ++ leBytes 4 (s.fget (HIF_P_CPL_HEAD_HEAD p)) ++
  leBytes 4 (s.fget (HIF_P_CPL_TAIL_TAIL p)) ++ leBytes 4 (h.unread.length + h.waiting.length) ++
  (List.range 8).flatMap (fun r => leBytes 2 (s.fget (HIF_P_CR_HEAD_HEAD p r))) ++
  (List.range 8).flatMap (fun r => leBytes 2 (s.fget (HIF_P_CR_DB_TAIL p r))) ++
  leBytes 8 (s.fget (HIF_P_CPL_BASE_BASE p) * 2 ^ 12) ++ leBytes 4 inHost ++ leBytes 4 pages ++ List.replicate 24 0 ++
  (List.range 8).flatMap (fun r => leBytes 8 (s.fget (HIF_P_CR_BASE_BASE p r) * 2 ^ 12)) ++ List.replicate 64 0

-- Completion ring (R352, R354, R355) -------------------------------------------------------------------------------------------------------------------------

/-- CPL_RECORD_WRITE: the oldest waiting record goes to the ring when an entry is free and the host is attached. -/
def State.cplWrite (s : State) (p : Nat) : State :=
  let h := s.hp p
  let head := s.fget (HIF_P_CPL_HEAD_HEAD p)
  if s.hostLost p || decide (2 ^ s.cplSize p ≤ ahead 32 head (s.fget (HIF_P_CPL_TAIL_TAIL p))) then s else
  match h.waiting with
  | [] => s
  | x :: rest => ((s.cplEntry p head x).setHp p { h with waiting := rest, unread := h.unread ++ [x] }).finc (HIF_P_CPL_HEAD_HEAD p) 1

/-- CPL_INTERRUPT: at most once per MOD_US while HEAD differs from TAIL. -/
def State.cplIrq (s : State) (p : Nat) : State :=
  let h := s.hp p
  let far := match h.lastIrq with | some t => decide (t + s.fget (HIF_P_CPL_CFG_MOD_US p) ≤ s.now) | none => true
  match s.fnOf p with
  | none => s
  | some f =>
    if s.hostLost p || !far || s.fget (HIF_P_CPL_HEAD_HEAD p) == s.fget (HIF_P_CPL_TAIL_TAIL p) then s
    else (s.setHp p { h with lastIrq := some s.now }).msix f (s.fget (HIF_P_CPL_CFG_VECTOR p))

/-- A write of HIF_Pp_CPL_TAIL: a value not between the last TAIL and HEAD is ignored; consumed records leave the queue. -/
def State.cplTail (s : State) (p v : Nat) : State :=
  let t := s.fget (HIF_P_CPL_TAIL_TAIL p)
  let n := ahead 32 v t
  if ahead 32 (s.fget (HIF_P_CPL_HEAD_HEAD p)) t < n then s else
  let h := s.hp p
  ((s.setHp p { h with unread := h.unread.drop n }).fset (HIF_P_CPL_TAIL_TAIL p) v).zDrain p

-- Command rings (R348 to R351) ---------------------------------------------------------------------------------------------------------------------------------

def State.crOf (s : State) (p r : Nat) : Cr := mget Cr.init s.hif.cr (8 * p + r)
def State.setCr (s : State) (p r : Nat) (c : Cr) : State := { s with hif := { s.hif with cr := mset Cr.init s.hif.cr (8 * p + r) c } }

/-- A fault of a command ring: it halts with HEAD at the command's first index (R351, R361). -/
def State.crFault (s : State) (p r code : Nat) : State :=
  ((s.setCr p r Cr.init).fset (HIF_P_CR_CFG_HALTED p r) 1).recErr
    { idx := 0x20 + p, valid := HIF_P_FAULT_VALID p, ovf := some (HIF_P_FAULT_OVERFLOW p),
      fill := [(HIF_P_FAULT_RING p, r), (HIF_P_FAULT_INDEX p, s.fget (HIF_P_CR_HEAD_HEAD p r)), (HIF_P_FAULT_CODE p, code)],
      ev := mkEv (if code = 1 then 0x1C else 0x1D) 2 (some p) true code r }

/-- The 64 bytes of the slot of ring index `x`. -/
def State.crSlot (s : State) (p r x : Nat) : List Byte :=
  s.hostRead (s.fget (HIF_P_CR_BASE_BASE p r) * 2 ^ 12 + 64 * (x % 2 ^ s.crSize p r)) 64

/-- Do SEQ and PHASE of a slot match its index (R349, R351)? -/
def slotMatch (size x : Nat) (b : List Byte) : Bool :=
  let w := leAt b 0 4
  w % 2 ^ 16 == x % 2 ^ 16 && bitAt w 16 == (x % 2 ^ 16 / 2 ^ size + 1) % 2

/-- A command as its slots spell it: its bodies joined, and whether R349's frame rules hold. -/
structure CrCmd where
  opc : Nat
  len : Nat
  cont : Nat
  body : List Byte
  framed : Bool
  deriving DecidableEq, Repr

/-- The slots of the command at HEAD: none while one of them does not match or TAIL does not cover it. -/
def State.crCommand (s : State) (p r : Nat) : Option (Option CrCmd) :=
  let x := s.fget (HIF_P_CR_HEAD_HEAD p r)
  let n := ahead 16 (s.fget (HIF_P_CR_DB_TAIL p r)) x
  let first := s.crSlot p r x
  let w := leAt first 0 4
  let cont := bitsAt w 22 2
  let rest := (List.range cont).map (fun i => s.crSlot p r (x + 1 + i))
  let sz := s.crSize p r
  if n = 0 then none
  else if !slotMatch sz x first then some none
  else if n < 1 + cont then none
  else if !(rest.zipIdx).all (fun (e : List Byte × Nat) => slotMatch sz (x + 1 + e.2) e.1) then some none
  else
    let len := bitsAt w 24 8
    let okCont := (rest.zipIdx).all (fun (e : List Byte × Nat) =>
      bitsAt (leAt e.1 0 4) 17 5 == 0x1F && bitsAt (leAt e.1 0 4) 22 2 == e.2 + 1 && bitsAt (leAt e.1 0 4) 24 8 == 0)
    some (some { opc := bitsAt w 17 5, len, cont, body := ((first.drop 4) ++ rest.flatMap (fun b => b.drop 4)).take len,
                 framed := okCont && decide (len ≤ 240) && (if len = 0 then cont == 0 else cont + 1 == ceilDiv len 60) })

/-- Is a command well formed (R350, R351 code 0x02)? -/
def CrCmd.ok (c : CrCmd) : Bool :=
  c.framed &&
  match c.opc with
  | 0 => c.len == 0
  | 1 => c.len == 128
  | 2 => c.len == 12 && leAt c.body 0 8 % 128 == 0 && decide (1 ≤ leAt c.body 8 4) && decide (leAt c.body 8 4 ≤ 65535)
  | 3 => decide (9 ≤ c.len)
  | 4 => c.len == 8 && decide (leAt c.body 0 2 ≤ 255) && zeroAt c.body 2 2
  | 5 => c.len == 16 && leAt c.body 0 8 % 2 ^ 21 == 0 && decide (1 ≤ leAt c.body 8 4) && decide (leAt c.body 0xC 1 ≤ 1) && zeroAt c.body 0xD 3
  | _ => false

/-- Is a ring being fetched: enabled, not halted, its host attached, no device-fatal state? -/
def State.crLive (s : State) (p r : Nat) : Bool :=
  s.fbit (HIF_P_CR_CFG_ENABLE p r) && !s.fbit (HIF_P_CR_CFG_HALTED p r) && !s.hostLost p && !s.stopped && !s.asleep

/-- A slot does not match: the time of the first mismatch is kept (R351). -/
def State.crMiss (s : State) (p r : Nat) : State :=
  let c := s.crOf p r
  if c.mism.isSome then s else s.setCr p r { c with mism := some s.now }

/-- HEAD moves past a command that has been taken. -/
def State.crNext (s : State) (p r : Nat) (c : CrCmd) : State :=
  (s.setCr p r Cr.init).finc (HIF_P_CR_HEAD_HEAD p r) (1 + c.cont)

/-- The command at HEAD of a live ring, when it is one of operation `opc`, with what the host has stored: a malformed one halts the ring. -/
def State.crRun (s : State) (p r opc : Nat) (h : HostStores) (f : State → CrCmd → State) : State :=
  let s := s.hostStores h
  if !s.crLive p r then s else
  match s.crCommand p r with
  | none => s
  | some none => s.crMiss p r
  | some (some c) =>
    if !c.ok then s.crFault p r 2
    else if c.opc ≠ opc then s
    else f (s.setCr p r { s.crOf p r with mism := none }) c

/-- Does the scheduler still have to fetch a descriptor of this ring? -/
def State.crHeld (s : State) (p r : Nat) : Bool := (s.sp p).inq.any (fun e => e.1 == r)

/-- May the scheduler take descriptors of the ring (R186, R47)? -/
def State.crTasks (s : State) (p r : Nat) : Bool := s.active p && s.fbit (SCH_PCTRL_ENABLE p) && !s.crHeld p r

/-- A descriptor is handed to the scheduler. -/
def State.handTask (s : State) (p r : Nat) (d : List Byte) : State :=
  let sp := s.sp p
  s.setSp p { sp with inq := sp.inq ++ [(r, 0, 0, d)] }

/-- A command-poison record (R352). -/
def State.poisonRecord (s : State) (p r opc item a : Nat) : State :=
  s.cplPut p (leBytes 1 0x11 ++ leBytes 1 r ++ leBytes 1 opc ++ leBytes 1 0 ++ leBytes 2 (s.fget (HIF_P_CR_HEAD_HEAD p r)) ++
    leBytes 2 item ++ leBytes 8 (a / 512 * 512))

/-- CMD_TASK. -/
def State.cmdTask (s : State) (p r : Nat) (c : CrCmd) : State :=
  if s.crTasks p r then (s.handTask p r c.body).crNext p r c else s

/-- CMD_TASK_REF: one descriptor per fetch turn (R186); one on a poisoned line is left out with a record. -/
def State.cmdTaskRef (s : State) (p r : Nat) (c : CrCmd) : State :=
  if !s.crTasks p r then s else
  let k := (s.crOf p r).item
  let a := leAt c.body 0 8 + 128 * k
  let step := fun (s : State) =>
    if k + 1 = leAt c.body 8 4 then s.crNext p r c else s.setCr p r { s.crOf p r with item := k + 1 }
  let cls := s.hostClass p a false
  if cls = 2 then (s.stray p hostSrc a).crFault p r 4
  -- in the memory space, but not for the host: no fault of the ring (R351)
  else if cls = 1 then step ((s.hostViolate p a).poisonRecord p r 2 k a)
  else
    let m := s.memRead p a 128 .inPlace
    if !m.2.absent.isEmpty then m.1.demand p 0xF1 m.2.absent
    else if m.2.ok then step (m.1.handTask p r m.2.bytes)
    else step (m.1.poisonRecord p r 2 k a)

/-- CMD_WRITE: a DEST outside the memory space halts the ring; forbidden bytes are discarded as violations. -/
def State.cmdWrite (s : State) (p r : Nat) (c : CrCmd) : State :=
  let a := leAt c.body 0 8
  let d := c.body.drop 8
  if (linePieces a d.length).any (fun pc => s.hostClass p pc.1 true == 2) then (s.stray p hostSrc a).crFault p r 4
  else
    let (s, bad) := s.winWrite p a d true
    let s := match bad.head? with | some x => s.poisonRecord p r 3 0 x | none => s
    s.crNext p r c

/-- CMD_SIGNAL: after every earlier command of the ring. -/
def State.cmdSignal (s : State) (p r : Nat) (c : CrCmd) : State :=
  if s.crHeld p r then s else (s.sigAdd p (leAt c.body 0 2) (leAt c.body 4 4)).crNext p r c

/-- Do `n` pages from `a` lie in the partition's memory space? -/
def State.pagesInSpace (s : State) (p a n : Nat) : Bool :=
  s.hostClass p a false != 2 && s.hostClass p (a + n * 2 ^ 21 - 1) false != 2 &&
  (if a < pagedBase then decide (a + n * 2 ^ 21 ≤ pagedBase)
   else if a < sharedBase then decide (a + n * 2 ^ 21 ≤ sharedBase)
   else (a - sharedBase) / sharedStep == (a + n * 2 ^ 21 - 1 - sharedBase) / sharedStep)

/-- CMD_BIAS: pages in increasing address (R346). `dirty`: what the host returns to the snoops. -/
def State.cmdBias (s : State) (p r : Nat) (dirty : HostStores) (c : CrCmd) : State :=
  let a := leAt c.body 0 8
  let n := leAt c.body 8 4
  if s.crHeld p r then s
  else if !s.pagesInSpace p a n then (s.stray p hostSrc a).crFault p r 4
  else ((List.range n).foldl (fun s i => s.biasPage p (a + i * 2 ^ 21) (leAt c.body 0xC 1) dirty) s).crNext p r c

/-- SLOT_REREAD: a match within 64 µs of the first mismatch goes on as though it had always matched; otherwise the ring halts with fault
0x01 (R351). -/
def State.crReread (s : State) (p r : Nat) (h : HostStores) : State :=
  let s := s.hostStores h
  if !s.crLive p r then s else
  match s.crCommand p r with
  | some none =>
    (match (s.crOf p r).mism with
     | none => s.crMiss p r
     | some t => if t + 64 ≤ s.now then s.crFault p r 1 else s)
  | _ => s.setCr p r { s.crOf p r with mism := none }

/-- A doorbell (R348). It wakes a furled device (R402). -/
def State.crDoorbell (s : State) (p r v : Nat) : State :=
  let s := (s.fset (HIF_P_CR_DB_TAIL p r) v).wakeUp
  if 2 ^ s.crSize p r < ahead 16 (s.fget (HIF_P_CR_DB_TAIL p r)) (s.fget (HIF_P_CR_HEAD_HEAD p r)) then s.crFault p r 3 else s

/-- A write of ENABLE of a ring: refused with fault 0x05 while the host-lost queue is smaller than twice the completion ring (R354). -/
def State.crEnable (s : State) (p r : Nat) (on : Bool) : State :=
  if !on then s.fset (HIF_P_CR_CFG_ENABLE p r) 0
  else if s.fbit (HIF_P_CR_CFG_ENABLE p r) then s
  else if s.hlqPlaces p < 2 * 2 ^ s.cplSize p then
    s.recErr { idx := 0x20 + p, valid := HIF_P_FAULT_VALID p, ovf := some (HIF_P_FAULT_OVERFLOW p),
               fill := [(HIF_P_FAULT_RING p, r), (HIF_P_FAULT_INDEX p, s.fget (HIF_P_CR_HEAD_HEAD p r)), (HIF_P_FAULT_CODE p, 5)],
               ev := mkEv 0x1D 2 (some p) true 5 r }
  else s.fset (HIF_P_CR_CFG_ENABLE p r) 1

/-- RESUME of a halted ring: it is read again from HEAD. -/
def State.crResume (s : State) (p r : Nat) : State :=
  if s.fbit (HIF_P_CR_CFG_HALTED p r) then (s.setCr p r Cr.init).fset (HIF_P_CR_CFG_HALTED p r) 0 else s

/-- Does every ring of the partition stand still, or is it host-lost (R361)? -/
def State.ringsOff (s : State) (p : Nat) : Bool := s.hostLost p || (List.range 8).all (fun r => !s.fbit (HIF_P_CR_CFG_ENABLE p r))

-- Commands -----------------------------------------------------------------------------------------------------------------------------------------------------------

def crOk (p r : Nat) : Bool := decide (p < 16) && decide (r < 8)

def execCmdNop (p r : Nat) (h : HostStores) (s : State) : Host.Outcome State Fault Refusal :=
  onUnit (crOk p r) (s.crRun p r 0 h (fun s c => s.crNext p r c))
def execCmdTask (p r : Nat) (h : HostStores) (s : State) : Host.Outcome State Fault Refusal :=
  onUnit (crOk p r) (s.crRun p r 1 h (fun s c => s.cmdTask p r c))
def execCmdTaskRef (p r : Nat) (h : HostStores) (s : State) : Host.Outcome State Fault Refusal :=
  onUnit (crOk p r) (s.crRun p r 2 h (fun s c => s.cmdTaskRef p r c))
def execCmdWrite (p r : Nat) (h : HostStores) (s : State) : Host.Outcome State Fault Refusal :=
  onUnit (crOk p r) (s.crRun p r 3 h (fun s c => s.cmdWrite p r c))
def execCmdSignal (p r : Nat) (h : HostStores) (s : State) : Host.Outcome State Fault Refusal :=
  onUnit (crOk p r) (s.crRun p r 4 h (fun s c => s.cmdSignal p r c))
def execCmdBias (p r : Nat) (dirty h : HostStores) (s : State) : Host.Outcome State Fault Refusal :=
  onUnit (crOk p r) (s.crRun p r 5 h (fun s c => s.cmdBias p r dirty c))
def execSlotReread (p r : Nat) (h : HostStores) (s : State) : Host.Outcome State Fault Refusal := onUnit (crOk p r) (s.crReread p r h)
def execBar2IoRead (fn off n : Nat) (s : State) : Host.Outcome State Fault Refusal :=
  onUnit (fn < 17) (if inWindow off n then s.hostOp (.ioRead fn off n) (fun s => s.ioReadNow fn off n) else s)
def execBar2IoWrite (fn off : Nat) (bs : List Byte) (s : State) : Host.Outcome State Fault Refusal :=
  onUnit (fn < 17) (if inWindow off bs.length then s.hostOp (.ioWrite fn off bs) (fun s => s.ioWriteNow fn off bs) else s)
def execCxlMemRead (off n : Nat) (s : State) : Host.Outcome State Fault Refusal :=
  .next (if inWindow off n then s.hostOp (.memRead off n) (fun s => s.memReadNow off n) else s)
def execCxlMemWrite (off : Nat) (bs : List Byte) (s : State) : Host.Outcome State Fault Refusal :=
  .next (if inWindow off bs.length then s.hostOp (.memWrite off bs) (fun s => s.memWriteNow off bs) else s)
def execHostLoss (cause fn : Nat) (s : State) : Host.Outcome State Fault Refusal := onUnit (fn < 17) (s.hostLoss cause fn)
def execFirstAttach (p width rate : Nat) (s : State) : Host.Outcome State Fault Refusal := onUnit (p < 16) (s.firstAttach p width rate)
def execCplRecordWrite (p : Nat) (s : State) : Host.Outcome State Fault Refusal := onUnit (p < 16) (s.cplWrite p)
def execCplInterrupt (p : Nat) (s : State) : Host.Outcome State Fault Refusal := onUnit (p < 16) (s.cplIrq p)
def execHdmDecoderCommit (s : State) : Host.Outcome State Fault Refusal :=
  .next (if s.hif.present then s.fset HIF_STATUS_HDM_COMMITTED 1 else s)
/-- 80 ms after the release of PERST#, which the row stands for (log entry 122), and not before PWR_GOOD (R461). -/
def execHostFunctionsPresent (s : State) : Host.Outcome State Fault Refusal :=
  .next (if s.fbit GEN_PINS_PWR_GOOD then { s with hif := { s.hif with present := true }, gen := { s.gen with perst := true } } else s)

end Sys2Proof.Machine
end

