-- ==== Sys2Proof/Machine/Fabric.lean ====
section
/-!
DEFINITION. The Flajo fabric image (R33 to R56): its layout, its checks (R43), full and partial loads (R44 to R53), and the clock gates that an
image commits (R373 to R377).
-/
namespace Sys2Proof.Machine

-- Layout (R34 to R40) ------------------------------------------------------------------------------------------------------------------------

/-- A section-table entry (R35). -/
structure SecEnt where
  typ : Nat
  part : Nat
  off : Nat
  len : Nat
  dig : List Byte

def secEnt (b : List Byte) (i : Nat) : SecEnt :=
  let o := 0x40 + 32 * i
  ⟨leAt b o 1, leAt b (o + 1) 1, leAt b (o + 4) 4, leAt b (o + 8) 4, bytesAt b (o + 0x10) 16⟩

def imgCount (b : List Byte) : Nat := leAt b 0x0A 2
def imgSig (b : List Byte) : Nat := leAt b 0x24 4

/-- A shared-region entry (R39). -/
def parseShared (b : List Byte) : Shared := ⟨leAt b 0 32, leAt b 0x20 2, leAt b 0x22 1, leAt b 0x23 1⟩

/-- The device section (R37). -/
def parseDev (b : List Byte) (dig : List Byte) : DevSect :=
  { portMode := (List.range 16).map (fun j => leAt b j 1)
    exch := (List.range 8).map (fun i => (leAt b (0x10 + 4 * i) 2, leAt b (0x12 + 4 * i) 2))
    gate := leAt b 0x30 16
    sparePolicy := leAt b 0x40 1
    shared := (List.range 8).map (fun r => parseShared (bytesAt b (0x48 + 40 * r) 40))
    dig }

/-- A partition section (R40). -/
def parseSect (b : List Byte) (dig : List Byte) : Sect :=
  { key := leAt b 1 1, prioCeil := leAt b 2 1, preFloor := leAt b 3 1, pmin := leAt b 4 2, pmax := leAt b 6 2, onchip := leAt b 8 4,
    host := leAt b 0xC 4, name := bytesAt b 0x10 16, tiles := leAt b 0x20 24, waysA := leAt b 0x38 4, waysB := leAt b 0x3C 4,
    chans := leAt b 0x40 32, ports := leAt b 0x60 8, spill := leAt b 0x68 4, routesA := leAt b 0x70 32, routesB := leAt b 0x90 32,
    d2d := leAt b 0xB0 1, dig }

/-- The section numbers of the partition sections, in table order, with their partitions. -/
def imgOrder (b : List Byte) : List (Nat × Nat) := (List.range (imgCount b - 1)).map (fun i => (i + 1, (secEnt b (i + 1)).part))

/-- The image as parsed. -/
def parseImage (b : List Byte) : Image :=
  let sec := fun (i : Nat) => let e := secEnt b i; (bytesAt b e.off e.len, e.dig)
  { id := leAt b 0x10 8, version := leAt b 0x18 4, keySlot := leAt b 0x1C 1,
    dev := parseDev (sec 0).1 (sec 0).2,
    sects := (imgOrder b).foldl (fun m e => mins m e.2 (parseSect (sec e.1).1 (sec e.1).2)) [] }

-- Checks of the bytes: codes 0x01 to 0x07 (R43) ------------------------------------------------------------------------------------------------

/-- Is table entry `i` as R35 says, with the digest of its section? -/
def secPlaced (b : List Byte) (i : Nat) : Bool :=
  let e := secEnt b i
  e.typ == (if i = 0 then 1 else 2) && (if i = 0 then e.part == 0 else decide (e.part < 16)) && e.len == (if i = 0 then 512 else 256) &&
    e.off % 8 == 0 && decide (0x40 + 32 * imgCount b ≤ e.off) && decide (e.off + e.len ≤ imgSig b) &&
    shake256 (bytesAt b e.off e.len) 16 == e.dig && (i == 0 || leAt b e.off 1 == e.part)

/-- Do entries `i` and `j` name one partition, or overlap? -/
def secClash (b : List Byte) (i j : Nat) : Bool :=
  let x := secEnt b i
  let y := secEnt b j
  (i != 0 && j != 0 && x.part == y.part) || (decide (x.off < y.off + y.len) && decide (y.off < x.off + x.len))

/-- Which entries pass every check of code 0x07. -/
def secsOk (b : List Byte) : List Bool :=
  (List.range (imgCount b)).foldl (fun ok i =>
    ok ++ [secPlaced b i && !((List.range i).any (fun j => ok.getD j false && secClash b j i))]) []

/-- A reserved field of the device section is not 0 (R37, R39). -/
def devReserved (b : List Byte) : Bool :=
  leAt b 0x3A 6 != 0 || decide (leAt b 0x40 1 > 1) || !zeroAt b 0x41 7 || !zeroAt b 0x188 120 ||
    (List.range 8).any (fun r => leAt b (0x6C + 40 * r) 4 != 0)

/-- A reserved field of a partition section is not 0 (R40). -/
def partReserved (b : List Byte) : Bool :=
  decide (2 ^ 152 ≤ leAt b 0x20 24) || decide (2 ^ 24 ≤ leAt b 0x38 4) || decide (2 ^ 24 ≤ leAt b 0x3C 4) || !zeroAt b 0x6C 4 ||
    decide (2 ^ 129 ≤ leAt b 0x70 32) || decide (2 ^ 129 ≤ leAt b 0x90 32) || decide (1 < leAt b 0xB0 1) || !zeroAt b 0xB1 79

/-- Is the reserved part of entry `i`, or of its section where the entry passes code 0x07, not 0? -/
def secReserved (b : List Byte) (i : Nat) : Bool :=
  let o := 0x40 + 32 * i
  let e := secEnt b i
  leAt b (o + 2) 2 != 0 || leAt b (o + 0xC) 4 != 0 ||
    ((secsOk b).getD i false && (if i = 0 then devReserved (bytesAt b e.off 512) else partReserved (bytesAt b e.off 256)))

/-- Code 0x01 in the header. -/
def hdrBad (b : List Byte) : Bool :=
  leAt b 0 4 != 0x4F4A4C46 || leAt b 4 2 != 1 || imgCount b == 0 || decide (17 < imgCount b) || leAt b 0x20 4 != 0x40 ||
    leAt b 0xC 4 != b.length || imgSig b + 114 != b.length || decide (3 < leAt b 0x1C 1) || decide (2 ^ 20 < b.length) ||
    decide (imgSig b < 0x40 + 32 * imgCount b) || decide (3 < leAt b 8 1) || !zeroAt b 0x1D 3 || !zeroAt b 0x28 24

/-- A failed check: its code and its section index. -/
def chk (c : Bool) (code sec : Nat) : Option (Nat × Nat) := if c then some (code, sec) else none

/-- The first of a list of sections that fails. -/
def firstBad (l : List Nat) (code : Nat) (bad : Nat → Bool) : Option (Nat × Nat) := (l.find? bad).map (fun i => (code, i))

/-- Does an image's signature verify under a key (R36): Ed448ph with the context "ET9-FLAJO" over the bytes before it? -/
def imgSigned (b key : List Byte) : Bool :=
  edVerify key [0x45, 0x54, 0x39, 0x2D, 0x46, 0x4C, 0x41, 0x4A, 0x4F] (shake256 (b.take (imgSig b)) 64) (bytesAt b (imgSig b) 114)

/-- Codes 0x01 to 0x07, the lowest first. -/
def State.imgEarly (s : State) (b : List Byte) : Option (Nat × Nat) :=
  let secs := List.range (imgCount b)
  (chk (hdrBad b) 1 0xFF) <|> (firstBad secs 1 (secReserved b)) <|>
  (chk (leAt b 6 2 != 0x0E09 || !(leAt b 8 1).testBit (s.fuse.variant - 1)) 2 0xFF) <|>
  (chk (decide (s.fget GEN_REVISION_MAJOR_STEP * 16 + s.fget GEN_REVISION_MINOR_STEP < leAt b 9 1)) 3 0xFF) <|>
  (let slot := mget KSlot.empty s.nv.slots (leAt b 0x1C 1)
   if slot.state ≠ 1 then some (5, 0xFF) else chk (!imgSigned b slot.key) 4 0xFF) <|>
  (chk (decide (leAt b 0x18 4 < s.nv.floor)) 6 0xFF) <|>
  (firstBad secs 7 (fun i => !(secsOk b).getD i false))

-- Roles (R17) --------------------------------------------------------------------------------------------------------------------------------------

/-- FAILED tile `t`, fused ACTIVE, is replaced by the lowest SPARE of its die. -/
def replaceTile (rs : List Nat) (t : Nat) : List Nat :=
  match (List.range 152).find? (fun n => dieOf n == dieOf t && rs.getD n 0 == 2) with
  | some n => rs.set n 0
  | none => rs

/-- The roles from which a full load starts: the fused states, the ledger's FAILED records, and their replacements (R17 steps 1 to 3). -/
def State.startRoles (s : State) : List Nat :=
  let rs := (List.range 152).map (fun t =>
    if s.led.failed.contains t then 3 else match s.tileFuse t with | 1 => 2 | 2 => 5 | _ => 0)
  (((List.range 152).filter (fun t => s.led.failed.contains t && s.tileFuse t == 0))).foldl replaceTile rs

/-- The EXCHANGE pairs applied one after another (R17 step 4); none where one is not an ACTIVE and a SPARE tile of one die. -/
def exchange (rs : List Nat) : List (Nat × Nat) → Option (List Nat)
  | [] => some rs
  | (a, n) :: r =>
    if a = 0xFFFF ∧ n = 0xFFFF then exchange rs r
    else if a < 152 ∧ n < 152 ∧ dieOf a = dieOf n ∧ rs.getD a 9 = 0 ∧ rs.getD n 9 = 2 then exchange ((rs.set a 2).set n 0) r
    else none

/-- The roles that the load's sections find: for a full load R17's, for a partial one the live ones (an assigned tile is in use). -/
def State.loadRoles (s : State) (full : Bool) (img : Image) : List Nat :=
  if full then (exchange s.startRoles img.dev.exch).getD s.startRoles
  else (List.range 152).map (fun t => if s.role t = 1 then 0 else s.role t)

-- Routes (R40, R41, R468) -----------------------------------------------------------------------------------------------------------------------

/-- Are all routes that partition `p` needs permitted (code 0x0F)? -/
def routesOk (img : Image) (p : Nat) (x : Sect) : Bool :=
  let ts := bitsOf x.tiles 152
  let chs := img.dev.shared.foldl (fun a e => if e.readers.testBit p || e.writer == p then a ||| e.chans else a) x.chans
  let ends := ts.map tileSpot ++ ((List.range 8).filter (fun k => bitsAt chs (32 * k) 32 != 0)).map stackSpot ++
    ((List.range 16).filter (fun j => bitsAt x.ports (4 * j) 4 != 0)).map portSpot
  ts.all (fun t => ends.all (fun e => routeOk x (tileSpot t) e))

-- Checks of the contents: codes 0x08 to 0x13 (R43) ----------------------------------------------------------------------------------------------

/-- Sub-ports that a PORT_MODE has, as a mask. -/
def modeSubs : Nat → Nat
  | 1 => 1
  | 2 => 3
  | 4 => 15
  | _ => 0

/-- Is PORT_MODE value `m` one of R37's? -/
def modeKnown (m : Nat) : Bool := m == 0 || m == 1 || m == 2 || m == 4

/-- The gates that an image commits (R376). -/
def State.committed (s : State) (img : Image) : List Nat :=
  let chs := img.dev.shared.foldl (fun a e => a ||| e.chans) (img.sects.foldl (fun a (e : Nat × Sect) => a ||| e.2.chans) 0)
  let used := (List.range 8).filter (fun k => bitsAt chs (32 * k) 32 != 0)
  (if img.sects.isEmpty then [] else [3, 4, 5, 6, 7]) ++ used.map (· + 8) ++ used.map (· + 16) ++
    ((List.range 16).filter (fun j => s.portThere j && img.dev.portMode.getD j 0 != 0)).map (· + 24)

/-- What a section holds: tiles, channels, ways of each half, sub-ports. -/
structure Held where
  t : Nat
  c : Nat
  a : Nat
  b : Nat
  p : Nat

def Held.meets (x y : Held) : Bool := x.t &&& y.t != 0 || x.c &&& y.c != 0 || x.a &&& y.a != 0 || x.b &&& y.b != 0 || x.p &&& y.p != 0
def Held.join (x y : Held) : Held := ⟨x.t ||| y.t, x.c ||| y.c, x.a ||| y.a, x.b ||| y.b, x.p ||| y.p⟩

/-- The resources of a section of the image; one that stays in force holds its live tiles and channels (code 0x0A). -/
def State.heldBy (s : State) (p : Nat) (x : Sect) (stays : Bool) : Held :=
  if stays then ⟨(s.partTiles p).foldl setBit 0, ((s.owner p).map (fun w => w.live.foldl setBit 0)).getD 0, x.waysA, x.waysB, x.ports⟩
  else ⟨x.tiles, x.chans, x.waysA, x.waysB, x.ports⟩

/-- The first section, in table order, whose resources meet those before it. -/
def firstClash : Held → List (Nat × Held) → Option Nat
  | _, [] => none
  | h, (i, x) :: r => if h.meets x then some i else firstClash (h.join x) r

/-- The first section at which a running sum exceeds its limit. -/
def firstOver (lim : Nat) : Nat → List (Nat × Nat) → Option Nat
  | _, [] => none
  | a, (i, v) :: r => if lim < a + v then some i else firstOver lim (a + v) r

/-- An image under check: the load's mode, the image, its partition sections in table order, those that the load applies, and whether it
applies the device section (R44). -/
structure Load where
  full : Bool
  img : Image
  order : List (Nat × Nat)
  applied : List (Nat × Nat)
  dev : Bool

def Load.sect (l : Load) (p : Nat) : Sect := (mfind l.img.sects p).getD (parseSect [] [])

/-- The digest that a partition's section has in the image in force. -/
def State.oldDig (s : State) (p : Nat) : Option (List Byte) := (s.sect p).map (·.dig)

def State.mkLoad (s : State) (full : Bool) (b : List Byte) : Load :=
  let img := parseImage b
  let order := imgOrder b
  { full, img, order,
    applied := order.filter (fun e => full || s.oldDig e.2 != (mfind img.sects e.2).map (·.dig)),
    dev := full || s.fab.image.map (·.dev.dig) != some img.dev.dig }

/-- The partitions whose sections differ from those of the image in force. -/
def State.differs (s : State) (img : Image) : List Nat :=
  (List.range 16).filter (fun p => s.oldDig p != (mfind img.sects p).map (·.dig))

/-- The first of a load's sections, among `l`, that fails. -/
def Load.first (l : Load) (es : List (Nat × Nat)) (code : Nat) (bad : Nat → Sect → Bool) : Option (Nat × Nat) :=
  (es.find? (fun e => bad e.2 (l.sect e.2))).map (fun e => (code, e.1))

/-- Codes 0x08 and 0x09. -/
def State.imgThere (s : State) (l : Load) : Option (Nat × Nat) :=
  let gone := ((List.range 256).filter (fun c => !s.stackThere (c / 32) || (s.chan c).state == 1)).foldl setBit 0
  let roles := if l.full then s.startRoles else s.loadRoles false l.img
  let bad := fun (t : Nat) => s.tileFuse t == 2 || roles.getD t 0 == 3
  (chk (l.dev && l.img.dev.shared.any (fun e => e.chans &&& gone != 0)) 8 0) <|>
  (l.first l.applied 8 (fun _ x => x.chans &&& gone != 0 || (List.range 16).any (fun j => !s.portThere j && bitsAt x.ports (4 * j) 4 != 0))) <|>
  (chk (l.dev && l.img.dev.exch.any (fun e => (decide (e.1 < 152) && bad e.1) || (decide (e.2 < 152) && bad e.2))) 9 0) <|>
  (l.first l.applied 9 (fun _ x => (bitsOf x.tiles 152).any bad))

/-- Codes 0x0A and 0x0B. -/
def State.imgOnce (s : State) (l : Load) : Option (Nat × Nat) :=
  let shared := l.img.dev.shared.map (fun e => (0, (⟨0, e.chans, 0, 0, 0⟩ : Held)))
  let held := l.order.map (fun e => (e.1, s.heldBy e.2 (l.sect e.2) (!(l.applied.any (fun a => a.2 == e.2)))))
  let roles := s.loadRoles l.full l.img
  ((firstClash ⟨0, 0, 0, 0, 0⟩ (shared ++ held)).map (fun i => (0xA, i))) <|>
  (chk (l.dev && (exchange s.startRoles l.img.dev.exch).isNone) 0xB 0) <|>
  (l.first l.applied 0xB (fun _ x => (bitsOf x.tiles 152).any (fun t => roles.getD t 9 != 0) ||
    (List.range 16).any (fun j => bitsAt x.ports (4 * j) 4 &&& (15 - modeSubs (l.img.dev.portMode.getD j 0)) != 0)))

/-- Codes 0x0C to 0x0E. -/
def State.imgSums (s : State) (l : Load) : Option (Nat × Nat) :=
  let col := fun (f : Sect → Nat) => l.order.map (fun e => (e.1, f (l.sect e.2)))
  let conns := fun (p : Nat) (x : Sect) => decide (x.host < x.onchip) || decide (x.host < (s.connsOf p).length)
  (l.first l.applied 0xC (fun _ x => x.chans == 0 ||
    ((bitsAt x.tiles 0 76 != 0 || bitsAt x.chans 0 128 != 0) && x.waysA == 0) ||
    ((bitsAt x.tiles 76 76 != 0 || bitsAt x.chans 128 128 != 0) && x.waysB == 0))) <|>
  ((firstOver 65536 0 (col (·.onchip))).map (fun i => (0xD, i))) <|> ((firstOver 1048576 0 (col (·.host))).map (fun i => (0xD, i))) <|>
  (l.first l.order 0xD conns) <|>
  ((firstOver 1900 0 (col (·.pmin))).map (fun i => (0xE, i))) <|>
  (l.first l.order 0xE (fun _ x => decide (1900 < x.pmax) || decide (x.pmax < x.pmin)))

/-- Code 0x11 in the device section. -/
def State.devRange (s : State) (img : Image) : Bool :=
  let g := fun (i : Nat) => bitsAt img.dev.gate (2 * i) 2
  (List.range 16).any (fun j => !modeKnown (img.dev.portMode.getD j 0)) ||
  (List.range 40).any (fun i => g i == 3) || [0, 1, 2].any (fun i => g i != 2) || (s.committed img).any (fun i => g i == 0) ||
  img.dev.shared.any (fun e => e.chans != 0 && (decide (7 < e.key) || (decide (15 < e.writer) && e.writer != 0xFF) ||
    (decide (e.writer < 16) && !mhas img.sects e.writer) || (bitsOf e.readers 16).any (fun p => !mhas img.sects p)))

/-- Codes 0x0F to 0x13. -/
def State.imgRest (s : State) (l : Load) : Option (Nat × Nat) :=
  (l.first l.applied 0xF (fun p x => !routesOk l.img p x)) <|>
  (l.first l.applied 0x10 (fun _ x => decide (x.spill < 5 * popcount x.tiles 152) || decide (1024 * popcount x.chans 256 < x.spill))) <|>
  (chk (l.dev && s.devRange l.img) 0x11 0) <|>
  (l.first l.applied 0x11 (fun _ x => decide (7 < x.key) || decide (7 < x.prioCeil) || (x.preFloor != 8 && decide (x.prioCeil < x.preFloor)))) <|>
  (chk (!l.full && l.dev) 0x12 0) <|>
  (chk (!l.full && decide (1 < (s.differs l.img).length)) 0x12 ((l.applied.getD 1 (l.applied.getD 0 (0xFF, 0))).1)) <|>
  (chk s.fab.job.isSome 0x13 0xFF)

/-- The code and the section of the failed check that R43 reports; none where the image passes. -/
def State.imgCheck (s : State) (full : Bool) (b : List Byte) : Option (Nat × Nat) :=
  if s.fatal then some (0x14, 0xFF) else
  match s.imgEarly b with
  | some e => some e
  | none =>
    let l := s.mkLoad full b
    s.imgThere l <|> s.imgOnce l <|> s.imgSums l <|> s.imgRest l

-- Clock gates (R31, R373 to R377) -----------------------------------------------------------------------------------------------------------------------

/-- BAR0 range of gate `g`'s block or window. -/
def gateRange (g : Nat) : Nat × Nat :=
  match g with
  | 0 => (0x20000, 0x30000)
  | 1 => (0x50000, 0x60000)
  | 2 => (0x80000, 0x100000)
  | 3 => (0x100000, 0x200000)
  | 4 => (0x400000, 0x410000)
  | 5 => (0x900000, 0xA00000)
  | 6 => (0x280000, 0x300000)
  | 7 => (0x380000, 0x400000)
  | g =>
    if g < 16 then (0x200000 + 0x10000 * (g - 8), 0x210000 + 0x10000 * (g - 8))
    else if g < 24 then (0x300000 + 0x10000 * (g - 16), 0x310000 + 0x10000 * (g - 16))
    else (0x800000 + 0x10000 * (g - 24), 0x810000 + 0x10000 * (g - 24))

/-- Is gate `g` one of the device's: not reserved, and not of an absent window (R373, R375)? -/
def State.gateThere (s : State) (g : Nat) : Bool :=
  decide (g < 8) || (decide (g < 16) && s.stackThere (g - 8)) || (decide (16 ≤ g) && decide (g < 24) && s.stackThere (g - 16)) ||
    (decide (24 ≤ g) && decide (g < 40) && s.portThere (g - 24))

/-- The channels of stack `k` at their state after reset, with the contents and the key tags kept (R31, R373). -/
def State.stackReset (s : State) (k : Nat) : State :=
  let near := fun (c : Nat) => c / 32 == k
  { s with hbm := { s.hbm with
      chan := s.hbm.chan.map (fun (e : Nat × Chan) =>
        if near e.1 then (e.1, { e.2 with state := if s.led.mapped.contains e.1 then 1 else 0 }) else e)
      ues := s.hbm.ues.filter (fun e => !near e.1), scrub := s.hbm.scrub.filter (fun e => !near e.1) } }

/-- The block or unit of gate `g` is back at its reset state; what lies in device memory stays (R31). -/
def State.gateReset (s : State) (g : Nat) : State :=
  let s := if 24 ≤ g then (List.range 4).foldl (fun s k => s.linkFall (g - 24) k) s else s
  let s := s.eraseFields (gateRange g).1 (gateRange g).2
  match g with
  | 3 => { s with sch := [], sq := [], nw := [] }
  | 4 => { s with pal := [] }
  | 5 => { s with zt := ZtS.init }
  | 6 =>
    let chan := s.hbm.chan.map (fun (e : Nat × Chan) => if e.2.state = 2 then (e.1, { e.2 with state := 0 }) else e)
    { s with hbm := { s.hbm with mapJob := none, late := [], chan := chan } }
  | 7 => { s with lig := [] }
  | g => if 8 ≤ g ∧ g < 16 then s.stackReset (g - 8) else if 24 ≤ g then s.ethWipe (g - 24) else s

def State.setGate (s : State) (g : Nat) (on : Bool) : State :=
  let v := s.fget (CLK_EN_EN (g / 32))
  s.fset (CLK_EN_EN (g / 32)) (if on then setBit v (g % 32) else clearBit v (g % 32))

/-- Is the access one to the block or window of gate `g` that was received before its enable was cleared? -/
def HostOp.earlyAt (g : Nat) : HostOp → Bool
  | .early b => decide ((gateRange g).1 ≤ b.off) && decide (b.off < (gateRange g).2)
  | _ => false

/-- CLOCK_DISABLE_EFFECT: the accesses before the disable have finished; the block stops (R31). -/
def State.gateStop (s : State) (g : Nat) : State :=
  if s.clk.offs.contains g && !s.clk.waiting.any (HostOp.earlyAt g) then { s with clk := { s.clk with offs := sdel s.clk.offs g } }.gateReset g else s

/-- The enable of gate `g` becomes 1: the block and its unit start from their reset state (R31); the PHY of a stack was trained at boot and is still
(log entry 174). -/
def State.gateStart (s : State) (g : Nat) : State :=
  if s.gateOn g then s else
  let s := ({ s with clk := { s.clk with offs := sdel s.clk.offs g } }.gateReset g).setGate g true
  if 8 ≤ g ∧ g < 16 ∧ 6 ≤ s.fget GEN_BOOT_STAGE then s.fset (HBM_STACK_STATUS_TRAINED (g - 8)) 1 else s

/-- A waiting access, once the enable of gate `g` has been cleared. -/
def HostOp.closing (g : Nat) : HostOp → HostOp
  | .bus b => if (gateRange g).1 ≤ b.off ∧ b.off < (gateRange g).2 then .early b else .bus b
  | o => o

/-- The enable of gate `g` becomes 0: the disable takes effect once the earlier accesses have finished, those that wait for a relock or a wake among them. -/
def State.gateClose (s : State) (g : Nat) : State :=
  if s.gateOn g then
    { s.setGate g false with clk := { s.clk with offs := sins s.clk.offs g, waiting := s.clk.waiting.map (HostOp.closing g) } }
  else s

/-- Is gate `g` committed or locked: does it ignore a write of 0 (R374, R376, R377)? -/
def State.gateHeld (s : State) (g : Nat) : Bool :=
  decide (g < 3) || (s.fget (CLK_LOCK_LOCK (g / 32))).testBit (g % 32) ||
    (match s.fab.image with
     | none => false
     | some i => (s.committed i).contains g &&
         (decide (7 < g) || (List.range 16).any (fun p => s.active p)))

/-- A write of CLK_ENn (R373 to R377). -/
def State.gateWrite (s : State) (n v : Nat) : State :=
  (List.range 32).foldl (fun s j =>
    let g := 32 * n + j
    if !s.gateThere g then s
    else if v.testBit j then s.gateStart g
    else if s.gateHeld g then s else s.gateClose g) s

/-- An image's CLOCK_GATE commitments take effect (R37, R377). -/
def State.applyGates (s : State) (gate : Nat) : State :=
  ((List.range 40).filter s.gateThere).foldl (fun s g =>
    let v := bitsAt gate (2 * g) 2
    let k := s.fget (CLK_LOCK_LOCK (g / 32))
    let s := s.fset (CLK_LOCK_LOCK (g / 32)) (if v = 2 then setBit k (g % 32) else clearBit k (g % 32))
    if v = 0 then (s.gateClose g).gateStop g else s.gateStart g) s

-- Resources (R47 steps 4 and 5, R48) ---------------------------------------------------------------------------------------------------------------------

/-- The owner of channel `c` in an image: partition, or 16 + shared region, with its key index. -/
def imgOwner (img : Image) (c : Nat) : Option (Nat × Nat) :=
  ((img.sects.find? (fun e => e.2.chans.testBit c)).map (fun e => (e.1, e.2.key))) <|>
    ((List.range 8).find? (fun r => ((img.dev.shared.getD r ⟨0, 0, 0, 0⟩).chans).testBit c)).map
      (fun r => (16 + r, (img.dev.shared.getD r ⟨0, 0, 0, 0⟩).key))

/-- The next key of a channel that leaves its owner (R285): its next owner's index, or FREE. -/
def nextKey (img : Image) (c : Nat) : Nat := match imgOwner img c with | some (_, k) => k | none => 8

/-- The channels that owner `o` holds are zeroed where its set changes: those that stay under its current index, the others under their next key;
mapped-out channels, and those that a maker function has taken from it, are left alone (R47 step 4, R48, R51, R285). -/
def State.scrubChans (s : State) (img : Image) (o : Nat) : State :=
  match s.owner o with
  | none => s
  | some w =>
    let new := imgChans img o
    if s.sameChans img o then s else
    (w.chs.filter (fun c => (s.chan c).state != 1 && (s.chan c).owner == o)).foldl (fun s c => s.zeroChannel c (if new.testBit c then w.cur else nextKey img c)) s

/-- The LLC ways that leave a partition lose its lines (R47 step 4); device memory already holds what they held. -/
def State.dropWays (s : State) (p waysA waysB : Nat) : State :=
  { s with hbm := { s.hbm with llc := s.hbm.llc.filterMap (fun e =>
      let w := if e.1 < 8192 then waysA else waysB
      let l := e.2.filter (fun x => x.part != p || w.testBit x.way)
      if l.isEmpty then none else some (e.1, l)) } }

/-- Which partition's section of an image names tile `t`. -/
def imgTile (img : Image) (t : Nat) : Option Nat := (img.sects.find? (fun e => e.2.tiles.testBit t)).map (·.1)

/-- The tiles that the sections of an image give to their partitions. A named tile that has failed since the checks has its replacement (R54, R55): the tile
of its die that took its assignment, else the lowest SPARE. -/
def State.stands (s : State) (img : Image) : List (Nat × Nat) :=
  img.sects.foldl (fun acc (e : Nat × Sect) => (bitsOf e.2.tiles 152).foldl (fun (acc : List (Nat × Nat)) t =>
    if s.role t ≠ 3 then acc ++ [(t, e.1)] else
    let free := fun (n : Nat) => (imgTile img n).isNone && acc.all (fun a => a.1 != n)
    match ((s.partTiles e.1).filter (fun n => dieOf n == dieOf t && s.tileFuse n == 1) ++ s.spares (dieOf t)).find? free with
    | some n => acc ++ [(n, e.1)]
    | none => acc) acc) []

/-- What leaves partition `p` is cleared (R47 step 4), and its cache tags are dropped (R192). -/
def State.scrubOut (s : State) (img : Image) (p : Nat) : State :=
  let new := mfind img.sects p
  let tiles := ((s.stands img).filter (fun e => e.2 == p)).map (·.1)
  let s := ((s.partTiles p).filter (fun t => !tiles.contains t)).foldl State.tileWipe (s.dropTags p)
  (s.dropWays p ((new.map (·.waysA)).getD 0) ((new.map (·.waysB)).getD 0)).scrubChans img p

/-- Owner `o` takes its channels of an image, in increasing order: one whose set is unchanged keeps its layout and its contents (R269, R48). A channel
that it gains holds zeros: under its index from an owner that left it, or still FREE from the free pool (R49, R285). A partition whose space is
re-formed has no page in a frame. -/
def State.setOwner (s : State) (img : Image) (o spill key : Nat) : State :=
  let new := imgChans img o
  if s.sameChans img o then
    match s.owner o with
    | some w => { s with hbm := { s.hbm with own := mins s.hbm.own o { w with spill, cur := key } } }
    | none => s
  else
    let chs := bitsOf new 256
    let s := (chs.filter (fun c => (s.chan c).owner != o)).foldl (fun s c => s.zeroChannel c (s.chan c).tag) s
    let s := (List.range chs.length).foldl (fun s k => let c := chs.getD k 0; s.setChan c { s.chan c with owner := o, slot := k }) s
    let sp := s.sp o
    let s := if o < 16 then s.setSp o { sp with frames := [], transit := [], frameUse := [], lost := [], demand := [], counted := [], modelUse := [] } else s
    { s with hbm := { s.hbm with own := if new = 0 then mdel s.hbm.own o else mins s.hbm.own o ⟨chs, [], spill, key⟩ } }

/-- The channels that no owner of the image has are free (R285). -/
def State.freeChans (s : State) (img : Image) : State :=
  (List.range 256).foldl (fun s c =>
    if (s.chan c).owner ≠ 24 ∧ (imgOwner img c).isNone then s.setChan c { s.chan c with owner := 24, slot := 0 } else s) s

/-- Everything of a partition whose section is gone (R44): its contexts are free, its descriptors and its pages forgotten. -/
def State.dropPart (s : State) (p : Nat) : State :=
  let mine := (s.connsOf p).map (·.1)
  { s.setSp p SchP.init with
    zt := { s.zt with ctx := s.zt.ctx.filter (fun e => !mine.contains e.1), fetch := s.zt.fetch.filter (fun i => !mine.contains i),
                      miss := s.zt.miss.filter (fun e => !mine.contains e.1), int := s.zt.int.filter (fun r => r.part != p),
                      gens := mine.foldl (fun m i => mset 0 m i ((mget 0 m i + 1) % 4096)) s.zt.gens }
    hif := { s.hif with bias := s.hif.bias.filter (fun e => e.1 / 2 ^ 18 != p) } }

/-- A partition's section of the image takes effect but for its tiles (R47 step 5): owner, connections, state. -/
def State.applySect (s : State) (img : Image) (p : Nat) : State :=
  match mfind img.sects p with
  | some x => (State.zTrim p (s.connsOf p).length (s.setOwner img p x.spill x.key)).fset (FAB_PART_STATE_P p) 1
  | none => (if (s.owner p).isSome then (s.setOwner img p 0 0).dropPart p else s).fset (FAB_PART_STATE_P p) 0

/-- The header values of the image in force; it waits to be stored (R53). -/
def State.inForce (s : State) (img : Image) (b : List Byte) : State :=
  { s.fsets [(FAB_STATUS_LOADED, 1), (FAB_STATUS_STORED, 0), (FAB_IMAGE_ID_ID, img.id), (FAB_IMAGE_VERSION_VERSION, img.version)] with
    fab := { s.fab with image := some img, meas := shake256 b 32, store := some (b, img.version) } }

/-- Tile `t` has the role that the image gives it: assigned to `p`, or its role without a partition; its clock follows (R38). -/
def State.giveTile (s : State) (t role : Nat) (p : Option Nat) : State :=
  if s.tilePart t = p ∧ (p.isSome ∨ s.role t = role) then s
  else match p with
    | some p => (s.setRole t 1 p).tileEn t true
    | none => (s.setRole t role 0).tileEn t false

/-- A full load takes effect (R47 step 5, R17): roles, device section, partition sections. -/
def State.applyFull (s : State) (j : LoadJob) : State :=
  let roles := s.loadRoles true j.img
  let was := List.range 16
  let s := was.foldl (fun s p => (if mhas j.img.sects p then s else s.fset (FAB_PART_STATE_P p) 0)) s
  let stands := s.stands j.img
  let s := (List.range 152).foldl (fun s t => s.giveTile t (roles.getD t 0) (mfind stands t)) s
  let s := (List.range 8).foldl (fun s r => s.scrubChans j.img (16 + r)) s
  -- the links of a port whose mode changes fall first, so that a recovered clock in use fails with its link (R366)
  let s := (List.range 16).foldl (fun s k =>
    if s.portThere k && s.fget (ETH_STATUS_MODE k) != j.img.dev.portMode.getD k 0
    then (List.range 4).foldl (fun s q => s.linkFall k q) s else s) s
  let s := s.inForce j.img j.bytes
  let s := s.applyGates j.img.dev.gate
  let s := (List.range 16).foldl (fun s k => if s.portThere k then s.fset (ETH_STATUS_MODE k) (j.img.dev.portMode.getD k 0) else s) s
  let s := (List.range 16).foldl (fun s p => s.applySect j.img p) s
  let s := (List.range 8).foldl (fun s r => s.setOwner j.img (16 + r) 0 (j.img.dev.shared.getD r ⟨0, 0, 0, 0⟩).key) s
  s.freeChans j.img

/-- A heavy partial load takes effect (R47 step 5); the enables that the image commits are written (R377). -/
def State.applyPart (s : State) (j : LoadJob) : State :=
  let p := j.part
  let tiles := ((s.stands j.img).filter (fun e => e.2 == p)).map (·.1)
  let s := (s.partTiles p).foldl (fun s t => if tiles.contains t then s else s.giveTile t 0 none) s
  let s := tiles.foldl (fun s t => s.giveTile t 1 (some p)) s
  let s := ((s.inForce j.img j.bytes).applySect j.img p).freeChans j.img
  (s.committed j.img).foldl State.gateStart s

/-- The load in progress ends: its sections take effect, BUSY becomes 0. -/
def State.loadEnd (s : State) (j : LoadJob) : State :=
  let s := { s with fab := { s.fab with job := none } }
  (if j.full then s.applyFull j else s.applyPart j).fset FAB_STATUS_BUSY 0

-- Loads (R43 to R53) ----------------------------------------------------------------------------------------------------------------------------------------

/-- The sections equal in all but the fields that a light change may touch (R45). -/
def lightOnly (x y : Sect) : Bool :=
  { x with name := [], pmin := 0, pmax := 0, prioCeil := 0, preFloor := 0, onchip := 0, host := 0, key := 0, dig := [] } ==
  { y with name := [], pmin := 0, pmax := 0, prioCeil := 0, preFloor := 0, onchip := 0, host := 0, key := 0, dig := [] }

/-- LIGHT_CHANGE_APPLY (R45, R287): the new index is current at once, the excess contexts leave the chip. -/
def State.lightApply (s : State) (img : Image) (b : List Byte) (p : Nat) : State :=
  match mfind img.sects p, s.owner p with
  | some x, some w =>
    let s := s.inForce img b
    State.zTrim p (s.connsOf p).length { s with hbm := { s.hbm with own := mins s.hbm.own p { w with cur := x.key } } }
  | _, _ => s.inForce img b

/-- The partitions of `ps` that are in force enter DRAINING; with none the load takes effect at once (R47, R49). -/
def State.heavyStart (s : State) (full : Bool) (part : Nat) (img : Image) (b : List Byte) (ps : List Nat) : State :=
  let left := ps.filter (fun p => (s.sect p).isSome)
  let s := (left.foldl (fun s p => s.fset (FAB_PART_STATE_P p) 2) s).fset FAB_STATUS_BUSY 1
  let j : LoadJob := ⟨full, part, img, b, left⟩
  if left.isEmpty then s.loadEnd j else { s with fab := { s.fab with job := some j } }

/-- An accepted load starts (R44, R45). -/
def State.loadStart (s : State) (full : Bool) (b : List Byte) : State :=
  let img := parseImage b
  let mode := fun (m p n : Nat) (s : State) => s.fsets [(FAB_STATUS_LOAD_MODE, m), (FAB_STATUS_LOAD_PART, p), (FAB_STATUS_NO_SECTION, n)]
  if full then (mode 1 0 0 s).heavyStart true 0 img b (List.range 16)
  else match s.differs img with
    | [] => (mode 3 0 1 s).inForce img b
    | p :: _ =>
      match s.sect p, mfind img.sects p with
      | some x, some y => if lightOnly x y then (mode 3 p 0 s).lightApply img b p else (mode 2 p 0 s).heavyStart false p img b [p]
      | _, _ => (mode 2 p 0 s).heavyStart false p img b [p]

/-- The detail of an image in a logbook record: IMAGE_ID and VERSION (R427). -/
def imgArg (b : List Byte) (code sec : Nat) : List Byte := bytesAt b 0x10 12 ++ leBytes 1 code ++ leBytes 1 sec

/-- FABRIC_REJECT (R43): nothing changes but REJECTED, FAB_REJECT and the fabric-reject event. -/
def State.fabReject (s : State) (code sec : Nat) : State :=
  (s.fsets [(FAB_STATUS_REJECTED, 1), (FAB_REJECT_SECTION, sec), (FAB_REJECT_CODE, code)]).devEv 0x02 2 code (Config.evDetail 2).toNat

/-- A load's checks and its start: the code of the rejection, 0 when it is accepted. -/
def State.loadImage (s : State) (full : Bool) (b : List Byte) : Nat × State :=
  match s.imgCheck full b with
  | some (code, sec) => (code, s.fabReject code sec)
  | none => (0, s.loadStart full b)

-- The steps of a heavy load (R47) ------------------------------------------------------------------------------------------------------------------------------

/-- Is the partition drained: no task on tiles or spilled, no ligature step in progress and no slow-tier update under way (R47, R183, R207)? -/
def State.drained (s : State) (p : Nat) : Bool :=
  (s.sp p).tasks.all (fun e => e.2.st == .queued || e.2.st == .retry) && (s.lp p).cur.isNone && (s.lp p).slow.all (fun w => w.upd.isNone)

/-- PARTITION_DRAIN_END (R47 step 3). -/
def State.drainEnd (s : State) (p : Nat) : State :=
  if s.fget (FAB_PART_STATE_P p) = 2 ∧ s.drained p then s.fset (FAB_PART_STATE_P p) 3 else s

/-- The ligature work at the drain timeout (R183): a step whose flag has arrived begins what waits and finishes; one that awaits another member still does
so later (log entry 196). Another step is rolled back. What waits besides, and the slow-tier updates under way, are discarded. -/
def State.ligDrain (s : State) (p : Nat) : State :=
  let s := if (s.lp p).flag.isSome then (((s.ligBeginAll p).stepCommit p).rollbackDone p) else
    if (s.lp p).cur.isSome then (s.ligUndo p).ligSkipEnd p true else s
  let x := s.lp p
  (s.setLp p { x with notes := x.notes.filter (fun y => x.flag.isSome && some y.step == x.cur), slow := x.slow.filter (fun w => w.upd.isNone) }).ligIdle p

/-- RELOAD_TIMEOUT (R47 step 3): tasks that still run end ABORTED; the member leaves its bunting (R233). -/
def State.reloadTimeout (s : State) (p : Nat) : State :=
  if s.fget (FAB_PART_STATE_P p) ≠ 2 then s else
  let s := ((s.sp p).tasks.filter (fun e => e.2.st != .queued && e.2.st != .retry)).foldl (fun s e => s.taskEnd p e.1 1 0xFF 0xFF 0 e.2) s
  let s := s.ligDrain p
  let s := if s.fbit (SCH_SQ_CTRL_ENABLE p) then (match s.bunt p with | some b => s.memberLost p b.self | none => s) else s
  s.fset (FAB_PART_STATE_P p) 3

/-- SCRUB_COMPLETE (R47 steps 4 and 5). -/
def State.scrubEnd (s : State) (p : Nat) : State :=
  match s.fab.job with
  | none => s
  | some j =>
    if s.fget (FAB_PART_STATE_P p) ≠ 3 ∨ !j.left.contains p then s else
    -- a ligature step that still waited for another member ends with the partition's old section (R183; log entry 196)
    let s := (match (s.lp p).cur with | some n => s.ligEndStep p n false | none => s).scrubOut j.img p
    let j := { j with left := sdel j.left p }
    if j.left.isEmpty then s.loadEnd j else { s with fab := { s.fab with job := some j } }

/-- IMAGE_STORE_COMPLETE (R53): the image is in flash and the floor is raised, or the write failed. -/
def State.imageStored (s : State) (ok : Bool) : State :=
  match s.fab.store with
  | none => s
  | some (b, v) =>
    let s := { s with fab := { s.fab with store := none } }
    if ok then
      { s with nv := s.nv.rewrite 1 { s.nv with image := some b, floor := max s.nv.floor v } }.fset FAB_STATUS_STORED 1
    else s.devEv 0x03 3 (Config.evCode 3).toNat (Config.evDetail 3).toNat

def execPartitionDrainEnd (p : Nat) (s : State) : Host.Outcome State Fault Refusal := onUnit (p < 16) (s.drainEnd p)
def execReloadTimeout (p : Nat) (s : State) : Host.Outcome State Fault Refusal := onUnit (p < 16) (s.reloadTimeout p)
def execScrubComplete (p : Nat) (s : State) : Host.Outcome State Fault Refusal := onUnit (p < 16) (s.scrubEnd p)
def execImageStoreComplete (ok : Bool) (s : State) : Host.Outcome State Fault Refusal := .next (s.imageStored ok)
def execClockDisableEffect (g : Nat) (s : State) : Host.Outcome State Fault Refusal := onUnit (g < 40) (s.gateStop g)

end Sys2Proof.Machine
end

