-- ==== Sys2Proof/Machine/Boot.lean ====
section
/-!
DEFINITION. Supplies, resets, the SMBus target, user trim and the boot sequence (R448 to R463).
-/
namespace Sys2Proof.Machine

/-- The value of a register: its fields in their places. -/
def State.regVal (s : State) (r : Reg) : Nat := (r.flds.map (fun f => s.fget f * 2 ^ f.lo)).sum

-- Trim (R458 to R460) -----------------------------------------------------------------------------------------------------------------------

/-- Are the `n` signed fields of `w` bytes at `o` within their bounds? -/
def trimIn (b : List Byte) (o n w : Nat) (lo hi : Int) : Bool :=
  (List.range n).all (fun i => let v := toSigned (8 * w) (leAt b (o + w * i) w); decide (lo ≤ v) && decide (v ≤ hi))

/-- A trim record's form, reserved bytes and bounds (R458, R459). -/
def trimOk (b : List Byte) : Bool :=
  b.length == 512 && leAt b 0 4 == 0x394D5254 && leAt b 4 2 == 1 && zeroAt b 8 8 && zeroAt b 0x3E 8 && zeroAt b 0x1CE 34 &&
    trimIn b 0x10 8 1 (-20) 15 && decide (leAt b 0x18 2 ≤ 300) && trimIn b 0x1A 1 2 (-10000) 10000 && trimIn b 0x1C 10 1 (-5) 5 &&
    trimIn b 0x26 16 1 (-80) 0 && trimIn b 0x36 8 1 (-8) 8 && trimIn b 0x46 8 1 (-8) 8 && trimIn b 0x4E 384 1 (-4) 4

/-- Does the record's DIGEST hold? -/
def trimDigest (b : List Byte) : Bool := shake256 (bytesAt b 0 0x1F0) 16 == bytesAt b 0x1F0 16

/-- The stored trim record takes effect at boot, or is rejected (R460). -/
def State.trimBoot (s : State) : State :=
  match s.nv.trim with
  | none => s
  | some b =>
    if trimOk b && trimDigest b then
      { s with gen := { s.gen with trim := some b } }.fsets [(GEN_TRIM_STATUS_APPLIED, 1), (GEN_TRIM_STATUS_SEQ, leAt b 6 2)]
    else (s.fset GEN_TRIM_STATUS_REJECTED 1).logOwn 2 []

-- Reset (R450 to R455) --------------------------------------------------------------------------------------------------------------------------

/-- Is the module in operation: input in range, rails on, no reset in progress? -/
def State.powered (s : State) : Bool := s.gen.vin == 1 && s.gen.rails && s.gen.causes.isEmpty

/-- Every unit outside the always-on domain is held in reset with its rails off (R451): the security and event blocks, the management port, the
flash and the supply monitor run on, and the ledger keeps the energy and time counted so far. -/
def State.railsOff (s : State) : State :=
  let r := State.after s.fuse s.nv { s.gen with rails := false, readyMs := none, trim := none, onUs := s.gen.onUs % 1000000 } s.ledgerNow
  let kept := s.fields.filter (fun e => let o := e.1 / 128; decide (o < 0x10000) || (decide (0x30000 ≤ o) && decide (o < 0x50000)))
  { r with now := s.now, fields := kept, split := s.split, host := s.host, evt := s.evt, sec := s.sec, out := s.out, freeN := s.freeN,
           pending := s.pending }.fsets [(GEN_PINS_PWR_GOOD, 0), (GEN_BOOT_READY, 0), (GEN_BOOT_STAGE, 0)]

/-- Does fault source `c` still hold the device, after none of `ends` has come since (R451, R455)? -/
def latched (causes : List Nat) (c : Nat) (ends : List Nat) : Bool :=
  causes.contains c && !(causes.reverse.takeWhile (· != c)).any ends.contains

/-- A rail fault is released by SYS_RESET_N or by the input, a thermal trip by the input alone. -/
def railHeld (causes : List Nat) : Bool := latched causes 4 [1, 2]
def tripHeld (causes : List Nat) : Bool := latched causes 5 [1]

/-- A device reset begins for a cause (R452): every unit is in reset until the last source is released. What the flash, the fuses and the pins hold
stays. -/
def State.resetBegin (s : State) (cause : Nat) : State :=
  let causes := s.gen.causes ++ [cause]
  -- FAULT_N stays asserted under a fault that is not released, and with it the alert (R450, R451, R455, R456)
  let fault := railHeld causes || tripHeld causes || s.gen.vin == 2
  let gen := { s.gen with causes, prepare := false, readyOff := false, resetAfter := false, alert := s.gen.alert && fault, readyMs := none, trim := none,
                          snaps := [], flashBad := false, recs := [], onUs := 0 }
  { State.after s.fuse s.nv gen s.led with host := s.host, out := s.out, freeN := s.freeN, pending := s.pending }.fsets
    [(GEN_PINS_FAULT_N, 1 - b2n fault), (GEN_PINS_THERMTRIP_N, 1 - b2n (tripHeld causes))]

/-- Has the last source of the reset been released (R451, R452, R455)? -/
def State.released (s : State) : Bool :=
  !s.gen.causes.isEmpty && s.gen.vin == 1 && !railHeld s.gen.causes && !tripHeld s.gen.causes

/-- DEVICE_RESET (R452, R461): the last source is released; every unit is at its reset state and the boot starts. The ledger is what its newest
snapshot holds, with the persistent facts, which are never lost (R282, R443, R454). -/
def State.deviceReset (s : State) : State :=
  if !s.released then s else
  let nv := { s.nv with boots := (s.nv.boots + 1) % 2 ^ 32, orderly := false, trip := false, railFault := false }
  let gen := { GenS.powerOn with perst := s.gen.perst, prsnt := s.gen.prsnt, modules := s.gen.modules, cause := (s.gen.causes.foldl min 0xF), orderly := s.nv.orderly,
                                 trip := s.nv.trip, railFault := s.nv.railFault }
  let led := { (s.nv.snap.map (·.led)).getD Ledger.init with failed := s.led.failed, mapped := s.led.mapped, aged := s.led.aged }
  { State.after s.fuse nv gen led with host := s.host, out := s.out, freeN := s.freeN, pending := s.pending }

/-- VIN_RISE (R450): VIN passes 46.0 V, a power-on reset. -/
def State.vinRise (s : State) : State := if s.gen.vin ≠ 0 then s else ({ s with gen := { s.gen with vin := 1, rails := true } }).resetBegin 1

/-- The firmware floor after a loss of power: one that meets FW_COMMIT before its microsecond is over leaves the floor between its old and new values (R411,
log entry 211). -/
def State.floorCut (s : State) : State :=
  match s.sec.commit with
  | some (old, t) =>
    if t = s.now ∧ old < s.nv.fwFloor then
      let (v, s) := s.free 8
      { s with nv := { s.nv with fwFloor := old + v % (s.nv.fwFloor - old + 1) } }
    else s
  | none => s

/-- VIN_FALL (R450): the module is off; the latches of R451 and R455 end. -/
def State.vinFall (s : State) : State :=
  let s := s.floorCut
  let r := s.railsOff
  { (State.after s.fuse s.nv { r.gen with vin := 0, prepare := false, readyOff := false, resetAfter := false, alert := false, snaps := [],
                                          flashBad := false, recs := [], onUs := 0, causes := s.gen.causes.filter (fun c => c != 3) } s.led) with
    host := s.host, out := s.out, freeN := s.freeN, pending := s.pending }

/-- VIN_OVERVOLTAGE (R450): every rail is off and FAULT_N asserted. -/
def State.vinOver (s : State) : State :=
  if s.gen.vin ≠ 1 then s else
  let s := (s.railsOff).fset GEN_PINS_FAULT_N 0
  { s with gen := { s.gen with vin := 2, alert := true } }

/-- VIN_OVERVOLTAGE_CLEAR: the rails come up again and the boot goes on from their sequencing, unless another fault holds them off. -/
def State.vinClear (s : State) : State :=
  if s.gen.vin ≠ 2 then s else
  let held := railHeld s.gen.causes || tripHeld s.gen.causes
  let s := { s with gen := { s.gen with vin := 1, rails := !held, alert := s.gen.alert && (held || s.fatal || s.gen.readyOff) } }
  if held || s.fatal then s.fset GEN_BOOT_STAGE 1 else s.fsets [(GEN_PINS_FAULT_N, 1), (GEN_BOOT_STAGE, 1)]

/-- RAIL_FAULT (R451, R440 cause 0x4): a checked point stood out of its tolerance for 50 µs. -/
def State.railFault (s : State) (i : Nat) : State :=
  if !s.gen.rails ∨ !s.pointChecked i then s else
  let s := { s with nv := { s.nv with railFault := true } }.railsOff
  (State.goFatal { s with gen := { s.gen with causes := s.gen.causes ++ [4] } } 4).fset GEN_PINS_FAULT_N 0

/-- THERMAL_TRIP (R455), whether the rails are still on or not. It is latched until the input falls. -/
def State.thermalTrip (s : State) : State :=
  if s.gen.vin = 0 ∨ tripHeld s.gen.causes then s else
  let ev := { mkEv 0x30 4 none false (Config.evCode 0x30).toNat (Config.evDetail 0x30).toNat with time := s.now }.bytes 0xFF 0 0
  let s := { s with nv := { s.nv with trip := true } }.railsOff
  ({ s with gen := { s.gen with causes := s.gen.causes ++ [5], alert := true } }.fsets [(GEN_PINS_THERMTRIP_N, 0), (GEN_PINS_FAULT_N, 0)]).faultRecord ev

/-- SYS_RESET_ASSERT (R452): SYS_RESET_N is low; it takes effect at once (R454). The rails come up unless a trip or the input holds them off. -/
def State.sysReset (s : State) : State :=
  if s.gen.vin = 0 ∨ s.gen.causes.getLast? = some 2 then s else
  ({ s with gen := { s.gen with sysReset := false, rails := s.gen.vin == 1 && !tripHeld s.gen.causes } }).resetBegin 2

/-- PREPARE_OFF (R453, R456): the logbook records it, and the first begins the orderly shutdown. -/
def State.prepareOff (s : State) : State :=
  if s.gen.vin = 0 then s else
  let s := s.logOwn 1 []
  if s.gen.prepare then s else { s with gen := { s.gen with prepare := true } }.snapDue 2

/-- READY_OFF (R453): the snapshot and the held records are written, which a failed ledger write that waits for its retry delays. After a Jexrex RESET the
device reset follows. -/
def State.readyOffSet (s : State) : State :=
  if !s.gen.prepare ∨ s.gen.readyOff ∨ s.gen.flashBad then s else
  let s := { s with gen := { s.gen with snaps := s.gen.snaps.filter (· != 2) } }.snapshot 2 true
  let s := s.logClose.logFlush
  let after := s.gen.resetAfter
  let s := { s with gen := { s.gen with readyOff := true, alert := true }, nv := { s.nv with orderly := true } }
  if after then s.resetBegin 3 else s

-- SMBus (R456) ---------------------------------------------------------------------------------------------------------------------------------------

/-- The target answers whenever point 23 is good. -/
def State.smb (s : State) (d : List Byte) : State := if s.gen.vin = 0 then s else s.emit (.smb d)

/-- STATUS; reading it releases SMB_ALERT_N. -/
def State.smbStatus (s : State) : State :=
  if s.gen.vin = 0 then s else
  let v := s.fget GEN_PINS_PWR_GOOD + 2 * s.fget SEC_STATUS_FW_VALID + 4 * s.fget GEN_BOOT_READY + 8 * s.fget SEC_STATUS_RECOVERY +
    16 * s.fget PWR_STATUS_THROTTLING + 32 * (1 - s.fget GEN_PINS_FAULT_N) + 64 * b2n s.gen.readyOff
  { s.smb (leBytes 1 v) with gen := { s.gen with alert := false } }

def State.smbInput (s : State) : State :=
  s.smb (leBytes 2 (s.fget PWR_INPUT_VOLT) ++ leBytes 2 (s.fget PWR_INPUT_CURRENT_CENTIAMP) ++ leBytes 2 (s.fget PWR_INPUT_POWER_W) ++ leBytes 2 0)

def State.smbTemp (s : State) : State :=
  s.smb (leBytes 1 s.pwr.hotDie ++ leBytes 1 s.pwr.hotStack ++ leBytes 1 (s.fget PWR_THERM_THROTTLE_C) ++ leBytes 1 0)

def State.smbEnergy (s : State) : State := s.smb (leBytes 8 (s.fget PWR_ENERGY_TOTAL_UJ / 1000000))

def State.smbIdentity (s : State) : State :=
  s.smb (leBytes 4 (s.regVal GEN_DEVID) ++ leBytes 4 (s.regVal GEN_REVISION) ++ leBytes 8 (s.fget SEC_DEVICE_ID_ID))

-- Boot (R461) --------------------------------------------------------------------------------------------------------------------------------------------

/-- Stage 3: the firmware passes R411 and runs, or the recovery loader runs (R412). -/
def State.bootFw (s : State) : State :=
  let f := s.nv.fw
  if f.good && decide (f.key < 2) && !(f.key == 0 && s.nv.key0Revoked) && decide (s.nv.fwFloor ≤ f.svn) then
    { s with sec := { s.sec with run := some f } }.fsets [(SEC_STATUS_FW_VALID, 1), (GEN_BOOT_STAGE, 4)]
  else s.fsets [(SEC_STATUS_RECOVERY, 1), (SEC_STATUS_FW_VALID, 0)]

/-- The timing centres that the channels are trained with: the fused ones plus the trims of their stack (R457, R459). -/
def State.centres (s : State) : State :=
  let c := (List.range 256).filterMap (fun c =>
    if s.stackThere (c / 32) then
      let f := mget (0, 0) s.fuse.centre c
      let v := (f.1 + s.trimByte (0x36 + c / 32), f.2 + s.trimByte (0x46 + c / 32))
      if v = (0, 0) then none else some (c, v)
    else none)
  { s with hbm := { s.hbm with centre := c } }

/-- Stage 5: the populated stacks are trained (R288); their channels that fail training are mapped out (R278, R280). -/
def State.bootTrain (s : State) (bad : List Nat) : State :=
  let s := s.fsets (((List.range 8).filter s.stackThere).map (fun k => (HBM_STACK_STATUS_TRAINED k, 1)))
  (bad.filter (fun c => decide (c < 256) && s.stackThere (c / 32))).foldl (fun s c =>
    (s.setChan c { s.chan c with state := 1 }).ledFact { s.led with mapped := sins s.led.mapped c }) s.centres

/-- Stage 7: the stored image is loaded as a full load, with its checks (R53). -/
def State.bootImage (s : State) : State :=
  match s.nv.image with
  | none => s
  | some b =>
    let (code, s) := s.loadImage true b
    if code = 0 then { s with fab := { s.fab with store := none } }.fset FAB_STATUS_STORED 1
    else s.logOwn 3 (imgArg b code (s.fget FAB_REJECT_SECTION))

/-- Stage 4: the trim takes effect, and gates 0 to 2 are set and held (R374, R460). -/
def State.bootGates (s : State) : State :=
  let s := ((s.trimBoot.gateStart 0).gateStart 1).gateStart 2
  s.fset (CLK_LOCK_LOCK 0) (s.fget (CLK_LOCK_LOCK 0) ||| 7)

/-- Stage 6: every tile that is not BAD is measured: with its measurement in `meas` (none: it fails), or at its fused maximum (log entry 205). -/
def State.bootMeasure (s : State) (meas : List (Nat × Option Nat)) : State :=
  ((List.range 152).filter (fun t => s.tileFuse t != 2)).foldl (fun s t =>
    s.fmaxMeasure t (((meas.find? (fun e => e.1 == t)).map (·.2)).getD (some (s.fusedMhz t)))) s

/-- BOOT_STAGE_COMPLETE (R461): the stage in progress completes. `bad`: channels that fail training (stage 5); `meas`: the maximum-frequency
measurements of stage 6. -/
def State.bootStage (s : State) (bad : List Nat) (meas : List (Nat × Option Nat)) : State :=
  if !s.powered ∨ s.fbit GEN_BOOT_READY ∨ s.fbit SEC_STATUS_RECOVERY then s else
  match s.fget GEN_BOOT_STAGE with
  | 0 => s.fset GEN_BOOT_STAGE 1
  | 1 => s.fsets [(GEN_PINS_PWR_GOOD, 1), (GEN_BOOT_STAGE, 2)]
  | 2 => s.firstLock.fset GEN_BOOT_STAGE 3
  | 3 => s.bootFw
  | 4 => s.bootGates.fset GEN_BOOT_STAGE 5
  | 5 => (s.bootTrain bad).fset GEN_BOOT_STAGE 6
  | 6 => (s.bootMeasure meas).fset GEN_BOOT_STAGE 7
  | 7 => let s := s.bootImage
         { s with gen := { s.gen with readyMs := some (s.now / 1000) } }.fsets [(GEN_BOOT_STAGE, 8), (GEN_BOOT_READY, 1)]
  | _ => s

def execVinRise (s : State) : Host.Outcome State Fault Refusal := .next s.vinRise
def execVinFall (s : State) : Host.Outcome State Fault Refusal := .next s.vinFall
def execVinOvervoltage (s : State) : Host.Outcome State Fault Refusal := .next s.vinOver
def execVinOvervoltageClear (s : State) : Host.Outcome State Fault Refusal := .next s.vinClear
def execRailFault (i : Nat) (s : State) : Host.Outcome State Fault Refusal := onUnit (i < 24) (s.railFault i)
def execThermalTrip (s : State) : Host.Outcome State Fault Refusal := .next s.thermalTrip
def execSysResetAssert (s : State) : Host.Outcome State Fault Refusal := .next s.sysReset
def execDeviceReset (s : State) : Host.Outcome State Fault Refusal := .next s.deviceReset
def execBootStageComplete (bad : List Nat) (meas : List (Nat × Option Nat)) (s : State) : Host.Outcome State Fault Refusal :=
  .next (s.bootStage bad meas)
def execSmbStatus (s : State) : Host.Outcome State Fault Refusal := .next s.smbStatus
def execSmbInput (s : State) : Host.Outcome State Fault Refusal := .next s.smbInput
def execSmbTemp (s : State) : Host.Outcome State Fault Refusal := .next s.smbTemp
def execSmbEnergy (s : State) : Host.Outcome State Fault Refusal := .next s.smbEnergy
def execSmbIdentity (s : State) : Host.Outcome State Fault Refusal := .next s.smbIdentity
def execPrepareOff (s : State) : Host.Outcome State Fault Refusal := .next s.prepareOff
def execReadyOff (s : State) : Host.Outcome State Fault Refusal := .next s.readyOffSet

end Sys2Proof.Machine
end

