-- ==== Sys2Proof/Machine/Bus.lean ====
section
/-!
DEFINITION. The peripheral bus: BAR0 accesses with their bus errors (R23 to R31), the two-word scheme of 64-bit registers (R9 to R11), who may
read and write a register, and what a write does in each block (the access rules of chapters 02 to 19).
-/
namespace Sys2Proof.Machine

-- Sources (R11, R29) ------------------------------------------------------------------------------------------------------------------------

/-- A source's number in the table of splits. -/
def srcNo : Src → Nat
  | .host f => f
  | .fw => 31
  | .sess n => 32 + n

/-- SOURCE of GEN_BUSERR_STATUS. -/
def srcCode : Src → Nat
  | .host _ => 0
  | .sess _ => 1
  | .fw => 2

/-- Is the source one of the device's: a function of 17, a session of 8, the firmware? -/
def srcOk : Src → Bool
  | .host f => decide (f < 17)
  | .sess n => decide (n < 8)
  | .fw => true

def State.splitOf (s : State) (src : Src) : Split := mget ⟨none, none⟩ s.split (srcNo src)
def State.setSplit (s : State) (src : Src) (x : Split) : State := { s with split := mset ⟨none, none⟩ s.split (srcNo src) x }

-- Bus errors (R23 to R29) -----------------------------------------------------------------------------------------------------------------------

/-- Is offset `a` in a hole (R23)? -/
def busHole (a : Nat) : Bool :=
  (decide (0x60000 ≤ a) && decide (a < 0x80000)) || (decide (0x410000 ≤ a) && decide (a < 0x800000)) ||
    (decide (0xB00000 ≤ a) && decide (a < 0x1000000)) || decide (0x1980000 ≤ a)

/-- The tile whose window holds `a` (R24). -/
def tileAt (a : Nat) : Option Nat := if 0x1000000 ≤ a ∧ a < 0x1980000 then some ((a - 0x1000000) / 0x10000) else none

/-- The gate of the block or window that holds `a` (R24, R373). -/
def gateAt (a : Nat) : Option Nat := (List.range 40).find? (fun g => decide ((gateRange g).1 ≤ a) && decide (a < (gateRange g).2))

/-- Is the block or window at `a` clocked? A gated block answers from READY on (R461). -/
def State.clocked (s : State) (a : Nat) : Bool :=
  match tileAt a with
  | some t => (s.fget (CLK_TILE_EN_EN (t / 32))).testBit (t % 32)
  | none => match gateAt a with
    | some g => s.gateOn g && s.fbit GEN_BOOT_READY
    | none => true

/-- CAUSE of an access of `w` bytes at `a`, in the order of R27; 0 where it completes. -/
def State.busCause (s : State) (a w : Nat) : Nat :=
  if (w ≠ 4 ∧ w ≠ 8) ∨ a % w ≠ 0 then 4
  else if busHole a then 3
  else if (match tileAt a with | some t => s.tileFuse t == 2 | none => false) then 5
  else if (match gateAt a with | some g => !s.gateThere g | none => false) then 2
  else if s.clocked a then 0 else 1

/-- Records a bus error (R29). -/
def State.busErr (s : State) (src : Src) (write : Bool) (cause a : Nat) : State :=
  let t := s.recErr { idx := 0, valid := GEN_BUSERR_STATUS_VALID, ovf := some GEN_BUSERR_STATUS_OVERFLOW,
                      fill := [(GEN_BUSERR_STATUS_SOURCE, srcCode src), (GEN_BUSERR_STATUS_WRITE, b2n write), (GEN_BUSERR_STATUS_CAUSE, cause),
                               (GEN_BUSERR_ADDR_OFFSET, a), (GEN_BUSERR_STATUS_COUNT, 0)],
                      ev := mkEv 0x01 2 none false cause a }
  t.fsat GEN_BUSERR_STATUS_COUNT 1

-- Who a register belongs to ---------------------------------------------------------------------------------------------------------------------

/-- What an offset belongs to: the device, a partition, a tile, a port, or the memory controllers. -/
inductive Place where
  | device
  | part (p : Nat)
  | tile (t : Nat)
  | port (j : Nat)
  | hbm
  deriving DecidableEq, Repr

/-- Bases and strides of the groups of which every partition has one. -/
def groups : List (Nat × Nat) :=
  [(0x21000, 0x40), (0x40400, 0x40), (0x100000, 0x100), (0x101000, 0x400), (0x10C000, 0x100), (0x10F000, 0x40), (0x280100, 8), (0x280200, 4),
   (0x280300, 8), (0x380000, 0x80), (0x400000, 0x200), (0x901000, 0x100), (0xA01000, 0x200), (0xA08000, 0x100)]

/-- Index and offset within one of `n` windows of `st` bytes from `base`. -/
def within (a base st n : Nat) : Option (Nat × Nat) :=
  if base ≤ a ∧ a < base + st * n then some ((a - base) / st, (a - base) % st) else none

/-- What the register at offset `a` belongs to. -/
def placeOf (a : Nat) : Place :=
  match groups.findSome? (fun g => within a g.1 g.2 16) with
  | some (p, _) => .part p
  | none =>
    match within a 0x1000000 0x10000 152 with
    | some (t, _) => .tile t
    | none =>
      match within a 0x800000 0x10000 16 with
      | some (j, _) => .port j
      | none =>
        match within a 0x41000 0x10 1024 with
        | some (n, _) =>
          if 0x10 ≤ n ∧ n < 0x60 then .part (n % 16)
          else if 0x100 ≤ n ∧ n < 0x100 + 5 * 152 then .tile ((n - 0x100) / 5) else .device
        | none => if 0x200000 ≤ a ∧ a < 0x300000 then .hbm else .device

/-- The sub-ports of port `j` that the partition of function `f` holds, as a mask. -/
def State.fnSubs (s : State) (f j : Nat) : Nat := (((s.fnPart f).bind s.sect).map (fun x => bitsAt x.ports (4 * j) 4)).getD 0

/-- May the source read the register at `a`? A host reads 0 of what another partition holds. -/
def State.mayRead (s : State) (src : Src) (a : Nat) : Bool :=
  match src with
  | .host f => (match placeOf a with
    | .device => true
    | .part p => s.fnPart f == some p
    | .tile t => (s.tilePart t).isSome && s.tilePart t == s.fnPart f
    | .port j => s.fnSubs f j != 0
    | .hbm => false)
  | _ => true

/-- May a host write a register of port `j` at offset `o` of its window (R309): a queue or ring of its own sub-port, or a filter entry whose
sub-ports it holds? `v` is the value for word 0 of a filter entry. -/
def State.hostPort (s : State) (f j o v : Nat) : Bool :=
  let m := s.fnSubs f j
  if 0x200 ≤ o ∧ o < 0x600 then m.testBit (s.fget (ETH_Q_CFG_SUBPORT j ((o - 0x200) / 0x20)))
  else if 0x600 ≤ o ∧ o < 0x680 then m.testBit ((o - 0x600) / 0x20)
  else if 0x1000 ≤ o ∧ o < 0x1400 then
    let sub := fun (x : Nat) => x &&& m == x
    m != 0 && sub (s.fget (ETH_FILTER_SUBPORTS j ((o - 0x1000) / 0x10))) && (o % 0x10 != 0 || sub (bitsAt v 20 4))
  else false

/-- May the source write the register at `a` (the access rules of each chapter)? -/
def State.busWrites (s : State) (src : Src) (a v : Nat) : Bool :=
  if a = 0x20 then true else
  match src with
  | .sess _ => !(decide (0xA00100 ≤ a) && decide (a < 0xA00188)) && !(decide (0x30000 ≤ a) && decide (a < 0x40000))
  | .fw => a == 0x10000 || a == 0x10020 || a == 0x10024 || a == 0x20030
  | .host f =>
    match placeOf a with
    | .part p => s.fnPart f == some p
    | .tile t => (s.tilePart t).isSome && s.tilePart t == s.fnPart f
    | .port j => s.hostPort f j ((a - 0x800000) % 0x10000) v
    | .device => decide (a / 8 * 8 = 0xA00100 + 8 * f) || decide (a / 8 * 8 = 0x900008)
    | .hbm => false

-- Reads (R9, R11, R26) -----------------------------------------------------------------------------------------------------------------------------

/-- The value of a register as a read returns it: its fields in their places, WO fields as 0. -/
def State.readVal (s : State) (r : Reg) : Nat := (r.flds.map (fun f => if f.acc = .wo then 0 else s.fget f * 2 ^ f.lo)).sum

/-- The 32-bit word at offset `a` as the source reads it. -/
def State.wordAt (s : State) (src : Src) (a : Nat) : Nat :=
  if !s.mayRead src a then 0
  else match within a 0xA08000 0x100 16 with
    | some (p, o) => leAt (s.resume p) o 4
    | none => match regAt a with
      | some r => bitsAt (s.readVal r) (8 * (a - r.off)) 32
      | none => 0

/-- The 8-byte register that a 32-bit access at `a` touches, and whether at its high word. -/
def wideAt (a : Nat) : Option (Reg × Bool) :=
  match regAt a with
  | some r => if r.bytes = 8 then some (r, a != r.off) else none
  | none => none

/-- A 32-bit read: the value, and the latch after it (R11). -/
def State.read32 (s : State) (src : Src) (x : Split) (a : Nat) : Nat × Split :=
  match wideAt a with
  | some (r, false) => (s.wordAt src a, { x with latch := some (r.off, s.wordAt src (a + 4)) })
  | some (r, true) =>
    (match x.latch with
     | some (o, h) => if o = r.off then h else s.wordAt src a
     | none => s.wordAt src a, { x with latch := none })
  | none => (s.wordAt src a, { x with latch := none })

/-- A read that gets no bus error. -/
def State.readGo (s : State) (src : Src) (a w : Nat) : Nat × State :=
  let x := s.splitOf src
  if w = 4 then
    let r := s.read32 src x a
    (r.1, s.setSplit src r.2)
  else if (wideAt a).isSome then (s.wordAt src a + 2 ^ 32 * s.wordAt src (a + 4), s.setSplit src { x with latch := none })
  else
    let lo := s.read32 src x a
    let hi := s.read32 src lo.2 (a + 4)
    (lo.1 + 2 ^ 32 * hi.1, s.setSplit src hi.2)

-- Writes: which registers take which values (R11) ------------------------------------------------------------------------------------------------------

/-- A register's write: its value, or for a filter entry word `word`'s; `hiOnly`: the new high word with the current low word. -/
structure RegWr where
  r : Reg
  word : Nat
  val : Nat
  hiOnly : Bool

/-- Does the write reach field `f`? -/
def RegWr.acts (x : RegWr) (f : Fld) : Bool :=
  if x.r.bytes = 16 then f.lo / 32 == x.word else !x.hiOnly || decide (32 < f.lo + f.width)

/-- The value that the write has for field `f`. -/
def RegWr.fval (x : RegWr) (f : Fld) : Nat := bitsAt x.val (if x.r.bytes = 16 then f.lo % 32 else f.lo) f.width

/-- A 32-bit write: the held low word after it, and the register write that it makes. -/
def State.plan32 (s : State) (x : Split) (a v : Nat) : Split × List RegWr :=
  match wideAt a with
  | some (r, false) => ({ x with held := some (r.off, v) }, [])
  | some (r, true) =>
    ({ x with held := none },
     match x.held with
     | some (o, lo) => if o = r.off then [⟨r, 0, lo + v * 2 ^ 32, false⟩] else [⟨r, 0, s.readVal r % 2 ^ 32 + v * 2 ^ 32, true⟩]
     | none => [⟨r, 0, s.readVal r % 2 ^ 32 + v * 2 ^ 32, true⟩])
  | none => ({ x with held := none }, match regAt a with | some r => [⟨r, (a - r.off) / 4, v, false⟩] | none => [])

/-- The register writes that a BAR0 write makes. -/
def State.plan (s : State) (src : Src) (a w v : Nat) : Split × List RegWr :=
  let x := s.splitOf src
  if w = 4 then s.plan32 x a (v % 2 ^ 32)
  else match wideAt a with
    | some (r, _) => ({ x with held := none }, [⟨r, 0, v % 2 ^ 64, false⟩])
    | none =>
      let lo := s.plan32 x a (v % 2 ^ 32)
      let hi := s.plan32 lo.1 (a + 4) (bitsAt v 32 32)
      (hi.1, lo.2 ++ hi.2)

-- Writes: what they do ------------------------------------------------------------------------------------------------------------------------------------

/-- A write of one field by its access type (R9). EVT_OVF counts are cleared by bit 0. -/
def State.fldWrite (x : RegWr) (s : State) (f : Fld) : State :=
  if !x.acts f then s else
  match f.acc with
  | .rw => s.fset f (x.fval f)
  | .w1c => if x.fval f % 2 = 1 then s.fset f 0 else s
  | _ => s

/-- Fields set as the write has them, but for those that `skip` names. -/
def State.fldsWrite (s : State) (x : RegWr) (skip : Fld → Bool) : State := (x.r.flds.filter (fun f => !skip f)).foldl (State.fldWrite x) s

/-- The FIRST registers whose VALID clears OVERFLOW as well (R436). -/
def faultReg (a : Nat) : Bool :=
  a == 0x20 || a == 0x80030 ||
    [(0x300004, 0x10000, 8), (0x100060, 0x100, 16), (0x10C048, 0x100, 16), (0x400050, 0x200, 16), (0x901060, 0x100, 16), (0xA01030, 0x200, 16)].any
      (fun (e : Nat × Nat × Nat) => match within a e.1 e.2.1 e.2.2 with | some (_, o) => o == 0 | none => false)

/-- A write of a register without a meaning of its own. -/
def State.plainWrite (s : State) (x : RegWr) : State :=
  let t := s.fldsWrite x (fun _ => false)
  if faultReg x.r.off ∧ x.val.testBit 31 ∧ x.acts GEN_BUSERR_STATUS_VALID then
    let t := (x.r.flds.filter (fun f => f.lo == 30)).foldl (fun s f => s.fset f 0) t
    if x.r.off = 0x20 then t.fsets [(GEN_BUSERR_STATUS_COUNT, 0), (GEN_BUSERR_STATUS_CAUSE, 0)] else t
  else t

/-- A write of HBM_ERR_STATUS: FIRST_VALID clears the first record, NEXT_VALID the next (R288). -/
def State.writeHbmErr (s : State) (x : RegWr) : State :=
  let t := s.plainWrite x
  let t := if x.acts HBM_ERR_STATUS_FIRST_VALID ∧ x.val.testBit 31 then t.fsets [(HBM_ERR_STATUS_FIRST_KIND, 0), (HBM_ERR_FIRST_DPA, 0)] else t
  if x.acts HBM_ERR_STATUS_NEXT_VALID ∧ x.val.testBit 30 then t.fsets [(HBM_ERR_STATUS_NEXT_KIND, 0), (HBM_ERR_NEXT_DPA, 0)] else t

/-- A write that takes effect only under a condition. -/
def State.writeIf (s : State) (x : RegWr) (c : Bool) : State := if c then s.plainWrite x else s

/-- A write in which some fields are only taken under a condition. -/
def State.writeBut (s : State) (x : RegWr) (c : Bool) (held : List Fld) : State := s.fldsWrite x (fun f => !c && held.contains f)

/-- CLK_ (R363, R369, R371 to R377). -/
def State.writeClk (s : State) (src : Src) (x : RegWr) : State :=
  let a := x.r.off
  if a = 0x10000 then s.afterCheck (s.plainWrite x)
  else if a = 0x10014 then s.arithLimit x.val
  else if a = 0x10018 then
    let off := (s.fget (CLK_EN_EN 0)) / 8 == 0 && s.fget (CLK_EN_EN 1) == 0 && (List.range 5).all (fun n => s.fget (CLK_TILE_EN_EN n) == 0)
    let installer := match src with | .sess n => ((mfind s.sec.sess n).map s.sessRole).getD 0 == 2 | _ => false
    if installer && off then { s.plainWrite x with clk := { s.clk with divBusy := true } } else s
  else if a = 0x10020 ∨ a = 0x10024 then s.gateWrite ((a - 0x10020) / 4) x.val
  else s.plainWrite x

/-- PWR_ (R381, R400, R402). A base moves only while its partition's units rest. -/
def State.writePwr (s : State) (x : RegWr) : State :=
  let a := x.r.off
  if a = 0x20004 then s.capWrite (x.val % 2 ^ 16)
  else if a = 0x20030 then
    let s := if x.val.testBit 31 then s.furl else s
    if x.val.testBit 30 then s.wakeUp else s
  else match within a 0x21000 0x40 16 with
    | some (p, 0x10) => s.writeIf x (s.fbit (SCH_PSTATUS_IDLE p))
    | some (p, 8) => s.writeIf x (!s.fbit (SCH_SQ_CTRL_ENABLE p))
    | _ => s.plainWrite x

/-- EVT_ and LDG_ (R431, R438, R441, R443). -/
def State.writeEvt (s : State) (x : RegWr) : State :=
  let a := x.r.off
  if a = 0x50004 then (if x.val.testBit 0 then s.snapDue 5 else s)
  else if a = 0x40054 then
    let t := s.adminUnit x.val
    (List.range 16).foldl (fun t j => if s.portOff j && !t.portOff j then (List.range 4).foldl (fun t k => t.subGo j k) t else t) t
  else match within a 0x40040 4 5 with
    | some (n, _) => s.adminTile n x.val
    | none => match within a 0x40400 0x40 16 with
      | some (p, 0) =>
        let on := s.fbit (EVT_P_CFG_ENABLE p)
        let t := s.writeBut x (!on) [EVT_P_CFG_SIZE_LOG2 p]
        if !on && t.fbit (EVT_P_CFG_ENABLE p) then { t with evt := { t.evt with seq := mset 0 t.evt.seq p 0 } } else t
      | some (p, 8) => s.writeIf x (!s.fbit (EVT_P_CFG_ENABLE p))
      | _ => s.plainWrite x

/-- SCH_SQ_CTRL: JOIN, the value of ENABLE, PLAN, CANCEL, RESUME (R213, R222, R224, R225, R234). -/
def State.sqCtrl (s : State) (p v : Nat) : State :=
  let s := if v.testBit 1 then s.sqJoin p else s
  let s := if v.testBit 0 then s.sqEnable p else s.sqDisable p
  let s := if v.testBit 2 then s.sqPlan p else s
  let s := if v.testBit 3 then s.sqCancel p else s
  if v.testBit 4 then s.sqResume p else s

/-- A sequencer's group (R211, R222, R234). -/
def State.writeSq (s : State) (p o : Nat) (x : RegWr) : State :=
  let off := !s.fbit (SCH_SQ_CTRL_ENABLE p)
  match o with
  | 0 => s.sqCtrl p x.val
  | 0x08 =>
    if off then
      let t := (s.plainWrite x).fsets [(SCH_SQ_STATUS_JOINED p, 0), (SCH_SQ_STATUS_FORMED p, 0)]
      t.setSqp p { t.sqp p with joined := SqP.init.joined, bt := [] }
    else s
  | 0x10 => s.writeIf x (off || s.fget (SCH_SQ_EPOCH_SLOT p) != 0)
  | 0x18 => s.writeIf x (off || s.fget (SCH_SQ_EPOCH_SLOT p) != 1)
  | 0x28 => s.writeIf x off
  | 0x30 => s.epochRequest p x.val
  | _ => s.plainWrite x

/-- A watch's group (R86, R104). -/
def State.writeNw (s : State) (p o : Nat) (x : RegWr) : State :=
  let idle := s.fbit (SCH_NW_PSTATUS_IDLE p)
  match o with
  | 0 =>
    let t := s.fldsWrite x (fun f => f == SCH_NW_PCTRL_ENABLE p)
    if x.val.testBit 0 then t.watchOn p else if s.fbit (SCH_NW_PCTRL_ENABLE p) then t.watchOff p else t
  | 0x10 => s.writeIf x idle
  | 0x20 => s.writeIf x idle
  | _ => s.plainWrite x

/-- SCH_. -/
def State.writeSch (s : State) (x : RegWr) : State :=
  let a := x.r.off
  match within a 0x100000 0x100 16, within a 0x101000 0x400 16, within a 0x10C000 0x100 16, within a 0x10F000 0x40 16 with
  | some (p, o), _, _, _ => s.writeIf x (!(decide (8 ≤ o) && decide (o < 0x50)) || s.fbit (SCH_PSTATUS_IDLE p))
  | _, some (p, o), _, _ => s.sigWrite p (o / 4) (x.val % 2 ^ 32) 0
  | _, _, some (p, o), _ => s.writeSq p o x
  | _, _, _, some (p, o) => s.writeNw p o x
  | _, _, _, _ => s.plainWrite x

/-- TIL_: the rings of unit `u` at offset `o` of its registers (R72, R105, R135, R465). -/
def State.writeRing (s : State) (t : Nat) (u : TU) (o : Nat) (x : RegWr) : State :=
  match o with
  | 0 => s.ringCtrl t u (x.val % 8)
  | 4 => s.writeIf x (!s.fbit (u.enable t))
  | 0xC => s.ringTail t u x.val
  | _ => s.plainWrite x

def State.writeTil (s : State) (x : RegWr) : State :=
  match within x.r.off 0x1000000 0x10000 152 with
  | none => s
  | some (t, o) =>
    if 0x100 ≤ o ∧ o < 0x200 then s.writeRing t .mx (o - 0x100) x
    else if o = 0x21C then s.writeIf x (!s.fbit (TIL_NB_CTRL_ENABLE t))
    else if 0x200 ≤ o ∧ o < 0x300 then s.writeRing t .nb (o - 0x200) x
    else if 0x300 ≤ o ∧ o < 0x340 then s.writeRing t (.sm ((o - 0x300) / 0x20)) ((o - 0x300) % 0x20) x
    else s.plainWrite x

/-- LIG_ (R185). A clear of ENABLE takes effect at the next step boundary. -/
def State.writeLig (s : State) (x : RegWr) : State :=
  match within x.r.off 0x380000 0x80 16 with
  | none => s.plainWrite x
  | some (p, o) =>
    let idle := s.fbit (LIG_PSTATUS_IDLE p)
    let unnamed := fun (n : Nat) =>
      let e := s.fget (LIG_TT_CFG_EPOCH p n)
      (s.lp p).upds.all (fun u => u.note.epoch != e) && (s.lp p).slow.all (fun w => w.note.epoch != e)
    match o with
    | 0 =>
      let t := s.writeBut x idle [LIG_PCTRL_STALE_K p]
      let l := t.lp p
      if t.fbit (LIG_PCTRL_ENABLE p) || l.cur.isNone then t.setLp p { l with on := t.fbit (LIG_PCTRL_ENABLE p) } else t
    | 0x28 => s.writeIf x idle
    | 0x30 => s.writeIf x idle
    | _ => if 8 ≤ o ∧ o < 0x28 then s.writeIf x (idle || unnamed ((o - 8) / 0x10)) else s.plainWrite x

/-- PAL_ (R241, R250, R258, R266). -/
def State.writePal (s : State) (x : RegWr) : State :=
  match within x.r.off 0x400000 0x200 16 with
  | none => s
  | some (p, o) =>
    let idle := s.fbit (PAL_STATUS_IDLE p)
    if o = 0 then
      let t := s.fldsWrite x (fun f => f == PAL_CTRL_ENABLE p)
      let t := if !x.val.testBit 0 then t.palDisable p else if s.fbit (PAL_CTRL_ENABLE p) then t.mirrorSet p else t.palEnable p
      if x.val.testBit 4 ∧ s.fbit (PAL_CTRL_ENABLE p) ∧ t.fbit (PAL_CTRL_ENABLE p) then t.palReseed p else t
    else if o = 0xC then (if s.fbit (PAL_CTRL_ENABLE p) then (s.plainWrite x).mirrorSet p else s.plainWrite x)
    else if (0x10 ≤ o ∧ o < 0x30) ∨ (0x100 ≤ o ∧ 8 ≤ o % 0x40 ∧ o % 0x40 < 0x28) then s.writeIf x idle
    else s.plainWrite x

/-- ETH_ (R293, R294, R299, R303). A host leaves SUBPORT and CONSUMER of a queue as they are. -/
def State.writeEth (s : State) (src : Src) (x : RegWr) : State :=
  match within x.r.off 0x800000 0x10000 16 with
  | none => s
  | some (j, o) =>
    let host := match src with | .host _ => true | _ => false
    if o = 0x10 ∨ o = 0x14 then (s.plainWrite x).ethCapsWritten j
    else if 0x200 ≤ o ∧ o < 0x600 ∧ o % 0x20 = 0 then
      let q := (o - 0x200) / 0x20
      let t := s.writeBut x (!host) [ETH_Q_CFG_SUBPORT j q, ETH_Q_CFG_CONSUMER j q]
      if t.fbit (ETH_Q_CFG_ENABLE j q) && !s.fbit (ETH_Q_CFG_ENABLE j q) then t.rxqEnable j q true else t
    else if 0x600 ≤ o ∧ o < 0x680 then (s.plainWrite x).txStart j ((o - 0x600) / 0x20)
    else if 0x1000 ≤ o ∧ o < 0x1400 then s.filterWrite j ((o - 0x1000) / 0x10) x.word x.val
    else s.plainWrite x

/-- ZTX_ (R319, R336). -/
def State.writeZtx (s : State) (x : RegWr) : State :=
  if x.r.off = 0x900008 then s.writeIf x (!s.fbit ZTX_CTRL_ENABLE)
  else match within x.r.off 0x901000 0x100 16 with
    | some (p, 0x10) => s.writeIf x (!s.fbit (ZTX_P_CTRL_ENABLE p))
    | some (p, 0x38) => s.zOp p (bitsAt x.val 28 4)
    | _ => s.plainWrite x

/-- A command ring's registers (R348, R354, R361). -/
def State.writeCr (s : State) (p r o : Nat) (x : RegWr) : State :=
  let free := s.hostLost p || !s.fbit (HIF_P_CR_CFG_ENABLE p r)
  match o with
  | 0 => s.writeIf x free
  | 8 =>
    let t := if free then s.fset (HIF_P_CR_CFG_SIZE_LOG2 p r) (x.val % 16) else s
    let t := t.crEnable p r (x.val.testBit 31)
    if x.val.testBit 30 then t.crResume p r else t
  | 0xC => s.crDoorbell p r (x.val % 2 ^ 16)
  | _ => s.plainWrite x

/-- HIF_ (R339, R347, R355, R358, R361). -/
def State.writeHif (s : State) (x : RegWr) (dirty : HostStores) : State :=
  if x.r.off = 0xA00004 then s.bindWrite x.val dirty
  else match within x.r.off 0xA01000 0x200 16 with
    | none => s.plainWrite x
    | some (p, o) =>
      if 0x100 ≤ o then s.writeCr p ((o - 0x100) / 0x20) (o % 0x20) x
      else if o = 0 then (if x.val.testBit 31 then s.attach p (x.val.testBit 30) else s)
      else if o = 0x18 then s.cplTail p (x.val % 2 ^ 32)
      else if o = 8 ∨ o = 0x10 ∨ o = 0x20 ∨ o = 0x28 then s.writeIf x (s.ringsOff p)
      else s.plainWrite x

/-- One register write of a source that may make it. -/
def State.regWrite (src : Src) (dirty : HostStores) (s : State) (x : RegWr) : State :=
  let a := x.r.off
  if !s.busWrites src (a + (if x.r.bytes = 16 then 4 * x.word else 0)) x.val then s
  else if a < 0x10000 then s.plainWrite x
  else if a < 0x20000 then s.writeClk src x
  else if a < 0x30000 then s.writePwr x
  else if a < 0x60000 then s.writeEvt x
  else if a < 0x100000 then s.plainWrite x
  else if a < 0x200000 then s.writeSch x
  else if a = 0x280004 then s.hbmMapout x.val
  else if a = 0x280010 then s.writeHbmErr x
  else if a < 0x300000 then s.plainWrite x
  else if a < 0x400000 then s.writeLig x
  else if a < 0x800000 then s.writePal x
  else if a < 0x900000 then s.writeEth src x
  else if a < 0xA00000 then s.writeZtx x
  else if a < 0x1000000 then s.writeHif x dirty
  else s.writeTil x

/-- A write that gets no bus error. -/
def State.writeGo (s : State) (src : Src) (a w v : Nat) (dirty : HostStores) : State :=
  let p := s.plan src a w v
  p.2.foldl (State.regWrite src dirty) (s.setSplit src p.1)

-- Accesses ------------------------------------------------------------------------------------------------------------------------------------------------

/-- A BAR0 access as the device performs it: the state, CAUSE of its bus error or 0, and the data of a read. -/
def State.access (s : State) (b : BusOp) : State × Nat × Nat :=
  let c := s.busCause b.off b.width
  if c ≠ 0 then (s.busErr b.src b.write c b.off, c, 0)
  else if b.write then (s.writeGo b.src b.off b.width b.data b.dirty, 0, 0)
  else let r := s.readGo b.src b.off b.width; (r.2, 0, r.1)

/-- The access, and what its source receives (R28): a host's write is posted, so the host receives nothing for one that is discarded. -/
def State.accessNow (s : State) (b : BusOp) : State :=
  let r := s.access b
  if r.2.1 ≠ 0 then (if b.write && srcCode b.src == 0 then r.1 else r.1.emit (.busError b.src r.2.1))
  else if b.write then r.1 else r.1.emit (.readData b.src r.2.2)

/-- Is the device able to answer the source: not in reset, its input on, and for the host its rails on (R450 to R452) and its functions presented (R461)? A rail fault or a thermal
trip leaves the always-on domain running. -/
def State.answers (s : State) (src : Src) : Bool :=
  s.gen.causes.all (fun c => c == 4 || c == 5) && s.gen.vin != 0 && (match src with | .host _ => s.gen.rails && s.gen.vin == 1 && s.hif.present | _ => true)

/-- Does the offset lie in a block that the host reaches without waking a furled device (R402)? -/
def wakeless (a : Nat) : Bool :=
  decide (a < 0x20000) || (decide (0x30000 ≤ a) && decide (a < 0x50000)) || (decide (0xA00000 ≤ a) && decide (a < 0xB00000)) || busHole a

/-- A BAR0 access arrives: it waits for a relock of the dividers (R369) or, of the host, for a wake (R402), and then behind the earlier accesses of its
function that wait (R30). One that gets a bus error wakes nothing (R3, R28, log entry 173). A function that is not presented
answers nothing but Unsupported Request (R338, R339). -/
def State.busOp (s : State) (b : BusOp) : State :=
  if !s.answers b.src then s else
  let absent := match b.src with | .host f => decide (1 ≤ f) && (s.fnPart f).isNone | _ => false
  if absent then (if b.write then s else match b.src with | .host f => s.emit (.cpl f none false) | _ => s)
  else if s.clk.divBusy then { s with clk := { s.clk with waiting := s.clk.waiting ++ [.bus b] } }
  else match b.src with
    | .host f =>
      if s.hostWaits f then { s with clk := { s.clk with waiting := s.clk.waiting ++ [.bus b] } }
      else if wakeless b.off || s.busCause b.off b.width != 0 then s.accessNow b
      else s.hostOp (.bus b) (fun s => s.accessNow b)
    | _ => s.accessNow b

/-- An access received before the enable of its block was cleared is performed as then (R31). -/
def State.earlyAccess (s : State) (b : BusOp) : State :=
  match gateAt b.off with
  | some g => if s.gateOn g then s.accessNow b else ((s.setGate g true).accessNow b).setGate g false
  | none => s.accessNow b

/-- An access that waited is performed. -/
def State.waited (s : State) : HostOp → State
  | .bus b => s.accessNow b
  | .early b => s.earlyAccess b
  | .ioRead f o n => s.ioReadNow f o n
  | .ioWrite f o d => s.ioWriteNow f o d
  | .memRead o n => s.memReadNow o n
  | .memWrite o d => s.memWriteNow o d

/-- Every access that waited is performed, in order. -/
def State.replayAll (s : State) : State := s.clk.waiting.foldl State.waited { s with clk := { s.clk with waiting := [] } }

/-- An access that waited for a relock goes on: a furled device may hold it back still, or be woken by it (R402). -/
def State.again (s : State) (o : HostOp) : State :=
  if s.fget PWR_FURL_STATE = 0 then s.waited o
  else match o with
    | .bus b => s.busOp b
    | o => { s with clk := { s.clk with waiting := s.clk.waiting ++ [o] } }

/-- DIVIDER_RELOCK_COMPLETE (R369): the waiting accesses complete, in order; those that a furled device still holds back wait on (R30). -/
def State.relockDivs (s : State) : State :=
  if !s.clk.divBusy then s else
  s.clk.waiting.foldl State.again { s with clk := { s.clk with divBusy := false, waiting := [] } }

end Sys2Proof.Machine
end

