-- ==== Sys2Proof/Machine/Access.lean ====
section
/-!
DEFINITION. The commands that are BAR0 accesses: reads and writes at an offset, and the rows of the table that are a write of one register of a
unit (its number, and the word written; the bit that names the row is 1 in it).
-/
namespace Sys2Proof.Machine

/-- A 32-bit write of `v` at offset `a`. -/
def State.put (s : State) (src : Src) (a v : Nat) : State := s.busOp ⟨src, a, 4, v, true, []⟩

/-- A 32-bit read at offset `a`. -/
def State.get (s : State) (src : Src) (a : Nat) : State := s.busOp ⟨src, a, 4, 0, false, []⟩

/-- CTRL and TAIL of a tile ring by unit code: 0 matrix array, 1 nib array, 2 and 3 movers. -/
def ringOff (t u o : Nat) : Nat := 0x1000000 + 0x10000 * t + (match u with | 0 => 0x100 | 1 => 0x200 | 2 => 0x300 | _ => 0x320) + o

/-- A snapshot on demand: the write of SNAP, and the snapshot at once (R443). -/
def State.ldgSnap (s : State) (src : Src) (ok : Bool) : State :=
  let t := s.put src LDG_CTRL.off 1
  if s.gen.snaps.length < t.gen.snaps.length then { t with gen := { t.gen with snaps := s.gen.snaps } }.snapshot 5 ok else t

/-- An attachment: the link is up at `width` lanes and RATE `rate`, and HIF_Pp_CTRL is written with ATTACH (R360). -/
def State.attachBy (s : State) (src : Src) (p v width rate : Nat) : State :=
  if s.answers src then (s.linkTrained p width rate).put src (HIF_P_CTRL p).off (setBit v 31) else s

def execRegisterWrite (src : Src) (off width data : Nat) (s : State) : Host.Outcome State Fault Refusal :=
  onUnit (srcOk src) (s.busOp ⟨src, off, width, data, true, []⟩)
def execRegisterRead (src : Src) (off width : Nat) (s : State) : Host.Outcome State Fault Refusal :=
  onUnit (srcOk src) (s.busOp ⟨src, off, width, 0, false, []⟩)
def execLowWordRead (src : Src) (off : Nat) (s : State) : Host.Outcome State Fault Refusal := onUnit (srcOk src) (s.get src off)
def execHighWordRead (src : Src) (off : Nat) (s : State) : Host.Outcome State Fault Refusal := onUnit (srcOk src) (s.get src (off + 4))
def execLowWordWrite (src : Src) (off v : Nat) (s : State) : Host.Outcome State Fault Refusal := onUnit (srcOk src) (s.put src off v)
def execHighWordWrite (src : Src) (off v : Nat) (s : State) : Host.Outcome State Fault Refusal := onUnit (srcOk src) (s.put src (off + 4) v)
def execBuserrClear (src : Src) (s : State) : Host.Outcome State Fault Refusal := onUnit (srcOk src) (s.put src GEN_BUSERR_STATUS.off 0x80000000)
def execClockEnableWrite (src : Src) (n v : Nat) (s : State) : Host.Outcome State Fault Refusal :=
  onUnit (srcOk src && n < 2) (s.put src (CLK_EN n).off v)
def execTileRingEnable (src : Src) (t u : Nat) (on : Bool) (s : State) : Host.Outcome State Fault Refusal :=
  onUnit (srcOk src && t < 152 && u < 4) (s.put src (ringOff t u 0) (b2n on))
def execTileRingAbort (src : Src) (t u v : Nat) (s : State) : Host.Outcome State Fault Refusal :=
  onUnit (srcOk src && t < 152 && u < 4) (s.put src (ringOff t u 0) (setBit v 1))
def execTileRingResume (src : Src) (t u v : Nat) (s : State) : Host.Outcome State Fault Refusal :=
  onUnit (srcOk src && t < 152 && u < 4) (s.put src (ringOff t u 0) (setBit v 2))
def execTileRingTailWrite (src : Src) (t u v : Nat) (s : State) : Host.Outcome State Fault Refusal :=
  onUnit (srcOk src && t < 152 && u < 4) (s.put src (ringOff t u 0xC) v)
def execWatchEnable (src : Src) (p v : Nat) (s : State) : Host.Outcome State Fault Refusal :=
  onUnit (srcOk src && p < 16) (s.put src (SCH_NW_PCTRL p).off (setBit v 0))
def execWatchDisable (src : Src) (p v : Nat) (s : State) : Host.Outcome State Fault Refusal :=
  onUnit (srcOk src && p < 16) (s.put src (SCH_NW_PCTRL p).off (clearBit v 0))
def execSignalCounterWrite (src : Src) (p n v inc : Nat) (s : State) : Host.Outcome State Fault Refusal :=
  onUnit (srcOk src && p < 16 && n < 256) ((s.put src (SCH_SIG p n).off v).sigAdd p n inc)
def execSqJoin (src : Src) (p v : Nat) (s : State) : Host.Outcome State Fault Refusal :=
  onUnit (srcOk src && p < 16) (s.put src (SCH_SQ_CTRL p).off (setBit v 1))
def execSqPlan (src : Src) (p v : Nat) (s : State) : Host.Outcome State Fault Refusal :=
  onUnit (srcOk src && p < 16) (s.put src (SCH_SQ_CTRL p).off (setBit v 2))
def execSqEnable (src : Src) (p v : Nat) (s : State) : Host.Outcome State Fault Refusal :=
  onUnit (srcOk src && p < 16) (s.put src (SCH_SQ_CTRL p).off (setBit v 0))
def execSqResume (src : Src) (p v : Nat) (s : State) : Host.Outcome State Fault Refusal :=
  onUnit (srcOk src && p < 16) (s.put src (SCH_SQ_CTRL p).off (setBit v 4))
def execSqCancel (src : Src) (p v : Nat) (s : State) : Host.Outcome State Fault Refusal :=
  onUnit (srcOk src && p < 16) (s.put src (SCH_SQ_CTRL p).off (setBit v 3))
def execEpochRequest (src : Src) (p v : Nat) (s : State) : Host.Outcome State Fault Refusal :=
  onUnit (srcOk src && p < 16) (s.put src (SCH_SQ_NEXT p).off v)
def execPalEnable (src : Src) (p v : Nat) (s : State) : Host.Outcome State Fault Refusal :=
  onUnit (srcOk src && p < 16) (s.put src (PAL_CTRL p).off (setBit v 0))
def execPalReseed (src : Src) (p v : Nat) (s : State) : Host.Outcome State Fault Refusal :=
  onUnit (srcOk src && p < 16) (s.put src (PAL_CTRL p).off (setBit v 4))
def execHbmMapout (src : Src) (v : Nat) (s : State) : Host.Outcome State Fault Refusal := onUnit (srcOk src) (s.put src HBM_MAPOUT.off (setBit v 31))
def execTxRingDoorbell (src : Src) (j k v : Nat) (s : State) : Host.Outcome State Fault Refusal :=
  onUnit (srcOk src && subOk j k) (s.put src (ETH_TX_PTR j k).off v)
def execFilterWord0Write (src : Src) (j e v : Nat) (s : State) : Host.Outcome State Fault Refusal :=
  onUnit (srcOk src && j < 16 && e < 64) (s.put src (ETH_FILTER j e).off v)
def execRxQueueEnable (src : Src) (j q v : Nat) (s : State) : Host.Outcome State Fault Refusal :=
  onUnit (srcOk src && j < 16 && q < 32) (s.put src (ETH_Q_CFG j q).off (setBit v 31))
def execZtxOpen (src : Src) (p : Nat) (s : State) : Host.Outcome State Fault Refusal :=
  onUnit (srcOk src && p < 16) (s.put src (ZTX_P_OP p).off 0x10000000)
def execZtxClose (src : Src) (p : Nat) (s : State) : Host.Outcome State Fault Refusal :=
  onUnit (srcOk src && p < 16) (s.put src (ZTX_P_OP p).off 0x20000000)
def execZtxRelease (src : Src) (p : Nat) (s : State) : Host.Outcome State Fault Refusal :=
  onUnit (srcOk src && p < 16) (s.put src (ZTX_P_OP p).off 0x30000000)
def execZtxRebind (src : Src) (p : Nat) (s : State) : Host.Outcome State Fault Refusal :=
  onUnit (srcOk src && p < 16) (s.put src (ZTX_P_OP p).off 0x40000000)
def execZtxQuery (src : Src) (p : Nat) (s : State) : Host.Outcome State Fault Refusal :=
  onUnit (srcOk src && p < 16) (s.put src (ZTX_P_OP p).off 0x50000000)
def execCrDoorbell (src : Src) (p r v : Nat) (s : State) : Host.Outcome State Fault Refusal :=
  onUnit (srcOk src && crOk p r) (s.put src (HIF_P_CR_DB p r).off v)
def execCrResume (src : Src) (p r v : Nat) (s : State) : Host.Outcome State Fault Refusal :=
  onUnit (srcOk src && crOk p r) (s.put src (HIF_P_CR_CFG p r).off (setBit v 30))
def execBindWrite (src : Src) (v : Nat) (dirty : HostStores) (s : State) : Host.Outcome State Fault Refusal :=
  onUnit (srcOk src) (s.busOp ⟨src, HIF_BIND.off, 4, v, true, dirty⟩)
def execAttach (src : Src) (p v width rate : Nat) (s : State) : Host.Outcome State Fault Refusal :=
  onUnit (srcOk src && p < 16) (s.attachBy src p v width rate)
def execClkDivWrite (src : Src) (v : Nat) (s : State) : Host.Outcome State Fault Refusal := onUnit (srcOk src) (s.put src CLK_DIV.off v)
def execArithLimitWrite (src : Src) (v : Nat) (s : State) : Host.Outcome State Fault Refusal := onUnit (srcOk src) (s.put src CLK_ARITH_LIMIT.off v)
def execPwrCapWrite (src : Src) (v : Nat) (s : State) : Host.Outcome State Fault Refusal := onUnit (srcOk src) (s.put src PWR_CAP.off v)
def execFurl (src : Src) (v : Nat) (s : State) : Host.Outcome State Fault Refusal := onUnit (srcOk src) (s.put src PWR_FURL.off (setBit v 31))
def execPwrWake (src : Src) (v : Nat) (s : State) : Host.Outcome State Fault Refusal := onUnit (srcOk src) (s.put src PWR_FURL.off (setBit v 30))
def execAdminDisableWrite (src : Src) (n v : Nat) (s : State) : Host.Outcome State Fault Refusal :=
  onUnit (srcOk src && n < 6) (s.put src (0x40040 + 4 * n) v)
def execLdgSnap (src : Src) (ok : Bool) (s : State) : Host.Outcome State Fault Refusal := onUnit (srcOk src) (s.ldgSnap src ok)
def execDividerRelockComplete (s : State) : Host.Outcome State Fault Refusal := .next s.relockDivs

end Sys2Proof.Machine
end

