-- ==== Sys2Proof/Machine/Jexrex.lean ====
section
/-!
DEFINITION. The management path: Jexrex sessions and operations (R418 to R428), the firmware update (R410 to R413), key slots, credentials,
attestation (R414 to R417, R421), the maker functions (R425), the wake of a furled device (R402) and the logbook's own events.
-/
namespace Sys2Proof.Machine

-- Sessions (R419 to R421) ---------------------------------------------------------------------------------------------------------------------

/-- Does the management port serve Jexrex: powered, not in reset, from the end of boot stage 3 or in recovery (R412, R461)? -/
def State.jexServed (s : State) : Bool := s.answers (.sess 0) && (s.sec.run.isSome || s.fbit SEC_STATUS_RECOVERY)

/-- ROLE of a record about a session (R427): 3 for one with a maker grant. -/
def State.recRole (s : State) (u : Sess) : Nat := if u.maker ≠ 0 then 3 else s.sessRole u

/-- CRED of a record. -/
def recCred (u : Sess) : Nat := u.cred.getD 0xFF

/-- MAKER_ACTIVE: a session with a grant exists (R425). -/
def State.makerBit (s : State) : State := s.fset SEC_STATUS_MAKER_ACTIVE (b2n (s.sec.sess.any (fun e => e.2.maker != 0)))

def State.setSess (s : State) (n : Nat) (u : Sess) : State := { s with sec := { s.sec with sess := mins s.sec.sess n u } }

/-- The device closes a session: what it has already received is answered 0x0008, and its grant ends (R420, R425). -/
def State.closeSess (s : State) (n : Nat) : State :=
  { s with sec := { s.sec with sess := mmod s.sec.sess n (fun u => { u with closing := true, maker := 0, subscribed := false }) } }.makerBit

/-- A session's TLS connection ends: what R11 keeps for it as a source ends with it. -/
def State.endSess (s : State) (n : Nat) : State :=
  if !mhas s.sec.sess n then s else
  let ch := match s.sec.challenge with | some (_, m, _) => m == n | none => false
  -- the firmware path that the session holds is released with it (R426)
  let fw := match s.sec.fw with | some (m, b) => if m = n then none else some (m, b) | none => none
  ({ s with sec := { s.sec with sess := mdel s.sec.sess n, challenge := if ch then none else s.sec.challenge, fw },
            split := mdel s.split (srcNo (.sess n)) }.makerBit).emit (.tlsClose n)

-- Records (R427, R428) ----------------------------------------------------------------------------------------------------------------------------

/-- An operation of READ_REG, LOG_READ or LEDGER_READ joins its session's shared record, or starts a new one (R427). -/
def State.logShare (s : State) (n role cred op status : Nat) (arg : List Byte) : State :=
  let new :=
    let s := s.logClose
    { s with sec := { s.sec with openRec := some ⟨n, s.logRec role cred op status 1 arg⟩ }, nv := { s.nv with logSeq := s.nv.logSeq + 1 } }
  match s.sec.openRec with
  | some r =>
    if r.sess = n then
      { s with sec := { s.sec with openRec := some { r with bytes := patch r.bytes 0x1A (leBytes 2 (satAdd 16 (leAt r.bytes 0x1A 2) 1)) } } }
    else new
  | none => new

-- Requests (R420, R422, R426) -------------------------------------------------------------------------------------------------------------------------

def State.reply (s : State) (x : Jex) (op status : Nat) (body : List Byte) : State := s.emit (.jex x.sess op status x.tag body)

/-- Does a long operation of this session meet another in progress (R426)? An IMAGE_LOAD that meets a load is answered by the load's own checks. -/
def State.longBusy (s : State) (x : Jex) (op : Nat) : Bool :=
  (match s.sec.fw with | some (n, _) => !(n == x.sess && (op == 0x12 || op == 0x13)) | none => false) ||
    ((s.fab.job.isSome || !s.fab.waits.isEmpty) && op != 0x10)

/-- The most bytes that a frame's body may hold (R420). -/
def jexMax : Nat := 0x100100

/-- A request whose body holds at least `n` bytes: a longer one than a frame may have is malformed. -/
def fits (x : Jex) (n : Nat) : Jex := { x with bad := x.bad || decide (jexMax < n) }

/-- The frame of a response or an event (R420): header and body. -/
def jexFrame (kind op status tag : Nat) (body : List Byte) : List Byte :=
  [0x4A, 0x58] ++ leBytes 1 1 ++ leBytes 1 kind ++ leBytes 2 op ++ leBytes 2 status ++ leBytes 4 tag ++ leBytes 4 body.length ++ body

/-- What a session receives for an output of the management port; an event's OP, STATUS and TAG are 0 (log entry 212). -/
def Out.jexBytes : Out → List Byte
  | .jex _ op status tag body => jexFrame 2 op status tag body
  | .jexEvent _ body => jexFrame 3 0 0 0 body
  | _ => []

-- The management port (R418) ------------------------------------------------------------------------------------------------------------------

/-- The IPv6 link-local address by EUI-64 from the port's fused MAC address. -/
def State.linkLocal (s : State) : BitVec 128 :=
  let m := s.fuse.mgmtMac
  BitVec.ofNat 128 (0xFE80 * 2 ^ 112 + ((m / 2 ^ 24) ^^^ 0x020000) * 2 ^ 40 + 0xFFFE * 2 ^ 24 + m % 2 ^ 24)

/-- The network settings in force: those stored, or before the first NET_CONFIG none but the link-local address. -/
def State.mgmtNet (s : State) : NetSet :=
  match s.nv.net with
  | some b => Config.netSettings b
  | none => ⟨none, false, none, false, none, none⟩

/-- The TCP port that Jexrex listens on: 4717, or the one that the settings name. -/
def State.mgmtPort (s : State) : Nat := (s.mgmtNet.tcpPort.map BitVec.toNat).getD 4717

/-- Why a request is turned away, as its STATUS; 0 when it is performed. `need` is the least role: 1 operator, 2 installer, 3 maker. -/
def State.jexCheck (s : State) (x : Jex) (u : Sess) (op need : Nat) (long : Bool) : Nat :=
  let setup := op == 0x30 || op == 4
  let recov := setup || op == 5 || op == 6 || (decide (0x11 ≤ op) && decide (op ≤ 0x13)) || op == 0x1C
  if u.closing then 8
  else if x.bad then 1
  else if s.fbit SEC_STATUS_RECOVERY && !recov then 7
  else if u.cred.isNone && !setup then 2
  else if !setup && decide (s.sessRole u < min 2 need) then 2
  else if long && s.longBusy x op then 3
  else 0

/-- One request: its checks, its record or records, what it does, its response. A malformed one closes the session after its response. -/
def State.jexRun (s : State) (x : Jex) (op need : Nat) (long : Bool) (arg : List Byte) (go : State → Sess → State × Nat × List Byte) : State :=
  if !s.jexServed then s else
  match mfind s.sec.sess x.sess with
  | none => s
  | some u =>
    let shared := op == 1 || op == 6 || op == 7
    let role := s.recRole u
    let c := s.jexCheck x u op need long
    if c ≠ 0 then
      let t := (s.logPut false role (recCred u) op c arg).reply x op c []
      if c = 1 then t.closeSess x.sess else t
    else if need ≥ 2 then
      if !x.logOk then (s.fset SEC_STATUS_LOG_FAULT 1).reply x op 6 []
      else
        let r := go (s.logPut true role (recCred u) op 0xFFFF arg) u
        (r.1.reply x op r.2.1 r.2.2).logPut true 0xFF (recCred u) op r.2.1 arg
    else
      let r := go s u
      let t := if shared then r.1.logShare x.sess role (recCred u) op r.2.1 arg else r.1.logPut false role (recCred u) op r.2.1 arg
      let t := t.reply x op r.2.1 r.2.2
      if r.2.1 = 1 then t.closeSess x.sess else t

/-- A refusal with the unit's own code. -/
def refuse (s : State) (code : Nat) : State × Nat × List Byte := (s, 5, leBytes 1 code)
def accept (s : State) : State × Nat × List Byte := (s, 0, [])

-- Register operations (R422, R423) --------------------------------------------------------------------------------------------------------------------------

/-- Does the owning chapter let the host write field `f`, in any partition's group or window? -/
def hostField (f : Fld) : Bool :=
  match placeOf f.off with
  | .part _ => true
  | .tile _ => true
  | .port j =>
    let o := (f.off - 0x800000) % 0x10000
    let cfg := decide (0x200 ≤ o) && decide (o < 0x600) && o % 0x20 == 0
    ((decide (0x200 ≤ o) && decide (o < 0x680)) || (decide (0x1000 ≤ o) && decide (o < 0x1400))) &&
      !(cfg && (f == ETH_Q_CFG_SUBPORT j ((o - 0x200) / 0x20) || f == ETH_Q_CFG_CONSUMER j ((o - 0x200) / 0x20)))
  | _ => false

/-- Does a write act upon field `f` (R423)? -/
def State.actsOn (s : State) (x : RegWr) (f : Fld) : Bool :=
  x.acts f && (match f.acc with
    | .w1c => x.fval f % 2 == 1
    | .wo => x.fval f != 0
    | .rw => x.fval f != s.fget f
    | .ro => false)

/-- The role that one register write needs. -/
def State.needOf (s : State) (src : Src) (x : RegWr) : Nat :=
  if !s.busWrites src x.r.off x.val then 0 else
  (x.r.flds.filter (s.actsOn x)).foldl (fun a f =>
    max a (if hostField f ∨ f.acc = .w1c ∨ f = PWR_CAP_SUSTAINED_W ∨ f.off = PWR_FURL.off then 1 else 2)) 0

/-- The role that a WRITE_REG needs; one that gets a bus error acts upon nothing. -/
def State.needRole (s : State) (n off w v : Nat) : Nat :=
  if s.busCause off w ≠ 0 then 1 else ((s.plan (.sess n) off w v).2.map (s.needOf (.sess n))).foldl max 1

/-- A register operation waits for a relock of the dividers, which then has ended (R369). -/
def State.jexAccess (s : State) (b : BusOp) : State × Nat × Nat := s.relockDivs.access b

/-- READ_REG. -/
def State.readReg (s : State) (x : Jex) (off w : Nat) : State :=
  let arg := leBytes 8 off ++ leBytes 8 0
  s.jexRun { x with bad := x.bad || (w != 4 && w != 8) } 1 1 false arg (fun s _ =>
    let r := s.jexAccess ⟨.sess x.sess, off, w, 0, false, []⟩
    if r.2.1 ≠ 0 then (r.1, 4, leBytes 1 r.2.1) else (r.1, 0, leBytes w r.2.2))

/-- Does the write ask for the furled state, and was it refused (R400)? -/
def furlRefused (before s : State) (off v : Nat) : Bool :=
  let word := if off = 0x20030 then v else 0
  word.testBit 31 && before.fget PWR_FURL_STATE != 1 && before.fget PWR_FURL_STATE != 2 && s.fget PWR_FURL_STATE != 1

/-- WRITE_REG (R423). -/
def State.writeReg (s : State) (x : Jex) (off w v : Nat) : State :=
  let need := s.needRole x.sess off w v
  s.jexRun { x with bad := x.bad || (w != 4 && w != 8) } 2 need false (leBytes 8 off ++ leBytes 8 v) (fun s _ =>
    let r := s.jexAccess ⟨.sess x.sess, off, w, v, true, []⟩
    if r.2.1 ≠ 0 then (r.1, 4, leBytes 1 r.2.1)
    else if furlRefused s r.1 off v then refuse r.1 (r.1.fget PWR_FURL_REFUSE)
    else accept r.1)

-- Reading operations ---------------------------------------------------------------------------------------------------------------------------------------------

def State.subscribe (s : State) (x : Jex) : State :=
  s.jexRun x 3 1 false [] (fun s u => accept (s.setSess x.sess { u with subscribed := true }))

/-- GET_CERT (R416). -/
def State.getCert (s : State) (x : Jex) : State := s.jexRun x 4 1 false [] (fun s _ => (s, 0, s.nv.cert))

/-- The four key slots, each one state byte and 57 key bytes (R417). -/
def State.slotBytes (s : State) : List Byte :=
  (List.range 4).flatMap (fun i => let k := mget KSlot.empty s.nv.slots i; leBytes 1 k.state ++ bytesAt k.key 0 57)

/-- The ROM's own measure, which attests recovery: a free value. -/
def State.measureNow (s : State) : List Byte × State :=
  match s.sec.run with
  | some f => (bytesAt f.measure 0 32, s)
  | none => s.freeBytes 32

/-- The 192-byte quote over a nonce (R417). -/
def State.quote (s : State) (nonce meas : List Byte) : List Byte :=
  [0x51, 0x54, 0x45, 0x39] ++ leBytes 2 1 ++ leBytes 1 s.fuse.variant ++ leBytes 1 0x20 ++ leBytes 8 s.deviceId ++ leBytes 8 s.fuse.cluster ++
  bytesAt nonce 0 32 ++ meas ++ leBytes 1 (s.fget SEC_FW_SVN) ++ leBytes 1 (s.fget SEC_FW_FLOOR) ++
  leBytes 1 (s.fget SEC_STATUS_RECOVERY + 2 * s.fget SEC_STATUS_MAKER_ACTIVE + 4 * s.fget SEC_STATUS_FW_PENDING) ++
  leBytes 1 (s.fget SEC_ROOT_EN_EN) ++ leBytes 4 (s.fget FAB_IMAGE_VERSION_VERSION) ++ leBytes 8 (s.fget FAB_IMAGE_ID_ID) ++
  bytesAt s.fab.meas 0 32 ++ shake256 s.slotBytes 32 ++ leBytes 8 s.nv.logSeq ++ leBytes 8 s.now ++ List.replicate 8 0

/-- ATTEST: the quote, then the signature of the identity key over it, with the context "ET9-QUOTE" (R417). -/
def State.attest (s : State) (x : Jex) (nonce : List Byte) : State :=
  s.jexRun x 5 1 false [] (fun s _ =>
    let m := s.measureNow
    let q := m.2.quote nonce m.1
    (m.2, 0, q ++ edSign s.fuse.idKey [0x45, 0x54, 0x39, 0x2D, 0x51, 0x55, 0x4F, 0x54, 0x45] (shake256 q 64)))

/-- The records of the logbook, oldest first. -/
def State.logAll (s : State) : List (List Byte) := s.nv.log.reverse ++ s.sec.held

/-- LOG_READ: the records from SEQ `from` on, as many as a frame holds. -/
def State.logRead (s : State) (x : Jex) (from_ : Nat) : State :=
  s.jexRun x 6 1 false (leBytes 8 from_) (fun s _ =>
    (s, 0, ((s.logAll.filter (fun r => decide (from_ ≤ leAt r 0 8))).take 16388).flatMap id))

/-- LEDGER_READ (R446): the newest snapshot, or the fault records from a SEQ on. -/
def State.ledgerRead (s : State) (x : Jex) (from_ : Option Nat) : State :=
  s.jexRun x 7 1 false (leBytes 8 (from_.getD 0)) (fun s _ =>
    (s, 0, match from_ with
      | none => (match s.nv.snap with | some n => s.snapBytes n | none => [])
      | some q => ((s.nv.faults.reverse.filter (fun r => decide (q ≤ leAt r 0 8))).take 16388).flatMap id))

/-- LLDP_READ (R306): the partner's last LLDPDU. -/
def State.lldpRead (s : State) (x : Jex) (j k : Nat) : State :=
  s.jexRun { x with bad := x.bad || !subOk j k } 8 1 false (leBytes 1 j ++ leBytes 1 k) (fun s _ => (s, 0, mget [] s.eth.lldp (subNo j k)))

/-- WAKE (R402). -/
def State.jexWake (s : State) (x : Jex) : State := s.jexRun x 9 1 false [] (fun s _ => accept s.wakeUp)

-- Image loads (R43, R52) --------------------------------------------------------------------------------------------------------------------------------------------

/-- A load request is checked and answered; its second record carries the rejection (R428). -/
def State.loadAnswer (s : State) (r : LoadReq) : State :=
  let l := s.loadImage r.full r.bytes
  let st := if l.1 = 0 then 0 else 5
  (l.2.reply ⟨r.sess, r.tag, false, true⟩ 0x10 st (if l.1 = 0 then [] else leBytes 1 l.1)).logPut true 0xFF r.cred 0x10 st
    (bytesAt r.bytes 0x10 12)

/-- IMAGE_LOAD. It wakes a furled device and is then performed after the wake. -/
def State.imageLoad (s : State) (x : Jex) (full : Bool) (b : List Byte) : State :=
  let x := fits x (1 + b.length)
  if !s.jexServed then s else
  match mfind s.sec.sess x.sess with
  | none => s
  | some u =>
    let arg := bytesAt b 0x10 12
    let c := s.jexCheck x u 0x10 2 true
    if c ≠ 0 then
      let t := (s.logPut false (s.recRole u) (recCred u) 0x10 c arg).reply x 0x10 c []
      if c = 1 then t.closeSess x.sess else t
    else if !x.logOk then (s.fset SEC_STATUS_LOG_FAULT 1).reply x 0x10 6 []
    else
      let r : LoadReq := ⟨x.sess, x.tag, recCred u, full, b⟩
      let s := s.logPut true (s.recRole u) (recCred u) 0x10 0xFFFF arg
      if s.fget PWR_FURL_STATE = 0 then s.loadAnswer r
      else { s.wakeUp with fab := { s.wakeUp.fab with waits := s.wakeUp.fab.waits ++ [r] } }

/-- WAKE_COMPLETE (R402): the device is awake; what waited is performed. -/
def State.wakeDone (s : State) : State :=
  if s.fget PWR_FURL_STATE ≠ 3 then s else
  let s := s.awake
  let s := if s.clk.divBusy then s else s.replayAll
  s.fab.waits.foldl State.loadAnswer { s with fab := { s.fab with waits := [] } }

-- Firmware (R410, R411, R413) -----------------------------------------------------------------------------------------------------------------------------------------

/-- The header fields of a firmware image are as specified (R410). -/
def fwHeader (b : List Byte) : Bool :=
  leAt b 0 4 == 0x46395445 && leAt b 4 2 == 1 && leAt b 6 2 == 0x0E09 && decide (leAt b 8 1 ≤ 0x20) && decide (leAt b 9 1 < 2) &&
    decide (leAt b 0xA 1 ≤ 64) && leAt b 0xB 1 == 0 && leAt b 0x10 4 == b.length && decide (b.length ≤ 2 ^ 24) && decide (178 ≤ b.length) &&
    leAt b 0x14 4 + 114 == b.length && zeroAt b 0x18 40

/-- FW_BEGIN opens the staging buffer and holds the firmware path for its session. -/
def State.fwBegin (s : State) (x : Jex) (n : Nat) : State :=
  s.jexRun x 0x11 2 true (leBytes 8 n) (fun s _ => accept { s with sec := { s.sec with fw := some (x.sess, List.replicate n 0) } })

/-- FW_CHUNK delivers bytes at an offset. -/
def State.fwChunk (s : State) (x : Jex) (o : Nat) (d : List Byte) : State :=
  s.jexRun (fits x d.length) 0x12 2 true (leBytes 8 o) (fun s _ =>
    match s.sec.fw with
    | some (n, b) =>
      if b.length < o + d.length then (s, 5, []) else accept { s with sec := { s.sec with fw := some (n, patch b o d) } }
    | none => (s, 5, []))

/-- Does a firmware image's signature verify under the firmware key that it names (R410): Ed448ph with the context "ET9-FW"? -/
def State.fwSigned (s : State) (b : List Byte) : Bool :=
  edVerify (s.fuse.fwKeys.getD (leAt b 9 1) []) [0x45, 0x54, 0x39, 0x2D, 0x46, 0x57] (shake256 (b.take (b.length - 114)) 64)
    (b.drop (b.length - 114))

/-- FW_END: the check of R411, then the firmware area is written and read back. Without `wrote` the flash did not take it and the area stands
as it was; with `flashOk` it reads back equal. -/
def State.fwEnd (s : State) (x : Jex) (wrote flashOk : Bool) : State :=
  s.jexRun x 0x13 2 true (match s.sec.fw with | some (_, b) => leBytes 1 (leAt b 0xA 1) | none => []) (fun s _ =>
    match s.sec.fw with
    | none => (s, 5, [])
    | some (_, b) =>
      let s := { s with sec := { s.sec with fw := none } }
      let key := leAt b 9 1
      if !(fwHeader b && s.fwSigned b && !(key == 0 && s.nv.key0Revoked) && decide (s.nv.fwFloor ≤ leAt b 0xA 1)) then (s, 5, [])
      else
        let img : FwImg := ⟨leAt b 0xA 1, leAt b 0xC 4, key, flashOk, shake256 (b.take (b.length - 114)) 32, b⟩
        let s := if wrote then { s with nv := { s.nv with fw := img } } else s
        if wrote && flashOk then accept (s.fset SEC_STATUS_FW_PENDING 1) else (s, 5, []))

/-- FW_BEGIN_TIMEOUT (R426). -/
def State.fwTimeout (s : State) : State := { s with sec := { s.sec with fw := none } }

/-- FW_COMMIT (R411): the floor becomes the SVN of the running firmware. -/
def State.fwCommit (s : State) (x : Jex) : State :=
  s.jexRun x 0x14 2 true (leBytes 1 (s.fget SEC_FW_SVN)) (fun s _ =>
    match s.sec.run with
    | some f => accept { s with nv := { s.nv with fwFloor := max s.nv.fwFloor f.svn },
                                sec := { s.sec with commit := some (s.nv.fwFloor, s.now) } }
    | none => (s, 5, []))

-- Key slots and credentials (R414, R421, R422) ------------------------------------------------------------------------------------------------------------------------

def State.setSlot (s : State) (i : Nat) (k : KSlot) : State := { s with nv := s.nv.rewrite 2 { s.nv with slots := mset KSlot.empty s.nv.slots i k } }

def State.keyEnroll (s : State) (x : Jex) (i : Nat) (key : List Byte) : State :=
  s.jexRun { x with bad := x.bad || decide (4 ≤ i) } 0x15 2 true (leBytes 1 i) (fun s _ =>
    if (mget KSlot.empty s.nv.slots i).state = 0 then accept (s.setSlot i ⟨1, bytesAt key 0 57⟩) else (s, 5, []))

def State.keyRevoke (s : State) (x : Jex) (i : Nat) (force : Bool) : State :=
  s.jexRun { x with bad := x.bad || decide (4 ≤ i) } 0x16 2 true (leBytes 1 i) (fun s _ =>
    let k := mget KSlot.empty s.nv.slots i
    let stored := match s.nv.image with | some b => leAt b 0x1C 1 == i | none => false
    if k.state = 1 ∧ (force ∨ !stored) then accept (s.setSlot i { k with state := 2 }) else (s, 5, []))

/-- A credential joins the table at its lowest free index. -/
def State.credPut (s : State) (c : Cred) : State :=
  match (List.range 32).find? (fun i => !mhas s.nv.creds i) with
  | some i => { s with nv := s.nv.rewrite 2 { s.nv with creds := mins s.nv.creds i c } }
  | none => s

def State.credAdd (s : State) (x : Jex) (key : List Byte) (role : Nat) (name : List Byte) : State :=
  s.jexRun { x with bad := x.bad || !(role == 1 || role == 2) } 0x17 2 true (bytesAt name 0 16) (fun s _ =>
    if s.nv.creds.any (fun e => e.2.key == bytesAt key 0 57) then refuse s 1
    else if 32 ≤ s.nv.creds.length then refuse s 2
    else accept (s.credPut ⟨bytesAt key 0 57, role, bytesAt name 0 16⟩))

/-- The sessions of a credential close, once their request in progress has been answered (R426). -/
def State.closeCred (s : State) (i : Nat) : State :=
  (s.sec.sess.filter (fun e => e.2.cred == some i)).foldl (fun s e => s.closeSess e.1) s

def State.credRemove (s : State) (x : Jex) (i : Nat) : State :=
  s.jexRun x 0x18 2 true (leBytes 1 i) (fun s _ =>
    match mfind s.nv.creds i with
    | none => (s, 5, [])
    | some c =>
      if c.role = 2 ∧ (s.nv.creds.filter (fun e => e.2.role == 2)).length ≤ 1 then (s, 5, [])
      else accept ({ s with nv := s.nv.rewrite 2 { s.nv with creds := mdel s.nv.creds i } }.closeCred i))

-- Settings (R407, R418, R426, R459) --------------------------------------------------------------------------------------------------------------------------------------

def State.netConfig (s : State) (x : Jex) (b : List Byte) : State :=
  s.jexRun (fits x b.length) 0x19 2 false [] (fun s _ => accept { s with nv := s.nv.rewrite 2 { s.nv with net := some b } })

/-- TRIM_WRITE (R459): the record is stored with a SEQ one above the stored one's, and its DIGEST. -/
def State.trimWrite (s : State) (x : Jex) (b : List Byte) : State :=
  s.jexRun (fits x b.length) 0x1A 2 true [] (fun s _ =>
    if !trimOk b then refuse s 1 else
    let seq := ((s.nv.trim.map (fun t => leAt t 6 2)).getD 0 + 1) % 2 ^ 16
    let b := patch b 6 (leBytes 2 seq)
    accept { s with nv := s.nv.rewrite 3 { s.nv with trim := some (patch b 0x1F0 (shake256 (bytesAt b 0 0x1F0) 16)) } })

/-- ROOT_DISABLE (R407). -/
def State.rootDisable (s : State) (x : Jex) (i : Nat) : State :=
  s.jexRun { x with bad := x.bad || decide (8 ≤ i) } 0x1B 2 true (leBytes 1 i) (fun s _ =>
    accept ({ s with nv := s.nv.rewrite 2 { s.nv with rootEn := clearBit s.nv.rootEn i } }.zRetireRoot i))

/-- RESET (R426, R443, R453): after its response and its records the orderly shutdown begins, which ends in a device reset. -/
def State.jexReset (s : State) (x : Jex) : State :=
  let t := s.jexRun x 0x1C 2 false [] (fun s _ =>
    let s := if s.gen.prepare then s else s.snapDue 2
    let s := { s with gen := { s.gen with prepare := true, resetAfter := true } }
    accept ((List.range 8).foldl State.closeSess s))
  if t.gen.resetAfter ∧ t.gen.readyOff then t.resetBegin 3 else t

-- Maker (R425) ---------------------------------------------------------------------------------------------------------------------------------------------------------------

/-- MAKER_CHALLENGE. It needs randomness (R408). -/
def State.makerChallenge (s : State) (x : Jex) (mask : Nat) : State :=
  s.jexRun x 0x20 2 false (leBytes 8 mask) (fun s _ =>
    if s.fbit SEC_STATUS_RNG_FAULT then (s, 5, []) else
    let r := s.freeBytes 32
    let c := leBytes 8 s.deviceId ++ leBytes 4 s.nv.boots ++ leBytes 4 s.sec.challenges ++ r.1 ++ leBytes 8 mask ++ List.replicate 8 0
    let t := r.2
    ({ t with sec := { t.sec with challenge := some (mask % 2 ^ 64, x.sess, c), challenges := t.sec.challenges + 1 } }, 0, c))

/-- MAKER_UNLOCK: the signature over the challenge in force verifies under the maker key, with the context "ET9-MAKER". -/
def State.makerUnlock (s : State) (x : Jex) (sig : List Byte) : State :=
  s.jexRun (fits x sig.length) 0x21 2 false [] (fun s u =>
    match s.sec.challenge with
    | some (mask, n, c) =>
      if n == x.sess && edVerify s.fuse.makerKey [0x45, 0x54, 0x39, 0x2D, 0x4D, 0x41, 0x4B, 0x45, 0x52] (shake256 c 64) sig then
        accept (({ s with sec := { s.sec with challenge := none } }.setSess x.sess { u with maker := mask }).makerBit)
      else (s, 5, [])
    | none => (s, 5, []))

/-- What maker function `f` does with its argument; none where it has nothing to do. -/
def State.makerDo (s : State) (f a : Nat) : Option State :=
  match f with
  | 0 => if a < 152 ∧ s.led.failed.contains a then
           let role := match s.tileFuse a with | 1 => 2 | 2 => 5 | _ => 0
           some ((if s.role a = 3 then s.setRole a role 0 else s).ledFact { s.led with failed := sdel s.led.failed a })
         else none
  | 1 => if s.led.mapped.contains a then some (((s.zeroChannel a 8).setChan a Chan.init).ledFact { s.led with mapped := sdel s.led.mapped a }) else none
  | 2 => if a < 4 ∧ (mget KSlot.empty s.nv.slots a).state = 2 then some (s.setSlot a KSlot.empty) else none
  | 3 => if a < 8 then some { s with nv := s.nv.rewrite 2 { s.nv with rootEn := setBit s.nv.rootEn a } } else none
  | 4 => some ((s.nv.creds.map (·.1)).foldl State.closeCred { s with nv := s.nv.rewrite 2 { s.nv with creds := [] } })
  | 5 => some { s with led := { s.led with ce := [], ue := [], eye := [], fec := [], linkDown := [], temp := [] } }
  | _ => none

/-- MAKER_FN: one function that the session was granted. -/
def State.makerFn (s : State) (x : Jex) (f a : Nat) : State :=
  s.jexRun x 0x22 3 true (leBytes 8 f ++ leBytes 8 a) (fun s u =>
    if !u.maker.testBit f then (s, 2, [])
    else match s.makerDo f a with
      | some t => accept t
      | none => (s, 5, []))

/-- CHALLENGE_EXPIRY. -/
def State.challengeOver (s : State) : State := { s with sec := { s.sec with challenge := none } }

/-- MAKER_GRANT_EXPIRY. -/
def State.grantOver (s : State) (n : Nat) : State :=
  { s with sec := { s.sec with sess := mmod s.sec.sess n (fun u => { u with maker := 0 }) } }.makerBit

-- Setup and handshakes (R419, R424) ---------------------------------------------------------------------------------------------------------------------------------------------

/-- The setup code as it is digested: hyphens out, letters in upper case. -/
def setupCode (c : List Byte) : List Byte :=
  (c.filter (fun b => b != 0x2D)).map (fun b => if 0x61 ≤ b.toNat ∧ b.toNat ≤ 0x7A then byteOf (b.toNat - 32) else b)

/-- ENROLL_FIRST. The new credential's name is a free value. -/
def State.enrollFirst (s : State) (x : Jex) (code : List Byte) : State :=
  s.jexRun x 0x30 0 false [] (fun s u =>
    if !s.nv.creds.isEmpty then refuse s 1
    else if s.fbit SEC_STATUS_SETUP_LOCKED then refuse s 2
    else if shake256 (setupCode code) 32 == s.fuse.setup then
      let r := s.freeBytes 16
      accept ((r.2.credPut ⟨u.key, 2, r.1⟩).closeSess x.sess)
    else
      let s := { s with sec := { s.sec with wrong := s.sec.wrong + 1 } }.fsat SEC_AUTH_FAIL_COUNT 1
      (if 10 ≤ s.sec.wrong then s.fset SEC_STATUS_SETUP_LOCKED 1 else s, 2, []))

/-- A failed handshake (R419): counted, recorded, and after eight of one address within 60 s the address is refused. -/
def State.handshakeFail (s : State) (addr : Nat) : State :=
  let s := s.fsat SEC_AUTH_FAIL_COUNT 1
  let fails := (addr, s.now) :: s.sec.fails.filter (fun e => decide (s.now < e.2 + 60000000))
  let many := decide (8 ≤ (fails.filter (fun e => e.1 == addr)).length)
  let s := { s with sec := { s.sec with fails := fails, refused := if many then sins s.sec.refused addr else s.sec.refused } }
  s.logPut false 0 0xFF 0xFFFF (Config.recStatus 4).toNat (leBytes 16 addr)

/-- TLS_HANDSHAKE: `ok`, the handshake keeps the profile of R419 and the client proves its key (log entry 208). One from an address that is refused is
rejected, counted and recorded too (R419, R427). -/
def State.handshake (s : State) (addr : Nat) (key : List Byte) (ok : Bool) : State :=
  if !s.jexServed then s else
  if s.sec.refused.contains addr then s.handshakeFail addr else
  let k := bytesAt key 0 57
  let cred := (s.nv.creds.find? (fun e => e.2.key == k)).map (·.1)
  let free := (List.range 8).find? (fun n => match mfind s.sec.sess n with | some u => u.closing | none => true)
  match free with
  | none => s.handshakeFail addr
  | some n =>
    if !ok || s.fbit SEC_STATUS_RNG_FAULT || (cred.isNone && !s.nv.creds.isEmpty) then s.handshakeFail addr
    else (s.endSess n).setSess n ⟨k, cred, false, 0, false⟩

/-- HANDSHAKE_LOCKOUT_EXPIRY. -/
def State.lockoutOver (s : State) (addr : Nat) : State :=
  { s with sec := { s.sec with refused := sdel s.sec.refused addr, fails := s.sec.fails.filter (fun e => e.1 != addr) } }

/-- OPERATOR_LOG_FLUSH (R428): the held records are written, or LOG_FAULT is set and they stay. -/
def State.operatorFlush (s : State) (ok : Bool) : State := if ok then s.logFlush else s.fset SEC_STATUS_LOG_FAULT 1

-- Commands -----------------------------------------------------------------------------------------------------------------------------------------------------------------------------

def jexOk (x : Jex) : Bool := decide (x.sess < 8)

def execReadReg (x : Jex) (off w : Nat) (s : State) : Host.Outcome State Fault Refusal := onUnit (jexOk x) (s.readReg x off w)
def execWriteReg (x : Jex) (off w v : Nat) (s : State) : Host.Outcome State Fault Refusal := onUnit (jexOk x) (s.writeReg x off w v)
def execSubscribe (x : Jex) (s : State) : Host.Outcome State Fault Refusal := onUnit (jexOk x) (s.subscribe x)
def execGetCert (x : Jex) (s : State) : Host.Outcome State Fault Refusal := onUnit (jexOk x) (s.getCert x)
def execAttest (x : Jex) (nonce : List Byte) (s : State) : Host.Outcome State Fault Refusal := onUnit (jexOk x) (s.attest x nonce)
def execLogRead (x : Jex) (from_ : Nat) (s : State) : Host.Outcome State Fault Refusal := onUnit (jexOk x) (s.logRead x from_)
def execLedgerRead (x : Jex) (from_ : Option Nat) (s : State) : Host.Outcome State Fault Refusal := onUnit (jexOk x) (s.ledgerRead x from_)
def execLldpRead (x : Jex) (j k : Nat) (s : State) : Host.Outcome State Fault Refusal := onUnit (jexOk x) (s.lldpRead x j k)
def execWake (x : Jex) (s : State) : Host.Outcome State Fault Refusal := onUnit (jexOk x) (s.jexWake x)
def execImageLoad (x : Jex) (full : Bool) (b sig : List Byte) (s : State) : Host.Outcome State Fault Refusal :=
  onUnit (jexOk x) (s.imageLoad x full (b ++ sig))
def execWakeComplete (s : State) : Host.Outcome State Fault Refusal := .next s.wakeDone
def execFwBegin (x : Jex) (n : Nat) (s : State) : Host.Outcome State Fault Refusal := onUnit (jexOk x) (s.fwBegin x n)
def execFwChunk (x : Jex) (o : Nat) (d : List Byte) (s : State) : Host.Outcome State Fault Refusal := onUnit (jexOk x) (s.fwChunk x o d)
def execFwEnd (x : Jex) (wrote flashOk : Bool) (s : State) : Host.Outcome State Fault Refusal := onUnit (jexOk x) (s.fwEnd x wrote flashOk)
def execFwBeginTimeout (s : State) : Host.Outcome State Fault Refusal := .next s.fwTimeout
def execFwCommit (x : Jex) (s : State) : Host.Outcome State Fault Refusal := onUnit (jexOk x) (s.fwCommit x)
def execKeyslotEnroll (x : Jex) (i : Nat) (key : List Byte) (s : State) : Host.Outcome State Fault Refusal := onUnit (jexOk x) (s.keyEnroll x i key)
def execKeyslotRevoke (x : Jex) (i : Nat) (force : Bool) (s : State) : Host.Outcome State Fault Refusal := onUnit (jexOk x) (s.keyRevoke x i force)
def execCredAdd (x : Jex) (key : List Byte) (role : Nat) (name : List Byte) (s : State) : Host.Outcome State Fault Refusal :=
  onUnit (jexOk x) (s.credAdd x key role name)
def execCredRemove (x : Jex) (i : Nat) (s : State) : Host.Outcome State Fault Refusal := onUnit (jexOk x) (s.credRemove x i)
def execNetConfig (x : Jex) (b : List Byte) (s : State) : Host.Outcome State Fault Refusal := onUnit (jexOk x) (s.netConfig x b)
def execTrimWrite (x : Jex) (b : List Byte) (s : State) : Host.Outcome State Fault Refusal := onUnit (jexOk x) (s.trimWrite x b)
def execRootDisable (x : Jex) (i : Nat) (s : State) : Host.Outcome State Fault Refusal := onUnit (jexOk x) (s.rootDisable x i)
def execReset (x : Jex) (s : State) : Host.Outcome State Fault Refusal := onUnit (jexOk x) (s.jexReset x)
def execMakerChallenge (x : Jex) (mask : Nat) (s : State) : Host.Outcome State Fault Refusal := onUnit (jexOk x) (s.makerChallenge x mask)
def execMakerUnlock (x : Jex) (sig : List Byte) (s : State) : Host.Outcome State Fault Refusal := onUnit (jexOk x) (s.makerUnlock x sig)
def execMakerFn (x : Jex) (f a : Nat) (s : State) : Host.Outcome State Fault Refusal := onUnit (jexOk x) (s.makerFn x f a)
def execChallengeExpiry (s : State) : Host.Outcome State Fault Refusal := .next s.challengeOver
def execMakerGrantExpiry (n : Nat) (s : State) : Host.Outcome State Fault Refusal := onUnit (n < 8) (s.grantOver n)
def execEnrollFirst (x : Jex) (code : List Byte) (s : State) : Host.Outcome State Fault Refusal := onUnit (jexOk x) (s.enrollFirst x code)
def execTlsHandshake (addr : Nat) (key : List Byte) (ok : Bool) (s : State) : Host.Outcome State Fault Refusal := .next (s.handshake addr key ok)
def execHandshakeLockoutExpiry (addr : Nat) (s : State) : Host.Outcome State Fault Refusal := .next (s.lockoutOver addr)
def execSessionIdleTimeout (n : Nat) (s : State) : Host.Outcome State Fault Refusal := onUnit (n < 8) (s.endSess n)
def execLogRecordClose (s : State) : Host.Outcome State Fault Refusal := .next s.logClose
def execOperatorLogFlush (ok : Bool) (s : State) : Host.Outcome State Fault Refusal := .next (s.operatorFlush ok)
def execTlsSessionClose (n : Nat) (s : State) : Host.Outcome State Fault Refusal := onUnit (n < 8) (s.endSess n)

end Sys2Proof.Machine
end

