-- ==== Sys2Proof/Machine/Dispatch.lean ====
section
/-!
DEFINITION. One arm per command: its meaning.
-/
namespace Sys2Proof.Machine

def exec (i : Instr) (s : State) : Host.Outcome State Fault Refusal :=
  match i with
  | .registerWrite src off width data => Sys2Proof.Machine.execRegisterWrite src off width data s
  | .lowWordRead src off => Sys2Proof.Machine.execLowWordRead src off s
  | .highWordRead src off => Sys2Proof.Machine.execHighWordRead src off s
  | .lowWordWrite src off v => Sys2Proof.Machine.execLowWordWrite src off v s
  | .highWordWrite src off v => Sys2Proof.Machine.execHighWordWrite src off v s
  | .buserrClear src => Sys2Proof.Machine.execBuserrClear src s
  | .clockEnableWrite src n v => Sys2Proof.Machine.execClockEnableWrite src n v s
  | .clockDisableEffect g => Sys2Proof.Machine.execClockDisableEffect g s
  | .d2dBlockRetry => Sys2Proof.Machine.execD2dBlockRetry s
  | .d2dRetryExhausted => Sys2Proof.Machine.execD2dRetryExhausted s
  | .imageLoad x full b sig => Sys2Proof.Machine.execImageLoad x full b sig s
  | .partitionDrainEnd p => Sys2Proof.Machine.execPartitionDrainEnd p s
  | .reloadTimeout p => Sys2Proof.Machine.execReloadTimeout p s
  | .scrubComplete p => Sys2Proof.Machine.execScrubComplete p s
  | .imageStoreComplete ok => Sys2Proof.Machine.execImageStoreComplete ok s
  | .tileFailure t => Sys2Proof.Machine.execTileFailure t s
  | .mxNop t => Sys2Proof.Machine.execMxNop t s
  | .mxMma t => Sys2Proof.Machine.execMxMma t s
  | .mxDrain t => Sys2Proof.Machine.execMxDrain t s
  | .mxLoad t => Sys2Proof.Machine.execMxLoad t s
  | .tileRingEnable src t u on => Sys2Proof.Machine.execTileRingEnable src t u on s
  | .tileRingAbort src t u v => Sys2Proof.Machine.execTileRingAbort src t u v s
  | .tileRingResume src t u v => Sys2Proof.Machine.execTileRingResume src t u v s
  | .tileRingTailWrite src t u v => Sys2Proof.Machine.execTileRingTailWrite src t u v s
  | .shadowRecomputeDone t => Sys2Proof.Machine.execShadowRecomputeDone t s
  | .watchSummary p => Sys2Proof.Machine.execWatchSummary p s
  | .watchEnable src p v => Sys2Proof.Machine.execWatchEnable src p v s
  | .watchDisable src p v => Sys2Proof.Machine.execWatchDisable src p v s
  | .watchIdle p => Sys2Proof.Machine.execWatchIdle p s
  | .nibNop t => Sys2Proof.Machine.execNibNop t s
  | .nibMap t => Sys2Proof.Machine.execNibMap t s
  | .nibReduce t => Sys2Proof.Machine.execNibReduce t s
  | .nibSoftmax t => Sys2Proof.Machine.execNibSoftmax t s
  | .nibCompress t => Sys2Proof.Machine.execNibCompress t s
  | .nibExpand t => Sys2Proof.Machine.execNibExpand t s
  | .nibMxpack t => Sys2Proof.Machine.execNibMxpack t s
  | .nibMxunpack t => Sys2Proof.Machine.execNibMxunpack t s
  | .nibEt5 t => Sys2Proof.Machine.execNibEt5 t s
  | .nibWait t => Sys2Proof.Machine.execNibWait t s
  | .nibWaitMet t => Sys2Proof.Machine.execNibWaitMet t s
  | .nibPost t => Sys2Proof.Machine.execNibPost t s
  | .moverNop t n => Sys2Proof.Machine.execMoverNop t n s
  | .moverCopy t n errs => Sys2Proof.Machine.execMoverCopy t n errs s
  | .moverWait t n => Sys2Proof.Machine.execMoverWait t n s
  | .moverWaitMet t n => Sys2Proof.Machine.execMoverWaitMet t n s
  | .blotterOpen t r => Sys2Proof.Machine.execBlotterOpen t r s
  | .blotterSpill t r => Sys2Proof.Machine.execBlotterSpill t r s
  | .blotterFill t r => Sys2Proof.Machine.execBlotterFill t r s
  | .blotterFold t r => Sys2Proof.Machine.execBlotterFold t r s
  | .blotterDrain t r => Sys2Proof.Machine.execBlotterDrain t r s
  | .blotterClose t r => Sys2Proof.Machine.execBlotterClose t r s
  | .blotterOpComplete t => Sys2Proof.Machine.execBlotterOpComplete t s
  | .ligatureUpdateStart p t => Sys2Proof.Machine.execLigatureUpdateStart p t s
  | .normExchangeArrival p m t v => Sys2Proof.Machine.execNormExchangeArrival p m t v s
  | .stepCommit p => Sys2Proof.Machine.execStepCommit p s
  | .rollbackComplete p => Sys2Proof.Machine.execRollbackComplete p s
  | .slowUpdateStart p => Sys2Proof.Machine.execSlowUpdateStart p s
  | .slowUpdateComplete p => Sys2Proof.Machine.execSlowUpdateComplete p s
  | .taskFetch p => Sys2Proof.Machine.execTaskFetch p s
  | .modelLoadComplete p m h => Sys2Proof.Machine.execModelLoadComplete p m h s
  | .taskReady p a => Sys2Proof.Machine.execTaskReady p a s
  | .schedulingRound p => Sys2Proof.Machine.execSchedulingRound p s
  | .pageLoadsComplete t => Sys2Proof.Machine.execPageLoadsComplete t s
  | .earlyWaitsMet p a => Sys2Proof.Machine.execEarlyWaitsMet p a s
  | .taskComplete p a => Sys2Proof.Machine.execTaskComplete p a s
  | .tileSpillComplete t => Sys2Proof.Machine.execTileSpillComplete t s
  | .tileRestore p a => Sys2Proof.Machine.execTileRestore p a s
  | .restoreComplete t => Sys2Proof.Machine.execRestoreComplete t s
  | .pageInComplete p g h => Sys2Proof.Machine.execPageInComplete p g h s
  | .demandPageFault p t g => Sys2Proof.Machine.execDemandPageFault p t g s
  | .taskRetry p a => Sys2Proof.Machine.execTaskRetry p a s
  | .signalCounterWrite src p n v inc => Sys2Proof.Machine.execSignalCounterWrite src p n v inc s
  | .sqJoin src p v => Sys2Proof.Machine.execSqJoin src p v s
  | .joinRecordArrival p ix => Sys2Proof.Machine.execJoinRecordArrival p ix s
  | .sqPlan src p v => Sys2Proof.Machine.execSqPlan src p v s
  | .sqEnable src p v => Sys2Proof.Machine.execSqEnable src p v s
  | .sqResume src p v => Sys2Proof.Machine.execSqResume src p v s
  | .sqCancel src p v => Sys2Proof.Machine.execSqCancel src p v s
  | .epochRequest src p v => Sys2Proof.Machine.execEpochRequest src p v s
  | .sqTask p => Sys2Proof.Machine.execSqTask p s
  | .sqXfer p => Sys2Proof.Machine.execSqXfer p s
  | .sqDrain p => Sys2Proof.Machine.execSqDrain p s
  | .sqFold p => Sys2Proof.Machine.execSqFold p s
  | .sqReduce p => Sys2Proof.Machine.execSqReduce p s
  | .sqClose p => Sys2Proof.Machine.execSqClose p s
  | .sqMark p => Sys2Proof.Machine.execSqMark p s
  | .reduceSegmentArrival p n ix j => Sys2Proof.Machine.execReduceSegmentArrival p n ix j s
  | .reduceResultArrival p n ix j => Sys2Proof.Machine.execReduceResultArrival p n ix j s
  | .slowRecordArrival p n ix j sum recs => Sys2Proof.Machine.execSlowRecordArrival p n ix j sum recs s
  | .frequencyReportArrival p n ix => Sys2Proof.Machine.execFrequencyReportArrival p n ix s
  | .closeRecordArrival p n ix => Sys2Proof.Machine.execCloseRecordArrival p n ix s
  | .combinedRecordArrival p => Sys2Proof.Machine.execCombinedRecordArrival p s
  | .stepEnd p => Sys2Proof.Machine.execStepEnd p s
  | .migrationComplete p => Sys2Proof.Machine.execMigrationComplete p s
  | .seqStall p => Sys2Proof.Machine.execSeqStall p s
  | .palEnable src p v => Sys2Proof.Machine.execPalEnable src p v s
  | .sealComplete p => Sys2Proof.Machine.execSealComplete p s
  | .palReseed src p v => Sys2Proof.Machine.execPalReseed src p v s
  | .digestMessageArrival p r step slow => Sys2Proof.Machine.execDigestMessageArrival p r step slow s
  | .repairRequest p slot conn t whole => Sys2Proof.Machine.execRepairRequest p slot conn t whole s
  | .repairRecord p r => Sys2Proof.Machine.execRepairRecord p r s
  | .stepVerified p slow => Sys2Proof.Machine.execStepVerified p slow s
  | .dirtyScanSend p applied slots => Sys2Proof.Machine.execDirtyScanSend p applied slots s
  | .mirrorLine p n r => Sys2Proof.Machine.execMirrorLine p n r s
  | .mirrorDescribe p n r => Sys2Proof.Machine.execMirrorDescribe p n r s
  | .mirrorEntry p n r => Sys2Proof.Machine.execMirrorEntry p n r s
  | .mirrorCommit p n r => Sys2Proof.Machine.execMirrorCommit p n r s
  | .mirrorVerify p n r => Sys2Proof.Machine.execMirrorVerify p n r s
  | .logMoveComplete p n => Sys2Proof.Machine.execLogMoveComplete p n s
  | .migrateRecord p r => Sys2Proof.Machine.execMigrateRecord p r s
  | .lineRebuild p a mirror replica h => Sys2Proof.Machine.execLineRebuild p a mirror replica h s
  | .takeoverNotice p note => Sys2Proof.Machine.execTakeoverNotice p note s
  | .spareStateRequest p conn => Sys2Proof.Machine.execSpareStateRequest p conn s
  | .patrolScrub c err => Sys2Proof.Machine.execPatrolScrub c err s
  | .ueLimitReached c => Sys2Proof.Machine.execUeLimitReached c s
  | .channelTrainingLoss c => Sys2Proof.Machine.execChannelTrainingLoss c s
  | .retrainResult c ok => Sys2Proof.Machine.execRetrainResult c ok s
  | .hbmMapout src v => Sys2Proof.Machine.execHbmMapout src v s
  | .channelMapOut c => Sys2Proof.Machine.execChannelMapOut c s
  | .mapOutSwitch => Sys2Proof.Machine.execMapOutSwitch s
  | .rekeyPage c q errs => Sys2Proof.Machine.execRekeyPage c q errs s
  | .rxFrame j k b fec fcs merge => Sys2Proof.Machine.execRxFrame j k b fec fcs merge s
  | .pauseRefresh j k q => Sys2Proof.Machine.execPauseRefresh j k q s
  | .pauseFrameReceived j k pfc times => Sys2Proof.Machine.execPauseFrameReceived j k pfc times s
  | .pauseExpiry j k q => Sys2Proof.Machine.execPauseExpiry j k q s
  | .lldpduReceived j k pdu eee pre ttl => Sys2Proof.Machine.execLldpduReceived j k pdu eee pre ttl s
  | .lldpTransmit j k => Sys2Proof.Machine.execLldpTransmit j k s
  | .lldpTtlExpiry j k => Sys2Proof.Machine.execLldpTtlExpiry j k s
  | .verifyFrameReceived j k respond => Sys2Proof.Machine.execVerifyFrameReceived j k respond s
  | .preemptVerifyTimeout j k => Sys2Proof.Machine.execPreemptVerifyTimeout j k s
  | .linkUp j k an cable => Sys2Proof.Machine.execLinkUp j k an cable s
  | .linkDown j k => Sys2Proof.Machine.execLinkDown j k s
  | .lpiEntry j k => Sys2Proof.Machine.execLpiEntry j k s
  | .lpiExit j k => Sys2Proof.Machine.execLpiExit j k s
  | .moduleInsertion j medium reach power => Sys2Proof.Machine.execModuleInsertion j medium reach power s
  | .txRingDoorbell src j k v => Sys2Proof.Machine.execTxRingDoorbell src j k v s
  | .txFrameSent j k => Sys2Proof.Machine.execTxFrameSent j k s
  | .filterWord0Write src j e v => Sys2Proof.Machine.execFilterWord0Write src j e v s
  | .rxQueueEnable src j q v => Sys2Proof.Machine.execRxQueueEnable src j q v s
  | .ztxSendRequest p internal => Sys2Proof.Machine.execZtxSendRequest p internal s
  | .dataPacket k => Sys2Proof.Machine.execDataPacket k s
  | .ackPacket k rtt => Sys2Proof.Machine.execAckPacket k rtt s
  | .probePacket k => Sys2Proof.Machine.execProbePacket k s
  | .closePacket k => Sys2Proof.Machine.execClosePacket k s
  | .helloPacket k => Sys2Proof.Machine.execHelloPacket k s
  | .helloAckPacket k => Sys2Proof.Machine.execHelloAckPacket k s
  | .helloRepeat n => Sys2Proof.Machine.execHelloRepeat n s
  | .setupTimeout n => Sys2Proof.Machine.execSetupTimeout n s
  | .ztxOpen src p => Sys2Proof.Machine.execZtxOpen src p s
  | .ztxClose src p => Sys2Proof.Machine.execZtxClose src p s
  | .closeRepeat n => Sys2Proof.Machine.execCloseRepeat n s
  | .ztxRelease src p => Sys2Proof.Machine.execZtxRelease src p s
  | .ztxRebind src p => Sys2Proof.Machine.execZtxRebind src p s
  | .ztxQuery src p => Sys2Proof.Machine.execZtxQuery src p s
  | .rtoExpiry n pn all => Sys2Proof.Machine.execRtoExpiry n pn all s
  | .ackDelayExpiry n => Sys2Proof.Machine.execAckDelayExpiry n s
  | .ratePeriod n => Sys2Proof.Machine.execRatePeriod n s
  | .rateIdleReset n => Sys2Proof.Machine.execRateIdleReset n s
  | .keepaliveExpiry p id => Sys2Proof.Machine.execKeepaliveExpiry p id s
  | .peerUnreachable p id => Sys2Proof.Machine.execPeerUnreachable p id s
  | .contextFetchComplete ix ok rtts => Sys2Proof.Machine.execContextFetchComplete ix ok rtts s
  | .crDoorbell src p r v => Sys2Proof.Machine.execCrDoorbell src p r v s
  | .cmdNop p r h => Sys2Proof.Machine.execCmdNop p r h s
  | .cmdTask p r h => Sys2Proof.Machine.execCmdTask p r h s
  | .cmdTaskRef p r h => Sys2Proof.Machine.execCmdTaskRef p r h s
  | .cmdWrite p r h => Sys2Proof.Machine.execCmdWrite p r h s
  | .cmdSignal p r h => Sys2Proof.Machine.execCmdSignal p r h s
  | .cmdBias p r dirty h => Sys2Proof.Machine.execCmdBias p r dirty h s
  | .slotReread p r h => Sys2Proof.Machine.execSlotReread p r h s
  | .crResume src p r v => Sys2Proof.Machine.execCrResume src p r v s
  | .bar2IoRead fn off n => Sys2Proof.Machine.execBar2IoRead fn off n s
  | .bar2IoWrite fn off bs => Sys2Proof.Machine.execBar2IoWrite fn off bs s
  | .cxlMemRead off n => Sys2Proof.Machine.execCxlMemRead off n s
  | .cxlMemWrite off bs => Sys2Proof.Machine.execCxlMemWrite off bs s
  | .bindWrite src v dirty => Sys2Proof.Machine.execBindWrite src v dirty s
  | .hostLoss cause fn => Sys2Proof.Machine.execHostLoss cause fn s
  | .firstAttach p width rate => Sys2Proof.Machine.execFirstAttach p width rate s
  | .attach src p v width rate => Sys2Proof.Machine.execAttach src p v width rate s
  | .cplRecordWrite p => Sys2Proof.Machine.execCplRecordWrite p s
  | .cplInterrupt p => Sys2Proof.Machine.execCplInterrupt p s
  | .monitorWindowEnd ref rec_ => Sys2Proof.Machine.execMonitorWindowEnd ref rec_ s
  | .missingEdge c => Sys2Proof.Machine.execMissingEdge c s
  | .pllRelockComplete => Sys2Proof.Machine.execPllRelockComplete s
  | .clkDivWrite src v => Sys2Proof.Machine.execClkDivWrite src v s
  | .dividerRelockComplete => Sys2Proof.Machine.execDividerRelockComplete s
  | .arithKStep => Sys2Proof.Machine.execArithKStep s
  | .arithLimitWrite src v => Sys2Proof.Machine.execArithLimitWrite src v s
  | .controllerTick x => Sys2Proof.Machine.execControllerTick x s
  | .modelCorrection => Sys2Proof.Machine.execModelCorrection s
  | .thermalRead raw => Sys2Proof.Machine.execThermalRead raw s
  | .tileFmaxMeasure t mhz => Sys2Proof.Machine.execTileFmaxMeasure t mhz s
  | .kPropPeriod => Sys2Proof.Machine.execKPropPeriod s
  | .tileExchangeForK t => Sys2Proof.Machine.execTileExchangeForK t s
  | .pwrCapWrite src v => Sys2Proof.Machine.execPwrCapWrite src v s
  | .furl src v => Sys2Proof.Machine.execFurl src v s
  | .furlComplete => Sys2Proof.Machine.execFurlComplete s
  | .pwrWake src v => Sys2Proof.Machine.execPwrWake src v s
  | .wakeComplete => Sys2Proof.Machine.execWakeComplete s
  | .readReg x off w => Sys2Proof.Machine.execReadReg x off w s
  | .writeReg x off w v => Sys2Proof.Machine.execWriteReg x off w v s
  | .subscribe x => Sys2Proof.Machine.execSubscribe x s
  | .getCert x => Sys2Proof.Machine.execGetCert x s
  | .attest x nonce => Sys2Proof.Machine.execAttest x nonce s
  | .logRead x from_ => Sys2Proof.Machine.execLogRead x from_ s
  | .ledgerRead x from_ => Sys2Proof.Machine.execLedgerRead x from_ s
  | .lldpRead x j k => Sys2Proof.Machine.execLldpRead x j k s
  | .wake x => Sys2Proof.Machine.execWake x s
  | .fwBegin x n => Sys2Proof.Machine.execFwBegin x n s
  | .fwChunk x o d => Sys2Proof.Machine.execFwChunk x o d s
  | .fwEnd x wrote flashOk => Sys2Proof.Machine.execFwEnd x wrote flashOk s
  | .fwBeginTimeout => Sys2Proof.Machine.execFwBeginTimeout s
  | .fwCommit x => Sys2Proof.Machine.execFwCommit x s
  | .keyslotEnroll x ix key => Sys2Proof.Machine.execKeyslotEnroll x ix key s
  | .keyslotRevoke x ix force => Sys2Proof.Machine.execKeyslotRevoke x ix force s
  | .credAdd x key role name => Sys2Proof.Machine.execCredAdd x key role name s
  | .credRemove x ix => Sys2Proof.Machine.execCredRemove x ix s
  | .netConfig x b => Sys2Proof.Machine.execNetConfig x b s
  | .trimWrite x b => Sys2Proof.Machine.execTrimWrite x b s
  | .rootDisable x ix => Sys2Proof.Machine.execRootDisable x ix s
  | .reset x => Sys2Proof.Machine.execReset x s
  | .makerChallenge x mask => Sys2Proof.Machine.execMakerChallenge x mask s
  | .makerUnlock x sig => Sys2Proof.Machine.execMakerUnlock x sig s
  | .makerFn x f a => Sys2Proof.Machine.execMakerFn x f a s
  | .challengeExpiry => Sys2Proof.Machine.execChallengeExpiry s
  | .makerGrantExpiry n => Sys2Proof.Machine.execMakerGrantExpiry n s
  | .enrollFirst x code => Sys2Proof.Machine.execEnrollFirst x code s
  | .tlsHandshake addr key ok => Sys2Proof.Machine.execTlsHandshake addr key ok s
  | .handshakeLockoutExpiry addr => Sys2Proof.Machine.execHandshakeLockoutExpiry addr s
  | .sessionIdleTimeout n => Sys2Proof.Machine.execSessionIdleTimeout n s
  | .logRecordClose => Sys2Proof.Machine.execLogRecordClose s
  | .operatorLogFlush ok => Sys2Proof.Machine.execOperatorLogFlush ok s
  | .entropyFailure => Sys2Proof.Machine.execEntropyFailure s
  | .controlStoreParityError => Sys2Proof.Machine.execControlStoreParityError s
  | .eventDelivery => Sys2Proof.Machine.execEventDelivery s
  | .adminDisableWrite src n v => Sys2Proof.Machine.execAdminDisableWrite src n v s
  | .ledgerSnapshot ok => Sys2Proof.Machine.execLedgerSnapshot ok s
  | .ldgSnap src ok => Sys2Proof.Machine.execLdgSnap src ok s
  | .ledgerWriteRetry ok => Sys2Proof.Machine.execLedgerWriteRetry ok s
  | .vinRise => Sys2Proof.Machine.execVinRise s
  | .vinFall => Sys2Proof.Machine.execVinFall s
  | .vinOvervoltage => Sys2Proof.Machine.execVinOvervoltage s
  | .railFault ix => Sys2Proof.Machine.execRailFault ix s
  | .thermalTrip => Sys2Proof.Machine.execThermalTrip s
  | .sysResetAssert => Sys2Proof.Machine.execSysResetAssert s
  | .deviceReset => Sys2Proof.Machine.execDeviceReset s
  | .bootStageComplete bad meas => Sys2Proof.Machine.execBootStageComplete bad meas s
  | .hostFunctionsPresent => Sys2Proof.Machine.execHostFunctionsPresent s
  | .smbStatus => Sys2Proof.Machine.execSmbStatus s
  | .smbInput => Sys2Proof.Machine.execSmbInput s
  | .smbTemp => Sys2Proof.Machine.execSmbTemp s
  | .smbEnergy => Sys2Proof.Machine.execSmbEnergy s
  | .smbIdentity => Sys2Proof.Machine.execSmbIdentity s
  | .prepareOff => Sys2Proof.Machine.execPrepareOff s
  | .readyOff => Sys2Proof.Machine.execReadyOff s
  | .registerRead src off width => Sys2Proof.Machine.execRegisterRead src off width s
  | .hdmDecoderCommit => Sys2Proof.Machine.execHdmDecoderCommit s
  | .tlsSessionClose n => Sys2Proof.Machine.execTlsSessionClose n s
  | .vinOvervoltageClear => Sys2Proof.Machine.execVinOvervoltageClear s

end Sys2Proof.Machine
end

