-- ==== Sys2Proof/Safety.lean ====
section
/-!
DEFINITION. The terms in which the statements speak of a state: the canonical form of its memories, when a BAR0 access is performed at once, and
when a command completes.
-/
namespace Sys2Proof.Machine

/-- The memories of the device and of the host, the inkwells, the accumulators and the blotters are in their canonical form: keys strictly rising,
and no entry that equals what an unlisted key reads as. -/
def State.wf (s : State) : Bool := mwf 0 s.mem && mwf 0 s.host && mwf 0 s.ink && mwf 0 s.acc && mwf 0 s.blot

/-- A 32-bit access of the source at offset `a` is performed at once and gets no bus error: the source is one of the device's, the device answers
it, a host function other than 0 is presented, the dividers are not relocking (R369), no earlier access of the function waits (R30), the access is aligned, at a register of a present and clocked
block (R23 to R27), and the device is not furled where that holds the host back (R402). -/
def State.ready (s : State) (src : Src) (a : Nat) : Bool :=
  srcOk src && s.answers src && !s.clk.divBusy && s.busCause a 4 == 0 &&
    (match src with
     | .host f => !(decide (1 ≤ f) && (s.fnPart f).isNone) && !s.hostWaits f && (wakeless a || s.fget PWR_FURL_STATE == 0)
     | _ => true)

/-- A 32-bit or 64-bit access of the source at offset `a` reaches the registers at once, whether it then gets a bus error or not: `ready` without
R26 and R27. -/
def State.reaches (s : State) (src : Src) (a : Nat) : Bool :=
  srcOk src && s.answers src && !s.clk.divBusy &&
    (match src with
     | .host f => !(decide (1 ≤ f) && (s.fnPart f).isNone) && !s.hostWaits f && (wakeless a || s.fget PWR_FURL_STATE == 0)
     | _ => true)

/-- And the source may write `v` there (the access rules of each chapter). -/
def State.takes (s : State) (src : Src) (a v : Nat) : Bool := s.ready src a && s.busWrites src a v

/-- The request of session `x.sess`, whose data is `u`, for operation `op` is performed: the management port serves Jexrex, the session is open, the
checks of R420, R422 and R426 give no STATUS against it, and its record can be written (R428). `need` is the least role, `long` says that the
operation is a long one. -/
def State.performs (s : State) (x : Jex) (u : Sess) (op need : Nat) (long : Bool) : Bool :=
  decide (x.sess < 8) && s.jexServed && mfind s.sec.sess x.sess == some u && s.jexCheck x u op need long == 0 && x.logOk

/-- `n` bytes at `a` of partition `p`'s memory space lie in one line, at device physical address `d` (R269), below the paged window, in a channel in
service that is not SCRUBBING (R50), the line is not poisoned (R276), and nothing waits to be written to it (R279). -/
def State.inLine (s : State) (p a n d : Nat) : Bool :=
  decide (a < pagedBase) && decide (1 ≤ n) && decide (a % 512 + n ≤ 512) && s.loc p a == .mem p a d && !s.closed (.mem p a d) && !s.lineBad p a d &&
    !s.scrubs p && (mfind s.hbm.late (lateKey p a)).isNone

/-- And the page is DEVICE (R344), so that the access meets nothing but memory. -/
def State.plain (s : State) (p a n d : Nat) : Bool := s.inLine p a n d && s.bias p a == 0

/-- The command at HEAD of ring `r` of partition `p`, after the host's stores `h`, is the well-formed command `c` of operation `opc`, and the ring is
being fetched (R349 to R351). -/
def State.commands (s : State) (p r opc : Nat) (h : HostStores) (c : CrCmd) : Bool :=
  crOk p r && (s.hostStores h).crLive p r && (s.hostStores h).crCommand p r == some (some c) && c.ok && c.opc == opc

/-- The state in which the command at HEAD of ring `r` is performed: the host's stores are made, and no mismatch of the slot is held (R351). -/
def State.commandAt (s : State) (p r : Nat) (h : HostStores) : State :=
  (s.hostStores h).setCr p r { (s.hostStores h).crOf p r with mism := none }

/-- The matrix descriptor at HEAD of tile `t` (R66, R84). -/
def State.mxSlot (s : State) (t : Nat) : MxD := parseMx (s.inkRead t (s.slotAddr t .mx) 64)

/-- The matrix ring of tile `t` executes its descriptor at HEAD, of operation `op`, whose checks pass (R74, R83). -/
def State.mxReady (s : State) (t op : Nat) : Bool :=
  decide (t < 152) && s.canFetch t .mx && !s.slotOut t .mx && (s.mxSlot t).op == op &&
    s.leastCode t .mx ((s.mxSlot t).check (s.tile t).mxEt5) == 0

/-- One more descriptor of ring `u` is counted, and HEAD has moved past it (R72, R105). -/
def State.completed (s s' : State) (t : Nat) (u : TU) : Prop :=
  s'.fget (u.head t) = (s.fget (u.head t) + 1) % 2 ^ u.ixBits ∧ s'.fget (u.doneF t) = (s.fget (u.doneF t) + 1) % 2 ^ 32

/-- A stream of one element of a format of whole bytes, its bytes in one inkwell page. -/
def Strm.one (x : Strm) : Bool :=
  x.c0 == 1 && x.c1 == 1 && x.c2 == 1 && !x.packed && decide (x.base % 0x10000 + x.bits / 8 ≤ 0x10000)

/-- The element of such a stream in the inkwell, as stored. -/
def State.inkElem (s : State) (t : Nat) (x : Strm) : Nat := s.inkNat t x.base (x.bits / 8)

/-- The nib descriptor at HEAD of tile `t`, with what it names (R84, R113). -/
def State.nbSlot (s : State) (t : Nat) : NbX := s.nbLoad t (parseNb (s.inkRead t (s.slotAddr t .nb) 64))

/-- The nib ring of tile `t` executes its descriptor at HEAD, of operation `op`: its checks pass (R135), and no
sampled descriptor is being recomputed on the nibs (R98). -/
def State.nbReady (s : State) (t op : Nat) : Bool :=
  decide (t < 152) && s.canFetch t .nb && (s.tile t).shadow.isNone && !s.slotOut t .nb && (s.nbSlot t).d.op == op &&
    s.leastCode t .nb (s.nbSlot t).check == 0

/-- The descriptor at HEAD of mover `n` of tile `t` (R112, R136). -/
def State.smSlot (s : State) (t n : Nat) : SmD := parseSm (s.inkRead t (s.slotAddr t (.sm n)) 128)

/-- Mover `n` of tile `t` executes its descriptor at HEAD, of operation `op`, whose checks pass (R135); no sampled descriptor locks its slot (R73). -/
def State.smReady (s : State) (t n op : Nat) : Bool :=
  moverOk t n && s.canFetch t (.sm n) && !s.slotOut t (.sm n) && !s.slotLocked t (.sm n) && (s.smSlot t n).op == op &&
    s.leastCode t (.sm n) ((s.smSlot t n).check n) == 0

/-- The engine of tile `t` can start operation `op` on region `r` of descriptor `d` at once: it is idle with nothing waiting, the operation applies and is
not withheld (R145), passes its checks (R157), needs nothing before it and has its blocks (R152). -/
def State.blReady (s : State) (p t op r : Nat) (d : RegD) : Bool :=
  blOk t r && s.tilePart t == some p && !s.fatal && !s.paused t && !s.fbit (TIL_BL_STATUS_BUSY t) && (s.tile t).blQueue.isEmpty &&
    s.regDesc p r == some d && !s.blHeld p t ⟨op, r⟩ && s.blApplies p t ⟨op, r⟩ && (s.blCheck p t r op).1 == 0 && (s.blBefore p t ⟨op, r⟩ d).isEmpty &&
    ((op != 1 && op != 3) || s.blRoom t r d.nblocks)

/-- The sequencer of partition `p` releases entry `i` of its table next, of KIND `kind` (R221). -/
def State.releases (s : State) (p kind : Nat) (h : SHdr) (b : Bunt) (i : Nat) (e : SEnt) (moved : Bool) : Bool :=
  decide (p < 16) && s.sqLive p && !s.sqHeld p && s.sqHdr p (s.fget (SCH_SQ_EPOCH_SLOT p)) == some h && s.bunt p == some b && s.pick p h b == .go i e moved &&
    e.kind == kind

/-- Nothing is waiting to leave on connection `c`: no ACK, PROBE, lost or new segment or request. -/
def Conn.quiet (c : Conn) : Bool := !c.ackDue && !c.probeDue && c.resend.isEmpty && c.fresh.isEmpty && c.reqs.isEmpty

/-- No other connection of its sub-port has a packet to send in turn with connection `c` of context `i` (R329). -/
def State.alone (s : State) (i : Nat) (c : Conn) : Bool :=
  s.zt.ctx.all (fun e => e == (i, c) || e.2.port != c.port || e.2.sub != c.sub || !s.zReady e.1 e.2)

/-- Connection `c` of context `i` may send, alone: its sub-port is its partition's (R56), no raw frame is in progress there (R301), and no other
connection has a packet ready (R329). -/
def State.mayGo (s : State) (i : Nat) (c : Conn) : Bool :=
  s.zCanSend c && s.subHolder c.port c.sub == some c.part && (s.txNow c.port c.sub).isNone && s.alone i c

/-- A packet of type `typ` reaches connection `c`, in context `i` of the cache and in state `st` (R312, R319, R334): no older frame of its sub-port is
in the receive buffer, the port is not disabled (R442), its header is good, and no connection of the partition is UNREACHABLE. -/
def State.comes (s : State) (k : ZPkt) (typ st i : Nat) (c : Conn) : Bool :=
  s.zOn && subOk k.port k.sub && (s.eth.buf.find? (fun f => f.port == k.port && f.sub == k.sub)).isNone && !s.portOff k.port && headerOk k.header &&
    leAt k.header 0 1 % 16 == typ && s.findConn (leAt k.header 4 4) == some (i, c) && s.subHolder k.port k.sub == some c.part &&
    s.fget (FAB_PART_STATE_P c.part) != 2 && s.fget (FAB_PART_STATE_P c.part) != 3 && c.resident && c.state == st &&
    (s.connsOf c.part).all (fun e => e.2.state != 4)

/-- Such a packet whose tag verifies, with the plain body `b` (R314). -/
def State.arrives (s : State) (k : ZPkt) (b : List Byte) (typ st i : Nat) (c : Conn) : Bool :=
  s.comes k typ st i c && c.opened (leAt k.header 8 6) k.header k.body == some b

/-- A frame of header byte `b` of connection `i` is what the device sends next (R311, R312). -/
def State.sent (s s' : State) (i b : Nat) : Prop := ∃ f, s'.out = .zheris i f :: s.out ∧ leAt f.header 0 1 = b

/-- The command completes: exec answers a next state, and `P` holds of it. -/
def Completes (c : Instr) (s : State) (P : State → Prop) : Prop := ∃ t, exec c s = .next t ∧ P t

/-- The rows that change no byte of a tile's inkwell, blotter or accumulators. -/
def keepsTiles : Instr → Bool
  | .clockDisableEffect .. | .d2dBlockRetry .. | .d2dRetryExhausted .. | .partitionDrainEnd .. | .imageStoreComplete .. | .mxNop ..
  | .shadowRecomputeDone .. | .watchSummary .. | .watchIdle .. | .nibNop .. | .nibWait .. | .nibWaitMet .. | .nibPost .. | .moverNop ..
  | .moverWait .. | .moverWaitMet .. | .ligatureUpdateStart .. | .normExchangeArrival .. | .stepCommit .. | .rollbackComplete ..
  | .slowUpdateStart .. | .slowUpdateComplete .. | .taskFetch .. | .modelLoadComplete .. | .earlyWaitsMet ..
  | .demandPageFault .. | .taskRetry .. | .joinRecordArrival .. | .sqTask .. | .sqXfer .. | .sqReduce .. | .sqClose .. | .sqMark ..
  | .reduceSegmentArrival .. | .reduceResultArrival .. | .slowRecordArrival .. | .frequencyReportArrival .. | .closeRecordArrival ..
  | .combinedRecordArrival .. | .stepEnd .. | .migrationComplete .. | .seqStall .. | .sealComplete .. | .digestMessageArrival ..
  | .repairRequest .. | .repairRecord .. | .stepVerified .. | .dirtyScanSend .. | .mirrorLine .. | .mirrorDescribe .. | .mirrorEntry ..
  | .mirrorCommit .. | .mirrorVerify .. | .logMoveComplete .. | .migrateRecord .. | .lineRebuild .. | .takeoverNotice .. | .spareStateRequest ..
  | .patrolScrub .. | .ueLimitReached .. | .channelTrainingLoss .. | .retrainResult .. | .channelMapOut .. | .rekeyPage .. | .rxFrame ..
  | .pauseRefresh .. | .pauseFrameReceived .. | .pauseExpiry .. | .lldpduReceived .. | .lldpTransmit .. | .lldpTtlExpiry ..
  | .verifyFrameReceived .. | .preemptVerifyTimeout .. | .linkUp .. | .linkDown .. | .lpiEntry .. | .lpiExit .. | .moduleInsertion ..
  | .txFrameSent .. | .ztxSendRequest .. | .dataPacket .. | .ackPacket .. | .probePacket .. | .closePacket .. | .helloPacket ..
  | .helloAckPacket .. | .helloRepeat .. | .setupTimeout .. | .closeRepeat .. | .rtoExpiry .. | .ackDelayExpiry .. | .ratePeriod ..
  | .rateIdleReset .. | .keepaliveExpiry .. | .peerUnreachable .. | .contextFetchComplete .. | .cmdNop .. | .cmdTask .. | .cmdTaskRef ..
  | .cmdWrite .. | .cmdSignal .. | .cmdBias .. | .slotReread .. | .bar2IoRead .. | .bar2IoWrite .. | .cxlMemRead .. | .cxlMemWrite ..
  | .hostLoss .. | .firstAttach .. | .cplRecordWrite .. | .cplInterrupt .. | .monitorWindowEnd .. | .missingEdge .. | .pllRelockComplete ..
  | .arithKStep .. | .controllerTick .. | .modelCorrection .. | .thermalRead .. | .kPropPeriod .. | .subscribe .. | .getCert .. | .attest ..
  | .logRead .. | .ledgerRead .. | .lldpRead .. | .wake .. | .fwBegin .. | .fwChunk .. | .fwEnd .. | .fwBeginTimeout .. | .fwCommit ..
  | .keyslotEnroll .. | .keyslotRevoke .. | .credAdd .. | .credRemove .. | .netConfig .. | .trimWrite .. | .rootDisable .. | .makerChallenge ..
  | .makerUnlock .. | .makerFn .. | .challengeExpiry .. | .makerGrantExpiry .. | .enrollFirst .. | .tlsHandshake .. | .handshakeLockoutExpiry ..
  | .sessionIdleTimeout .. | .logRecordClose .. | .operatorLogFlush .. | .entropyFailure .. | .controlStoreParityError .. | .eventDelivery ..
  | .ledgerSnapshot .. | .ledgerWriteRetry .. | .hostFunctionsPresent .. | .smbStatus .. | .smbInput .. | .smbTemp .. | .smbEnergy ..
  | .smbIdentity .. | .prepareOff .. | .hdmDecoderCommit .. | .tlsSessionClose .. | .vinOvervoltageClear .. => true
  | _ => false

/-- The rows that store nothing to device memory. Of the maker functions, one returns a channel, which is zeroed (R49). -/
def keepsMemory : Instr → Bool
  | .d2dBlockRetry .. | .d2dRetryExhausted .. | .partitionDrainEnd .. | .imageStoreComplete .. | .mxNop .. | .mxMma .. | .mxDrain ..
  | .mxLoad .. | .shadowRecomputeDone .. | .watchSummary .. | .watchIdle .. | .nibNop .. | .nibMap .. | .nibReduce .. | .nibSoftmax ..
  | .nibCompress .. | .nibExpand .. | .nibMxpack .. | .nibMxunpack .. | .nibEt5 .. | .nibWait .. | .nibWaitMet .. | .nibPost ..
  | .moverNop .. | .moverWait .. | .moverWaitMet .. | .pageLoadsComplete .. | .earlyWaitsMet .. | .taskRetry .. | .sqTask .. | .sqXfer ..
  | .sqMark .. | .reduceResultArrival .. | .seqStall .. | .mirrorCommit .. | .mirrorVerify .. | .ueLimitReached .. | .channelTrainingLoss ..
  | .retrainResult .. | .channelMapOut .. | .rekeyPage .. | .pauseRefresh .. | .lldpduReceived .. | .lldpTransmit .. | .lldpTtlExpiry ..
  | .verifyFrameReceived .. | .preemptVerifyTimeout .. | .linkDown .. | .lpiEntry .. | .moduleInsertion .. | .helloRepeat ..
  | .closeRepeat .. | .ratePeriod .. | .rateIdleReset .. | .cmdNop .. | .cmdTask .. | .cmdSignal .. | .slotReread .. | .bar2IoRead ..
  | .cxlMemRead .. | .hostLoss .. | .cplRecordWrite .. | .cplInterrupt .. | .monitorWindowEnd .. | .missingEdge .. | .pllRelockComplete ..
  | .arithKStep .. | .kPropPeriod .. | .tileExchangeForK .. | .furlComplete .. | .subscribe .. | .getCert .. | .attest .. | .logRead ..
  | .ledgerRead .. | .lldpRead .. | .wake .. | .fwBegin .. | .fwChunk .. | .fwEnd .. | .fwBeginTimeout .. | .fwCommit .. | .keyslotEnroll ..
  | .keyslotRevoke .. | .credAdd .. | .credRemove .. | .netConfig .. | .trimWrite .. | .makerChallenge .. | .makerUnlock ..
  | .challengeExpiry .. | .makerGrantExpiry .. | .enrollFirst .. | .tlsHandshake .. | .handshakeLockoutExpiry .. | .sessionIdleTimeout ..
  | .logRecordClose .. | .operatorLogFlush .. | .entropyFailure .. | .controlStoreParityError .. | .ledgerSnapshot .. | .ledgerWriteRetry ..
  | .hostFunctionsPresent .. | .smbStatus .. | .smbInput .. | .smbTemp .. | .smbEnergy .. | .smbIdentity .. | .prepareOff ..
  | .hdmDecoderCommit .. | .tlsSessionClose .. | .vinOvervoltageClear .. => true
  | .makerFn _ f _ => f != 1
  | _ => false

/-- The rows that store to device memory nothing but records in the host-lost queues (R354). -/
def storesRecords : Instr → Bool
  | .ackDelayExpiry .. | .cmdTaskRef .. | .keepaliveExpiry .. | .linkUp .. | .lpiExit .. | .pauseExpiry .. | .pauseFrameReceived ..
  | .rootDisable .. | .rtoExpiry .. | .setupTimeout .. | .txFrameSent .. | .ztxSendRequest .. => true
  | _ => false

end Sys2Proof.Machine
end

