-- ==== Sys2Proof/WellFormed.lean ====
section
/-!
DEFINITION. Well-formed commands: every unit that a command names is one of the device's (R2, R11, R14, R24, R38, R309, R348). Operands that are
data (addresses, words, images, packets) may hold anything: what the device makes of them is their meaning.
-/
namespace Sys2Proof

/-- Is the source one of the device's: functions 0 to 16, sessions 0 to 7, the firmware? -/
def srcThere : Src → Bool
  | .host f => decide (f < 17)
  | .sess n => decide (n < 8)
  | .fw => true

/-- Port 0 to 15 and sub-port 0 to 3. -/
def subThere (j k : Nat) : Bool := decide (j < 16) && decide (k < 4)

/-- Does the command name only units that some variant of the device has? -/
def wellFormed : Instr → Bool
  | .registerWrite src _ _ _ => srcThere src
  | .lowWordRead src _ => srcThere src
  | .highWordRead src _ => srcThere src
  | .lowWordWrite src _ _ => srcThere src
  | .highWordWrite src _ _ => srcThere src
  | .buserrClear src => srcThere src
  | .clockEnableWrite src n _ => srcThere src && decide (n < 2)
  | .clockDisableEffect g => decide (g < 40)
  | .d2dBlockRetry => true
  | .d2dRetryExhausted => true
  | .imageLoad x _ _ _ => decide (x.sess < 8)
  | .partitionDrainEnd p => decide (p < 16)
  | .reloadTimeout p => decide (p < 16)
  | .scrubComplete p => decide (p < 16)
  | .imageStoreComplete _ => true
  | .tileFailure t => decide (t < 152)
  | .mxNop t => decide (t < 152)
  | .mxMma t => decide (t < 152)
  | .mxDrain t => decide (t < 152)
  | .mxLoad t => decide (t < 152)
  | .tileRingEnable src t u _ => srcThere src && decide (t < 152) && decide (u < 4)
  | .tileRingAbort src t u _ => srcThere src && decide (t < 152) && decide (u < 4)
  | .tileRingResume src t u _ => srcThere src && decide (t < 152) && decide (u < 4)
  | .tileRingTailWrite src t u _ => srcThere src && decide (t < 152) && decide (u < 4)
  | .shadowRecomputeDone t => decide (t < 152)
  | .watchSummary p => decide (p < 16)
  | .watchEnable src p _ => srcThere src && decide (p < 16)
  | .watchDisable src p _ => srcThere src && decide (p < 16)
  | .watchIdle p => decide (p < 16)
  | .nibNop t => decide (t < 152)
  | .nibMap t => decide (t < 152)
  | .nibReduce t => decide (t < 152)
  | .nibSoftmax t => decide (t < 152)
  | .nibCompress t => decide (t < 152)
  | .nibExpand t => decide (t < 152)
  | .nibMxpack t => decide (t < 152)
  | .nibMxunpack t => decide (t < 152)
  | .nibEt5 t => decide (t < 152)
  | .nibWait t => decide (t < 152)
  | .nibWaitMet t => decide (t < 152)
  | .nibPost t => decide (t < 152)
  | .moverNop t n => (decide (t < 152) && decide (n < 2))
  | .moverCopy t n _ => (decide (t < 152) && decide (n < 2))
  | .moverWait t n => (decide (t < 152) && decide (n < 2))
  | .moverWaitMet t n => (decide (t < 152) && decide (n < 2))
  | .blotterOpen t r => (decide (t < 152) && decide (r < 65536))
  | .blotterSpill t r => (decide (t < 152) && decide (r < 65536))
  | .blotterFill t r => (decide (t < 152) && decide (r < 65536))
  | .blotterFold t r => (decide (t < 152) && decide (r < 65536))
  | .blotterDrain t r => (decide (t < 152) && decide (r < 65536))
  | .blotterClose t r => (decide (t < 152) && decide (r < 65536))
  | .blotterOpComplete t => decide (t < 152)
  | .ligatureUpdateStart p _ => decide (p < 16)
  | .normExchangeArrival p _ _ _ => decide (p < 16)
  | .stepCommit p => decide (p < 16)
  | .rollbackComplete p => decide (p < 16)
  | .slowUpdateStart p => decide (p < 16)
  | .slowUpdateComplete p => decide (p < 16)
  | .taskFetch p => decide (p < 16)
  | .modelLoadComplete p m _ => decide (p < 16) && decide (m < 8)
  | .taskReady p _ => decide (p < 16)
  | .schedulingRound p => decide (p < 16)
  | .pageLoadsComplete t => decide (t < 152)
  | .earlyWaitsMet p _ => decide (p < 16)
  | .taskComplete p _ => decide (p < 16)
  | .tileSpillComplete t => decide (t < 152)
  | .tileRestore p _ => decide (p < 16)
  | .restoreComplete t => decide (t < 152)
  | .pageInComplete p _ _ => decide (p < 16)
  | .demandPageFault p _ _ => decide (p < 16)
  | .taskRetry p _ => decide (p < 16)
  | .signalCounterWrite src p n _ _ => srcThere src && decide (p < 16) && decide (n < 256)
  | .sqJoin src p _ => srcThere src && decide (p < 16)
  | .joinRecordArrival p _ => decide (p < 16)
  | .sqPlan src p _ => srcThere src && decide (p < 16)
  | .sqEnable src p _ => srcThere src && decide (p < 16)
  | .sqResume src p _ => srcThere src && decide (p < 16)
  | .sqCancel src p _ => srcThere src && decide (p < 16)
  | .epochRequest src p _ => srcThere src && decide (p < 16)
  | .sqTask p => decide (p < 16)
  | .sqXfer p => decide (p < 16)
  | .sqDrain p => decide (p < 16)
  | .sqFold p => decide (p < 16)
  | .sqReduce p => decide (p < 16)
  | .sqClose p => decide (p < 16)
  | .sqMark p => decide (p < 16)
  | .reduceSegmentArrival p _ _ _ => decide (p < 16)
  | .reduceResultArrival p _ _ _ => decide (p < 16)
  | .slowRecordArrival p _ _ _ _ _ => decide (p < 16)
  | .frequencyReportArrival p _ _ => decide (p < 16)
  | .closeRecordArrival p _ _ => decide (p < 16)
  | .combinedRecordArrival p => decide (p < 16)
  | .stepEnd p => decide (p < 16)
  | .migrationComplete p => decide (p < 16)
  | .seqStall p => decide (p < 16)
  | .palEnable src p _ => srcThere src && decide (p < 16)
  | .sealComplete p => decide (p < 16)
  | .palReseed src p _ => srcThere src && decide (p < 16)
  | .digestMessageArrival p _ _ _ => decide (p < 16)
  | .repairRequest p slot _ _ _ => decide (p < 16) && (slot.all (fun n => decide (n < 4)))
  | .repairRecord p _ => decide (p < 16)
  | .stepVerified p _ => decide (p < 16)
  | .dirtyScanSend p _ _ => decide (p < 16)
  | .mirrorLine p n _ => (decide (p < 16) && decide (n < 4))
  | .mirrorDescribe p n _ => (decide (p < 16) && decide (n < 4))
  | .mirrorEntry p n _ => (decide (p < 16) && decide (n < 4))
  | .mirrorCommit p n _ => (decide (p < 16) && decide (n < 4))
  | .mirrorVerify p n _ => (decide (p < 16) && decide (n < 4))
  | .logMoveComplete p n => (decide (p < 16) && decide (n < 4))
  | .migrateRecord p _ => decide (p < 16)
  | .lineRebuild p _ _ _ _ => decide (p < 16)
  | .takeoverNotice p _ => decide (p < 16)
  | .spareStateRequest p _ => decide (p < 16)
  | .patrolScrub c _ => decide (c < 256)
  | .ueLimitReached c => decide (c < 256)
  | .channelTrainingLoss c => decide (c < 256)
  | .retrainResult c _ => decide (c < 256)
  | .hbmMapout src _ => srcThere src
  | .channelMapOut c => decide (c < 256)
  | .mapOutSwitch => true
  | .rekeyPage c q _ => decide (c < 256) && decide (q < 1024)
  | .rxFrame j k _ _ _ _ => subThere j k
  | .pauseRefresh j k q => subThere j k && decide (q < 8)
  | .pauseFrameReceived j k _ _ => subThere j k
  | .pauseExpiry j k q => subThere j k && decide (q < 8)
  | .lldpduReceived j k _ _ _ _ => subThere j k
  | .lldpTransmit j k => subThere j k
  | .lldpTtlExpiry j k => subThere j k
  | .verifyFrameReceived j k _ => subThere j k
  | .preemptVerifyTimeout j k => subThere j k
  | .linkUp j k _ _ => subThere j k
  | .linkDown j k => subThere j k
  | .lpiEntry j k => subThere j k
  | .lpiExit j k => subThere j k
  | .moduleInsertion j _ _ _ => decide (j < 16)
  | .txRingDoorbell src j k _ => srcThere src && subThere j k
  | .txFrameSent j k => subThere j k
  | .filterWord0Write src j e _ => srcThere src && decide (j < 16) && decide (e < 64)
  | .rxQueueEnable src j q _ => srcThere src && decide (j < 16) && decide (q < 32)
  | .ztxSendRequest p _ => decide (p < 16)
  | .dataPacket k => subThere k.port k.sub
  | .ackPacket k _ => subThere k.port k.sub
  | .probePacket k => subThere k.port k.sub
  | .closePacket k => subThere k.port k.sub
  | .helloPacket k => subThere k.port k.sub
  | .helloAckPacket k => subThere k.port k.sub
  | .helloRepeat _ => true
  | .setupTimeout _ => true
  | .ztxOpen src p => srcThere src && decide (p < 16)
  | .ztxClose src p => srcThere src && decide (p < 16)
  | .closeRepeat _ => true
  | .ztxRelease src p => srcThere src && decide (p < 16)
  | .ztxRebind src p => srcThere src && decide (p < 16)
  | .ztxQuery src p => srcThere src && decide (p < 16)
  | .rtoExpiry _ _ _ => true
  | .ackDelayExpiry _ => true
  | .ratePeriod _ => true
  | .rateIdleReset _ => true
  | .keepaliveExpiry p _ => decide (p < 16)
  | .peerUnreachable p _ => decide (p < 16)
  | .contextFetchComplete _ _ _ => true
  | .crDoorbell src p r _ => srcThere src && (decide (p < 16) && decide (r < 8))
  | .cmdNop p r _ => (decide (p < 16) && decide (r < 8))
  | .cmdTask p r _ => (decide (p < 16) && decide (r < 8))
  | .cmdTaskRef p r _ => (decide (p < 16) && decide (r < 8))
  | .cmdWrite p r _ => (decide (p < 16) && decide (r < 8))
  | .cmdSignal p r _ => (decide (p < 16) && decide (r < 8))
  | .cmdBias p r _ _ => (decide (p < 16) && decide (r < 8))
  | .slotReread p r _ => (decide (p < 16) && decide (r < 8))
  | .crResume src p r _ => srcThere src && (decide (p < 16) && decide (r < 8))
  | .bar2IoRead fn _ _ => decide (fn < 17)
  | .bar2IoWrite fn _ _ => decide (fn < 17)
  | .cxlMemRead _ _ => true
  | .cxlMemWrite _ _ => true
  | .bindWrite src _ _ => srcThere src
  | .hostLoss _ fn => decide (fn < 17)
  | .firstAttach p _ _ => decide (p < 16)
  | .attach src p _ _ _ => srcThere src && decide (p < 16)
  | .cplRecordWrite p => decide (p < 16)
  | .cplInterrupt p => decide (p < 16)
  | .monitorWindowEnd _ _ => true
  | .missingEdge c => decide (c < 2)
  | .pllRelockComplete => true
  | .clkDivWrite src _ => srcThere src
  | .dividerRelockComplete => true
  | .arithKStep => true
  | .arithLimitWrite src _ => srcThere src
  | .controllerTick _ => true
  | .modelCorrection => true
  | .thermalRead _ => true
  | .tileFmaxMeasure t _ => decide (t < 152)
  | .kPropPeriod => true
  | .tileExchangeForK t => decide (t < 152)
  | .pwrCapWrite src _ => srcThere src
  | .furl src _ => srcThere src
  | .furlComplete => true
  | .pwrWake src _ => srcThere src
  | .wakeComplete => true
  | .readReg x _ _ => decide (x.sess < 8)
  | .writeReg x _ _ _ => decide (x.sess < 8)
  | .subscribe x => decide (x.sess < 8)
  | .getCert x => decide (x.sess < 8)
  | .attest x _ => decide (x.sess < 8)
  | .logRead x _ => decide (x.sess < 8)
  | .ledgerRead x _ => decide (x.sess < 8)
  | .lldpRead x _ _ => decide (x.sess < 8)
  | .wake x => decide (x.sess < 8)
  | .fwBegin x _ => decide (x.sess < 8)
  | .fwChunk x _ _ => decide (x.sess < 8)
  | .fwEnd x _ _ => decide (x.sess < 8)
  | .fwBeginTimeout => true
  | .fwCommit x => decide (x.sess < 8)
  | .keyslotEnroll x _ _ => decide (x.sess < 8)
  | .keyslotRevoke x _ _ => decide (x.sess < 8)
  | .credAdd x _ _ _ => decide (x.sess < 8)
  | .credRemove x _ => decide (x.sess < 8)
  | .netConfig x _ => decide (x.sess < 8)
  | .trimWrite x _ => decide (x.sess < 8)
  | .rootDisable x _ => decide (x.sess < 8)
  | .reset x => decide (x.sess < 8)
  | .makerChallenge x _ => decide (x.sess < 8)
  | .makerUnlock x _ => decide (x.sess < 8)
  | .makerFn x _ _ => decide (x.sess < 8)
  | .challengeExpiry => true
  | .makerGrantExpiry n => decide (n < 8)
  | .enrollFirst x _ => decide (x.sess < 8)
  | .tlsHandshake _ _ _ => true
  | .handshakeLockoutExpiry _ => true
  | .sessionIdleTimeout n => decide (n < 8)
  | .logRecordClose => true
  | .operatorLogFlush _ => true
  | .entropyFailure => true
  | .controlStoreParityError => true
  | .eventDelivery => true
  | .adminDisableWrite src n _ => srcThere src && decide (n < 6)
  | .ledgerSnapshot _ => true
  | .ldgSnap src _ => srcThere src
  | .ledgerWriteRetry _ => true
  | .vinRise => true
  | .vinFall => true
  | .vinOvervoltage => true
  | .railFault i => decide (i < 24)
  | .thermalTrip => true
  | .sysResetAssert => true
  | .deviceReset => true
  | .bootStageComplete _ _ => true
  | .hostFunctionsPresent => true
  | .smbStatus => true
  | .smbInput => true
  | .smbTemp => true
  | .smbEnergy => true
  | .smbIdentity => true
  | .prepareOff => true
  | .readyOff => true
  | .registerRead src _ _ => srcThere src
  | .hdmDecoderCommit => true
  | .tlsSessionClose n => decide (n < 8)
  | .vinOvervoltageClear => true

end Sys2Proof
end

