-- ==== Sys2Proof/Certificates/Slice0/Obligations.lean ====
section
/-!
DEFINITION. The statements for the provers: which rows complete and with what effect (O1 to O35), and what the whole block does and leaves alone.
-/
open Sys2Proof Sys2Proof.Machine

/-- The BAR0 access rows complete (R9, R11, R26, R29, R447): REGISTER_READ, REGISTER_WRITE, LOW_WORD_READ, HIGH_WORD_READ, LOW_WORD_WRITE,
HIGH_WORD_WRITE and BUSERR_CLEAR, for every source whose access is performed at once.
BUSERR_CLEAR may come from every source (log entry 40, DEDUCED). -/
def Obligations.BusRowsComplete : Prop :=
  ∀ (s : State) (src : Src) (off v p : Nat) (r : Reg), v < 2 ^ 32 → p < 16 → s.ready src off = true →
    (regAt off = some r → r.bytes = 4 → off = r.off → s.mayRead src off = true →
      Completes (.registerRead src off 4) s (fun t => t.out = .readData src (s.readVal r % 2 ^ 32) :: s.out ∧ t.fields = s.fields)) ∧
    (∀ o, within off 0xA08000 0x100 16 = some (p, o) → s.mayRead src off = true →
      Completes (.registerRead src off 4) s (fun t => t.out = .readData src (leAt (s.resume p) o 4) :: s.out ∧ t.fields = s.fields)) ∧
    (off = EVT_MGMT_CFG.off → s.busWrites src off v = true →
      Completes (.registerWrite src off 4 v) s (fun t => t.fget EVT_MGMT_CFG_MIN_SEV = v % 8)) ∧
    (regAt off = some r → r.bytes = 4 → off = r.off → s.busWrites src off v = false →
      Completes (.registerWrite src off 4 v) s (fun t => t.fields = s.fields)) ∧
    (regAt off = some r → r.bytes = 8 → off = r.off →
      Completes (.lowWordRead src off) s (fun t =>
        t.out = .readData src (s.wordAt src off) :: s.out ∧ (t.splitOf src).latch = some (off, s.wordAt src (off + 4)) ∧ t.fields = s.fields) ∧
      Completes (.lowWordWrite src off v) s (fun t => (t.splitOf src).held = some (off, v) ∧ t.fields = s.fields)) ∧
    (regAt off = some r → r.bytes = 8 → off = r.off + 4 →
      Completes (.highWordRead src r.off) s (fun t =>
        t.out = .readData src (match (s.splitOf src).latch with
          | some (o, h) => if o = r.off then h else s.wordAt src off
          | none => s.wordAt src off) :: s.out ∧ (t.splitOf src).latch = none ∧ t.fields = s.fields)) ∧
    (off = (ZTX_P_OP_ARG p).off + 4 → (∀ x, s.busWrites src (ZTX_P_OP_ARG p).off x = true) →
      Completes (.highWordWrite src (ZTX_P_OP_ARG p).off v) s (fun t =>
        t.fget (ZTX_P_OP_ARG_NEW_CONN p) = v ∧ (t.splitOf src).held = none ∧
        t.fget (ZTX_P_OP_ARG_CONN p) = (match (s.splitOf src).held with
          | some (o, lo) => if o = (ZTX_P_OP_ARG p).off then lo % 2 ^ 32 else s.fget (ZTX_P_OP_ARG_CONN p)
          | none => s.fget (ZTX_P_OP_ARG_CONN p)))) ∧
    (off = GEN_BUSERR_STATUS.off →
      Completes (.buserrClear src) s (fun t =>
        t.fget GEN_BUSERR_STATUS_VALID = 0 ∧ t.fget GEN_BUSERR_STATUS_OVERFLOW = 0 ∧ t.fget GEN_BUSERR_STATUS_COUNT = 0 ∧
          t.fget GEN_BUSERR_STATUS_CAUSE = 0))

/-- The rows that write CTRL and TAIL of a tile ring complete (R72, R74, R84, R136, R465), for the matrix array, the nib array and both movers. -/
def Obligations.TileRingRowsComplete : Prop :=
  ∀ (s : State) (src : Src) (t u v : Nat) (w : TU), t < 152 → TU.ofCode u = some w → v < 2 ^ 32 →
    (∀ on, s.takes src (ringOff t u 0) (b2n on) = true →
      Completes (.tileRingEnable src t u on) s (fun s' =>
        s'.fget (w.enable t) = b2n on ∧ s'.fget (w.head t) = s.fget (w.head t) ∧ s'.fget (w.tail t) = s.fget (w.tail t) ∧ s'.acc = s.acc)) ∧
    (s.takes src (ringOff t u 0) (setBit v 1) = true → v.testBit 2 = false →
      Completes (.tileRingAbort src t u v) s (fun s' =>
        s'.fget (w.enable t) = v % 2 ∧ s'.fget (w.head t) = s.fget (w.tail t) ∧ s'.halted t w = false ∧
          s'.fget (w.doneF t) = s.fget (w.doneF t))) ∧
    (s.takes src (ringOff t u 0) (setBit v 2) = true → v.testBit 1 = false →
      Completes (.tileRingResume src t u v) s (fun s' =>
        s'.fget (w.enable t) = v % 2 ∧ s'.fget (w.head t) = s.fget (w.head t) ∧ s'.halted t w = false)) ∧
    (s.takes src (ringOff t u 0xC) v = true → ahead w.ixBits (v % 2 ^ w.ixBits) (s.fget (w.head t)) ≤ s.slots t w →
      Completes (.tileRingTailWrite src t u v) s (fun s' =>
        s'.fget (w.tail t) = v % 2 ^ w.ixBits ∧ s'.fget (w.head t) = s.fget (w.head t) ∧ s'.halted t w = s.halted t w))

/-- WATCH_ENABLE, WATCH_DISABLE (R104) and SIGNAL_COUNTER_WRITE (R188) complete. -/
def Obligations.WatchAndSignalRowsComplete : Prop :=
  ∀ (s : State) (src : Src) (p v : Nat), p < 16 → v < 2 ^ 32 →
    (s.takes src (SCH_NW_PCTRL p).off (setBit v 0) = true →
      Completes (.watchEnable src p v) s (fun t =>
        t.fget (SCH_NW_PCTRL_ENABLE p) = 1 ∧ t.fget (SCH_NW_PSTATUS_IDLE p) = 0 ∧
          (t.nwp p).partialStep = (s.stepOpen p || (s.nwp p).partialStep))) ∧
    (s.takes src (SCH_NW_PCTRL p).off (clearBit v 0) = true → s.fbit (SCH_NW_PCTRL_ENABLE p) = true →
      Completes (.watchDisable src p v) s (fun t =>
        t.fget (SCH_NW_PCTRL_ENABLE p) = 0 ∧ (t.nwp p).flight = [] ∧ (t.nwp p).acc = [])) ∧
    (∀ n inc, n < 256 → s.takes src (SCH_SIG p n).off v = true →
      Completes (.signalCounterWrite src p n v inc) s (fun t =>
        t.fget (SCH_SIG_VALUE p n) = (v + inc) % 2 ^ 32 ∧
          ∀ m < 256, m ≠ n → t.fget (SCH_SIG_VALUE p m) = s.fget (SCH_SIG_VALUE p m)))

/-- SQ_JOIN, SQ_PLAN, SQ_ENABLE, SQ_RESUME, SQ_CANCEL and EPOCH_REQUEST complete (R212, R213, R222, R224, R234).
The order of the planner's codes is log entry 81 (DEDUCED), and an n_s that R216 does not state a free value (log entry 21, DESIGN CHOICE). -/
def Obligations.SequencerControlRowsComplete : Prop :=
  ∀ (s : State) (src : Src) (p v : Nat), p < 16 → v < 2 ^ 32 →
    (∀ b, s.takes src (SCH_SQ_CTRL p).off (setBit v 1) = true → s.buntCheck p = .inr b → s.fbit (SCH_SQ_CTRL_ENABLE p) = false →
      v.testBit 0 = false → v.testBit 2 = false → v.testBit 3 = false → v.testBit 4 = false →
      Completes (.sqJoin src p v) s (fun t =>
        (t.sqp p).joined.contains b.self = true ∧ t.fget (SCH_SQ_STATUS_JOINED p) = min 255 (t.sqp p).joined.length)) ∧
    (∀ b q, s.takes src (SCH_SQ_CTRL p).off (setBit v 2) = true → s.fbit (SCH_SQ_CTRL_ENABLE p) = false →
      v.testBit 0 = false → v.testBit 1 = false → v.testBit 3 = false → v.testBit 4 = false →
      s.memGet p (s.fget (SCH_SQ_PLAN_BASE p) * 2 ^ 11) 1024 = some q → s.bunt p = some b → planBad b q = false →
      s.fbit (SCH_SQ_STATUS_FORMED p) = true →
      Completes (.sqPlan src p v) s (fun t =>
        t.fget (SCH_SQ_STATUS_PLAN_CODE p) =
          (planGo b q (fun i => leAt (s.buntEnt p i) 0x10 4) (fun i => leAt (s.buntEnt p i) 0x14 2)
            (fun i => (Config.fresh (s.freeN + i)).toNat % 2 ^ 16)).2 % 2 ^ (SCH_SQ_STATUS_PLAN_CODE p).width)) ∧
    (s.takes src (SCH_SQ_CTRL p).off (setBit v 0) = true → s.fbit (SCH_SQ_CTRL_ENABLE p) = false →
      v.testBit 1 = false → v.testBit 2 = false → v.testBit 3 = false → v.testBit 4 = false →
      Completes (.sqEnable src p v) s (fun t =>
        t.fget (SCH_SQ_CTRL_ENABLE p) = 1 ∧ t.fget (SCH_SQ_POS_NEXT p) = 0 ∧ t.fget (SCH_SQ_INFLIGHT_COUNT p) = 0)) ∧
    (s.takes src (SCH_SQ_CTRL p).off (setBit v 4) = true → s.fbit (SCH_SQ_CTRL_ENABLE p) = true →
      s.fbit (SCH_SQ_STATUS_RUNNING p) = true → v.testBit 0 = true → v.testBit 1 = false → v.testBit 2 = false → v.testBit 3 = false →
      Completes (.sqResume src p v) s (fun t =>
        t.fget (SCH_SQ_STATUS_HALTED p) = 0 ∧ t.fget (SCH_SQ_STATUS_RUNNING p) = 1 ∧ t.fget (SCH_SQ_CTRL_ENABLE p) = 1)) ∧
    (s.takes src (SCH_SQ_CTRL p).off (setBit v 3) = true → s.fbit (SCH_SQ_CTRL_ENABLE p) = true →
      v.testBit 0 = true → v.testBit 1 = false → v.testBit 2 = false → v.testBit 4 = false →
      Completes (.sqCancel src p v) s (fun t => t.fget (SCH_SQ_NEXT_REQ p) = 0 ∧ t.fget (SCH_SQ_CTRL_ENABLE p) = 1)) ∧
    (s.takes src (SCH_SQ_NEXT p).off v = true →
      Completes (.epochRequest src p v) s (fun t =>
        t.fget (SCH_SQ_NEXT_REQ p) = v / 2 ^ 31 % 2 ∧ t.fget (SCH_SQ_NEXT_SLOT p) = v / 2 ^ 30 % 2 ∧
          t.fget (SCH_SQ_NEXT_EPOCH p) = v % 2 ^ 16))

/-- PAL_ENABLE (R241, R250) and PAL_RESEED (R258) complete. -/
def Obligations.PalimpsestRegisterRowsComplete : Prop :=
  ∀ (s : State) (src : Src) (p v : Nat), p < 16 → v < 2 ^ 32 →
    (s.takes src (PAL_CTRL p).off (setBit v 0) = true → s.fbit (PAL_CTRL_ENABLE p) = false → s.mirror p = 0 → v / 2 % 4 = 0 → v.testBit 4 = false →
      s.firstOut p [(s.digestAddr p 0, 64 * ((s.tensorTable p (s.epochNow p)).map (·.2)).getD 0),
        (s.fget (PAL_DIRTY_BASE_BASE p) * 512, ceilDiv (s.shardLines p) 8),
        (s.fget (PAL_XCHG_BASE_BASE p) * 512, if s.repsOf p ≤ 1 then 0 else 2 * s.repsOf p * s.xchgLen p)] = none →
      Completes (.palEnable src p v) s (fun t => t.fget (PAL_CTRL_ENABLE p) = 1 ∧ (t.pp p).sealing = true)) ∧
    (s.takes src (PAL_CTRL p).off (setBit v 4) = true → s.fbit (PAL_CTRL_ENABLE p) = true → v.testBit 0 = true → v / 2 % 4 = 2 →
      s.fget (PAL_MIRROR_CONN_CONN p) ≠ 0xFFFFFFFF →
      Completes (.palReseed src p v) s (fun t =>
        t.fget (PAL_CTRL_ENABLE p) = 1 ∧ t.fget (PAL_SENT_SEQ_SEQ p) = 0 ∧ t.fget (PAL_STATUS_UNMIRRORED p) = 1 ∧ (t.pp p).next = 0))

/-- HBM_MAPOUT (R278), TX_RING_DOORBELL (R309), FILTER_WORD0_WRITE (R293) and RX_QUEUE_ENABLE (R294) complete. -/
def Obligations.MemoryAndPortRegisterRowsComplete : Prop :=
  ∀ (s : State) (src : Src) (v j : Nat), j < 16 → v < 2 ^ 32 →
    (s.takes src HBM_MAPOUT.off (setBit v 31) = true → s.stackThere (v % 256 / 32) = true →
      (s.chan (v % 256)).state = 0 → (s.chan (v % 256)).owner < 24 →
      Completes (.hbmMapout src v) s (fun t => (t.chan (v % 256)).state = 3 ∧ (t.chan (v % 256)).owner = (s.chan (v % 256)).owner)) ∧
    (s.takes src HBM_MAPOUT.off (setBit v 31) = true → s.stackThere (v % 256 / 32) = true →
      (s.chan (v % 256)).state = 0 → 24 ≤ (s.chan (v % 256)).owner →
      Completes (.hbmMapout src v) s (fun t => (t.chan (v % 256)).state = 1 ∧ t.led.mapped = sins s.led.mapped (v % 256))) ∧
    (∀ k < 4, s.takes src (ETH_TX_PTR j k).off v = true →
      Completes (.txRingDoorbell src j k v) s (fun t =>
        t.fget (ETH_TX_PTR_TAIL j k) = v % 2 ^ 16 ∧ t.fget (ETH_TX_PTR_HEAD j k) = s.fget (ETH_TX_PTR_HEAD j k))) ∧
    (∀ e < 64, s.takes src (ETH_FILTER j e).off v = true →
      Completes (.filterWord0Write src j e v) s (fun t =>
        t.fget (ETH_FILTER_VALID j e) = v / 2 ^ 31 % 2 ∧ t.fget (ETH_FILTER_ACTION j e) = v / 2 ^ 26 % 2 ∧
          t.fget (ETH_FILTER_SUBPORTS j e) = v / 2 ^ 20 % 16 ∧ t.fget (ETH_FILTER_QUEUE j e) = v / 2 ^ 8 % 32 ∧
          mget [] t.eth.held (64 * j + e) = [])) ∧
    (∀ q < 32, s.takes src (ETH_Q_CFG j q).off (setBit v 31) = true → s.fbit (ETH_Q_CFG_ENABLE j q) = false →
      Completes (.rxQueueEnable src j q v) s (fun t =>
        t.fget (ETH_Q_CFG_ENABLE j q) = 1 ∧ t.fget (ETH_Q_CFG_SIZE_LOG2 j q) = v % 16 ∧ mget 0 t.eth.seq (32 * j + q) = 0))

/-- ZTX_OPEN (R317, R318), ZTX_CLOSE, ZTX_RELEASE, ZTX_REBIND and ZTX_QUERY complete (R319, R331, R332). The states that CLOSE and REBIND take, and code 1 in
the others, are the model's choice (log entry 99, DEDUCED). -/
def Obligations.ConnectionOperationRowsComplete : Prop :=
  ∀ (s : State) (src : Src) (p : Nat), p < 16 → s.zOn = true → s.fbit (ZTX_P_OP_STATUS_BUSY p) = false →
    (∀ d, s.takes src (ZTX_P_OP p).off 0x10000000 = true →
      s.memGet p (s.fget (ZTX_P_OPEN_DESC_BASE p) * 128) 128 = some d → s.descOk p d = false →
      Completes (.ztxOpen src p) s (fun t => t.fget (ZTX_P_OP_STATUS_CODE p) = 4 ∧ t.fget (ZTX_P_OP_STATUS_BUSY p) = 0)) ∧
    (∀ d, s.takes src (ZTX_P_OP p).off 0x10000000 = true →
      s.memGet p (s.fget (ZTX_P_OPEN_DESC_BASE p) * 128) 128 = some d → s.descOk p d = true →
      (s.connsOf p).length < ((s.sect p).map (·.host)).getD 0 → (leAt d 3 1).testBit 2 = false → s.peersFull p (leAt d 0x10 8) = false →
      leAt d 0 1 = 1 →
      Completes (.ztxOpen src p) s (fun t =>
        (s.zSlot p = none → t.fget (ZTX_P_OP_STATUS_BUSY p) = 1) ∧
        (∀ s', s.zSlot p = some s' → t.fget (ZTX_P_OP_STATUS_CODE p) = 0 ∧
          (mfind t.zt.ctx (lowestFree (mkeys s'.zt.ctx) 0)).isSome = true))) ∧
    (∀ i c, s.takes src (ZTX_P_OP p).off 0x20000000 = true → s.partConn p (s.fget (ZTX_P_OP_ARG_CONN p)) = some (i, c) →
      Completes (.ztxClose src p) s (fun t =>
        t.fget (ZTX_P_OP_STATUS_CODE p) = (if c.state = 3 ∨ c.state = 4 then 0 else 1) ∧ t.fget (ZTX_P_OP_STATUS_BUSY p) = 0)) ∧
    (s.takes src (ZTX_P_OP p).off 0x20000000 = true → s.partConn p (s.fget (ZTX_P_OP_ARG_CONN p)) = none →
      Completes (.ztxClose src p) s (fun t => t.fget (ZTX_P_OP_STATUS_CODE p) = 1 ∧ t.fget (ZTX_P_OP_STATUS_BUSY p) = 0 ∧ t.zt = s.zt)) ∧
    (∀ i c, s.takes src (ZTX_P_OP p).off 0x30000000 = true → s.partConn p (s.fget (ZTX_P_OP_ARG_CONN p)) = some (i, c) →
      c.state = 5 → c.reqs = [] → s.zt.opens = [] →
      Completes (.ztxRelease src p) s (fun t =>
        mfind t.zt.ctx i = none ∧ mget 0 t.zt.gens i = (mget 0 s.zt.gens i + 1) % 4096 ∧ t.fget (ZTX_P_OP_STATUS_CODE p) = 0)) ∧
    (s.takes src (ZTX_P_OP p).off 0x40000000 = true →
      Completes (.ztxRebind src p) s (fun t => t.fget (ZTX_P_OP_STATUS_CODE p) =
        (if (s.zRebind p (s.fget (ZTX_P_OP_ARG_CONN p)) (s.fget (ZTX_P_OP_ARG_NEW_CONN p))).isSome then 0 else 1))) ∧
    (∀ i c, s.takes src (ZTX_P_OP p).off 0x50000000 = true → s.partConn p (s.fget (ZTX_P_OP_ARG_CONN p)) = some (i, c) →
      Completes (.ztxQuery src p) s (fun t =>
        t.fget (ZTX_P_OP_RESULT_VALUE p) = (c.state * 2 ^ 29 + b2n c.resident * 2 ^ 28 + b2n c.pinned * 2 ^ 27) % 2 ^ 32 ∧
          t.fget (ZTX_P_OP_RESULT_PENDING p) = min 0xFFFF c.reqs.length ∧ t.fget (ZTX_P_OP_STATUS_CODE p) = 0 ∧ t.zt = s.zt))

/-- CR_DOORBELL (R348), CR_RESUME (R351), BIND_WRITE (R339) and ATTACH (R360) complete. -/
def Obligations.HostRegisterRowsComplete : Prop :=
  ∀ (s : State) (src : Src) (p r v : Nat), p < 16 → r < 8 → v < 2 ^ 32 →
    (s.takes src (HIF_P_CR_DB p r).off v = true → ahead 16 (v % 2 ^ 16) (s.fget (HIF_P_CR_HEAD_HEAD p r)) ≤ 2 ^ s.crSize p r →
      Completes (.crDoorbell src p r v) s (fun t =>
        t.fget (HIF_P_CR_DB_TAIL p r) = v % 2 ^ 16 ∧ t.fget (HIF_P_CR_HEAD_HEAD p r) = s.fget (HIF_P_CR_HEAD_HEAD p r) ∧
          t.fget (HIF_P_CR_CFG_HALTED p r) = s.fget (HIF_P_CR_CFG_HALTED p r))) ∧
    (s.takes src (HIF_P_CR_DB p r).off v = true → 2 ^ s.crSize p r < ahead 16 (v % 2 ^ 16) (s.fget (HIF_P_CR_HEAD_HEAD p r)) →
      Completes (.crDoorbell src p r v) s (fun t =>
        t.fget (HIF_P_CR_DB_TAIL p r) = v % 2 ^ 16 ∧ t.fget (HIF_P_CR_HEAD_HEAD p r) = s.fget (HIF_P_CR_HEAD_HEAD p r) ∧
          t.fget (HIF_P_CR_CFG_HALTED p r) = 1 ∧ t.fget (HIF_P_FAULT_VALID p) = 1 ∧
          (s.fget (HIF_P_FAULT_VALID p) = 0 → t.fget (HIF_P_FAULT_CODE p) = 3 ∧ t.fget (HIF_P_FAULT_RING p) = r))) ∧
    (s.takes src (HIF_P_CR_CFG p r).off (setBit v 30) = true → s.fbit (HIF_P_CR_CFG_HALTED p r) = true →
      s.fbit (HIF_P_CR_CFG_ENABLE p r) = true → v.testBit 31 = true →
      Completes (.crResume src p r v) s (fun t =>
        t.fget (HIF_P_CR_CFG_HALTED p r) = 0 ∧ t.fget (HIF_P_CR_CFG_ENABLE p r) = 1 ∧
          t.fget (HIF_P_CR_HEAD_HEAD p r) = s.fget (HIF_P_CR_HEAD_HEAD p r))) ∧
    (∀ dirty, s.takes src HIF_BIND.off v = true → (∀ q < 16, (s.hp q).attached = false) → s.hif.bias = [] →
      Completes (.bindWrite src v dirty) s (fun t =>
        t.fget HIF_BIND_FN_EN = v / 2 ^ 16 ∧ t.fget HIF_BIND_F0_PARTITION = v % 32)) ∧
    (∀ rate, s.takes src (HIF_P_CTRL p).off (setBit v 31) = true → v.testBit 30 = true → (s.hp p).attached = true → s.hostLost p = true →
      s.linkReady p = true → (s.hp p).unread = [] → (s.sp p).tasks = [] → (s.sp p).counted = [] → s.zt.ctx = [] → s.zt.opens = [] →
      s.evt.irqHeld = [] →
      Completes (.attach src p v 0 rate) s (fun t => t.fget (HIF_P_STATUS_HOST_LOST p) = 0 ∧ (t.hp p).attached = true))

/-- CLOCK_ENABLE_WRITE (R373), CLK_DIV_WRITE and DIVIDER_RELOCK_COMPLETE (R369), ARITH_LIMIT_WRITE (R372), PWR_CAP_WRITE (R381), FURL and
PWR_WAKE (R400, R402), ADMIN_DISABLE_WRITE (R442) and LDG_SNAP (R443) complete. -/
def Obligations.ClockAndPowerRegisterRowsComplete : Prop :=
  ∀ (s : State) (src : Src) (v : Nat), v < 2 ^ 32 →
    (∀ n < 2, s.takes src (CLK_EN n).off (2 ^ 32 - 1) = true →
      Completes (.clockEnableWrite src n (2 ^ 32 - 1)) s (fun t => ∀ j < 32, s.gateThere (32 * n + j) = true → t.gateOn (32 * n + j) = true)) ∧
    (∀ n u, s.takes (.sess n) CLK_DIV.off v = true → mfind s.sec.sess n = some u → s.sessRole u = 2 → s.fget (CLK_EN_EN 0) / 8 = 0 → s.fget (CLK_EN_EN 1) = 0 →
      (∀ i < 5, s.fget (CLK_TILE_EN_EN i) = 0) →
      Completes (.clkDivWrite (.sess n) v) s (fun t =>
        t.fget CLK_DIV_FABRIC = v % 256 ∧ t.fget CLK_DIV_MEM = v / 2 ^ 8 % 256 ∧ t.fget CLK_DIV_PERIPH = v / 2 ^ 16 % 256 ∧
          t.fget CLK_DIV_MGMT = s.fget CLK_DIV_MGMT ∧ t.clk.divBusy = true)) ∧
    (s.clk.divBusy = true → s.clk.waiting = [] →
      Completes .dividerRelockComplete s (fun t => t.clk.divBusy = false ∧ t.fields = s.fields)) ∧
    (s.takes src CLK_ARITH_LIMIT.off v = true →
      Completes (.arithLimitWrite src v) s (fun t =>
        t.fget CLK_ARITH_LIMIT_K_MIN = v % 128 ∧ t.fget CLK_ARITH_LIMIT_K_MAX = v / 2 ^ 16 % 128)) ∧
    (s.takes src PWR_CAP.off v = true → Completes (.pwrCapWrite src v) s (fun t => t.fget PWR_CAP_SUSTAINED_W = v % 2 ^ 16)) ∧
    (s.takes src PWR_FURL.off (setBit v 31) = true → v.testBit 30 = false → s.fget PWR_FURL_STATE = 0 → s.fab.image = none → s.fab.job = none →
      Completes (.furl src v) s (fun t => t.fget PWR_FURL_STATE = 1)) ∧
    (s.takes src PWR_FURL.off (setBit v 30) = true → v.testBit 31 = false → s.fget PWR_FURL_STATE = 2 →
      Completes (.pwrWake src v) s (fun t => t.fget PWR_FURL_STATE = 3)) ∧
    (∀ n < 4, s.takes src (EVT_ADMIN_TILE n).off v = true → s.fget (EVT_ADMIN_TILE_DISABLE n) = 0 →
      Completes (.adminDisableWrite src n v) s (fun t => t.fget (EVT_ADMIN_TILE_DISABLE n) = v)) ∧
    (s.takes src LDG_CTRL.off 1 = true →
      Completes (.ldgSnap src true) s (fun t =>
        t.nv.snap.map Snap.seq = some ((s.nv.snap.map Snap.seq).getD 0 + 1) ∧ t.fget LDG_STATUS_LAST_REASON = 5))

/-- CLOCK_DISABLE_EFFECT (R31), PARTITION_DRAIN_END, RELOAD_TIMEOUT and SCRUB_COMPLETE (R47), IMAGE_STORE_COMPLETE (R53), TILE_FAILURE (R471),
TILE_FMAX_MEASURE (R392) and TILE_EXCHANGE_FOR_K (R54) complete. -/
def Obligations.FabricAndTileRowsComplete : Prop :=
  ∀ (s : State),
    (∀ g < 40, s.clk.offs.contains g = true → s.clk.waiting.any (HostOp.earlyAt g) = false →
      Completes (.clockDisableEffect g) s (fun t => (g < 24 → t.mem = s.mem) ∧
        ∀ f r, f.src = .stored r → (gateRange g).1 ≤ f.off → f.off < (gateRange g).2 → f.lo < 128 → t.fget f = r % 2 ^ f.width)) ∧
    (∀ p < 16, s.fget (FAB_PART_STATE_P p) = 2 → s.drained p = true →
      Completes (.partitionDrainEnd p) s (fun t => t.fget (FAB_PART_STATE_P p) = 3 ∧ t.mem = s.mem)) ∧
    (∀ p < 16, s.fget (FAB_PART_STATE_P p) = 2 → Completes (.reloadTimeout p) s (fun t => t.fget (FAB_PART_STATE_P p) = 3)) ∧
    (∀ p < 16, ∀ j, s.fab.job = some j → s.fget (FAB_PART_STATE_P p) = 3 → j.left = [p] →
      Completes (.scrubComplete p) s (fun t => t.fget FAB_STATUS_BUSY = 0)) ∧
    (∀ b v, s.fab.store = some (b, v) →
      Completes (.imageStoreComplete true) s (fun t =>
        t.fget FAB_STATUS_STORED = 1 ∧ t.nv.floor = max s.nv.floor v ∧ t.nv.image = some b ∧ t.fab.store = none) ∧
      Completes (.imageStoreComplete false) s (fun t => t.nv.image = s.nv.image ∧ t.nv.floor = s.nv.floor ∧ t.fab.store = none)) ∧
    (∀ t < 152, s.role t ≠ 3 → s.role t ≠ 5 → Completes (.tileFailure t) s (fun s' => s'.role t = 3)) ∧
    (∀ t < 152, s.role t ≠ 3 → s.role t ≠ 5 → s.tilePart t = none →
      Completes (.tileFailure t) s (fun s' => s'.role t = 3 ∧ s'.led.failed = sins s.led.failed t)) ∧
    (∀ t < 152, ∀ m, s.role t ≠ 5 → (s.tileTask t).isNone = true → mfind s.pwr.measured t = none → s.agedMhz t ≤ m →
      Completes (.tileFmaxMeasure t (some m)) s (fun s' =>
        mget 0 s'.led.meas t = mget 0 s.led.meas t + 1 ∧ mget 0 s'.led.drift t = ofSigned 32 ((m : Int) - (s.fusedMhz t : Int)))) ∧
    (∀ t < 152, ∀ k n p, s.pwr.kWait = some k → s.tilePart t = some p → s.tileK t < k → (s.tileTask t).isNone = true →
      (s.fbit (SCH_SQ_CTRL_ENABLE p) = false ∨ (s.sqp p).rel = []) →
      (s.spares (dieOf t)).find? (fun n => decide (k ≤ s.tileK n)) = some n →
      Completes (.tileExchangeForK t) s (fun s' => s'.tilePart n = some p ∧ s'.role t ≠ 1))

/-- MONITOR_WINDOW_END (R364), MISSING_EDGE (R365), PLL_RELOCK_COMPLETE (R366) and ARITH_K_STEP (R371) complete. -/
def Obligations.ClockRowsComplete : Prop :=
  ∀ (s : State),
    (∀ ref rec_, Completes (.monitorWindowEnd ref rec_) s (fun t => t.fget CLK_MON_STATUS_REF_COUNT = min 0xFFFF ref)) ∧
    Completes (.missingEdge 0) s (fun t => t.fget CLK_MON_STATUS_REF_OK = 0 ∧ t.fget CLK_MON_STATUS_REF_FAIL = 1) ∧
    (s.recAvail = true → Completes (.missingEdge 1) s (fun t => t.fget CLK_MON_STATUS_RECOV_OK = 0 ∧ t.fget CLK_MON_STATUS_RECOV_FAIL = 1)) ∧
    (∀ src rv, s.clk.relock = some (src, rv) → src < 3 →
      Completes .pllRelockComplete s (fun t => t.fget CLK_SRC_ACTIVE = src ∧ t.fget CLK_PLL_STATUS_LOCKED = 1 ∧
        (s.srcPasses src = true → t.fget CLK_SRC_HOLDOVER = 0))) ∧
    (s.clk.divBusy = false → s.asleep = false →
      Completes .arithKStep s (fun t =>
        (s.fget CLK_ARITH_K < s.fget CLK_ARITH_TARGET → t.fget CLK_ARITH_K = s.fget CLK_ARITH_K + 1) ∧
        (s.fget CLK_ARITH_TARGET < s.fget CLK_ARITH_K → t.fget CLK_ARITH_K = s.fget CLK_ARITH_K - 1) ∧
        (s.fget CLK_ARITH_TARGET = s.fget CLK_ARITH_K → t = s)))

/-- CONTROLLER_TICK (R383), MODEL_CORRECTION (R388), THERMAL_READ (R391) and K_PROP_PERIOD (R394, R396) complete. -/
def Obligations.PowerRowsComplete : Prop :=
  ∀ (s : State),
    (∀ x, s.gen.causes = [] → s.gen.vin ≠ 0 → (∀ t < 152, s.tilePhase t = none) →
      Completes (.controllerTick x) s (fun t => t.now = s.now + 1 ∧ t.fget PWR_INPUT_VOLT = min 0xFFFF x.volt ∧
        t.fget PWR_INPUT_POWER_W = min 0xFFFF (s.gained x.energy / 1000) ∧ t.fget PWR_INPUT_CURRENT_CENTIAMP = min 0xFFFF (s.gained x.amp))) ∧
    (∀ t p x b, t < 152 → x < 64 → s.tilePart t = some p → s.tilePhase t = some x → (∀ u < 152, u ≠ t → s.tilePhase u = none) →
      s.memGet p (s.phaseAddr p x) 32 = some b →
      Completes .modelCorrection s (fun s' => ∃ pb pi, s' = s.memPut p powerSrc (s.phaseAddr p x)
        (leBytes 4 pb ++ leBytes 4 pi ++ leBytes 4 (satAdd 32 (leAt b 8 4) 1) ++ bytesAt b 0xC 20) .inPlace)) ∧
    (∀ raw,
      let hot := ((List.range 10).map (fun g => s.trimmed g (raw.getD g 0))).foldl max 0
      let thr := s.throttleC
      let cap := s.fget PWR_THERM_THERM_CAP_W
      let new := if thr ≤ hot then cap - 25 else if hot + 3 ≤ thr then min 1900 (cap + 25) else cap
      Completes (.thermalRead raw) s (fun t => t.fget PWR_THERM_HOTTEST_C = min 255 hot ∧ t.fget PWR_THERM_THERM_CAP_W = new ∧
        (t.fget PWR_STATUS_THROTTLING = 1 ↔ new < 1900))) ∧
    (∀ p < 16, s.asleep = false → s.partTiles p ≠ [] → s.fbit (SCH_SQ_CTRL_ENABLE p) = false → (∀ q < 16, q ≠ p → s.partTiles q = []) →
      Completes .kPropPeriod s (fun t =>
        t.fget (PWR_P_AGREE_K_PROP p) = (s.kProp p).1 % 2 ^ (PWR_P_AGREE_K_PROP p).width ∧
          t.fget (PWR_P_AGREE_CAPPED p) = b2n (s.kProp p).2.1))

/-- VIN_RISE, VIN_FALL, VIN_OVERVOLTAGE, VIN_OVERVOLTAGE_CLEAR (R450), RAIL_FAULT (R451), THERMAL_TRIP (R455), SYS_RESET_ASSERT and DEVICE_RESET
(R452), BOOT_STAGE_COMPLETE (R461), PREPARE_OFF and READY_OFF (R453), and the SMBus reads (R456) complete. The stage after
VIN_OVERVOLTAGE_CLEAR, the kept host memory, when READY_OFF comes and the floor that a cut FW_COMMIT leaves are the model's choices (log entries
148, 33, 150, 211). -/
def Obligations.ResetAndSupplyRowsComplete : Prop :=
  ∀ (s : State),
    (s.gen.vin = 0 → Completes .vinRise s (fun t => t.gen.vin = 1 ∧ t.gen.rails = true ∧ t.gen.causes.contains 1 = true ∧ t.mem = [])) ∧
    Completes .vinFall s (fun t => t.gen.vin = 0 ∧ t.gen.rails = false ∧ t.mem = [] ∧ t.host = s.host ∧
      { t.nv with fwFloor := s.nv.fwFloor } = s.nv ∧
      (∀ old at_, s.sec.commit = some (old, at_) → at_ = s.now → old ≤ s.nv.fwFloor → old ≤ t.nv.fwFloor ∧ t.nv.fwFloor ≤ s.nv.fwFloor) ∧
      ((∀ old, s.sec.commit ≠ some (old, s.now)) → t.nv = s.nv)) ∧
    (s.gen.vin = 1 → Completes .vinOvervoltage s (fun t =>
      t.gen.vin = 2 ∧ t.gen.rails = false ∧ t.fget GEN_PINS_FAULT_N = 0 ∧ t.fget GEN_PINS_PWR_GOOD = 0)) ∧
    (s.gen.vin = 2 → s.gen.causes.contains 4 = false → s.gen.causes.contains 5 = false →
      Completes .vinOvervoltageClear s (fun t => t.gen.vin = 1 ∧ t.gen.rails = true ∧ t.fget GEN_BOOT_STAGE = 1)) ∧
    (∀ i < 24, s.gen.rails = true → s.pointChecked i = true →
      Completes (.railFault i) s (fun t => t.gen.rails = false ∧ t.gen.causes.contains 4 = true ∧ t.fget GEN_PINS_FAULT_N = 0 ∧
        t.nv.railFault = true)) ∧
    (s.gen.vin ≠ 0 → tripHeld s.gen.causes = false → Completes .thermalTrip s (fun t => t.gen.rails = false ∧ t.gen.causes.contains 5 = true ∧
      t.fget GEN_PINS_THERMTRIP_N = 0 ∧ t.nv.trip = true)) ∧
    (s.gen.vin ≠ 0 → s.gen.causes.getLast? ≠ some 2 →
      Completes .sysResetAssert s (fun t => t.gen.sysReset = false ∧ t.gen.causes.contains 2 = true ∧ t.mem = [] ∧ t.nv = s.nv)) ∧
    (s.released = true → Completes .deviceReset s (fun t => t.fields = [] ∧ t.mem = [] ∧ t.host = s.host ∧ t.gen.causes = [] ∧
      t.nv.boots = (s.nv.boots + 1) % 2 ^ 32 ∧ t.gen.cause = s.gen.causes.foldl min 0xF)) ∧
    (∀ bad meas n, s.powered = true → s.fget GEN_BOOT_READY = 0 → s.fget SEC_STATUS_RECOVERY = 0 → s.fget GEN_BOOT_STAGE = n → n < 8 →
      let ok := s.nv.fw.good && decide (s.nv.fw.key < 2) && !(s.nv.fw.key == 0 && s.nv.key0Revoked) && decide (s.nv.fwFloor ≤ s.nv.fw.svn)
      Completes (.bootStageComplete bad meas) s (fun t =>
        ((n ≠ 3 ∨ ok = true) → t.fget GEN_BOOT_STAGE = n + 1) ∧ (n = 3 → ok = false → t.fget SEC_STATUS_RECOVERY = 1) ∧
          (n = 7 → t.fget GEN_BOOT_READY = 1))) ∧
    (s.gen.vin ≠ 0 → s.gen.prepare = false → Completes .prepareOff s (fun t => t.gen.prepare = true ∧ t.gen.snaps.getLast? = some 2)) ∧
    (s.gen.prepare = true → s.gen.readyOff = false → s.gen.resetAfter = false → s.gen.flashBad = false →
      Completes .readyOff s (fun t => t.gen.readyOff = true ∧ t.nv.orderly = true ∧ t.sec.held = [] ∧ t.nv.snap.isSome = true)) ∧
    (s.gen.vin ≠ 0 →
      Completes .smbStatus s (fun t => t.gen.alert = false ∧ t.out.length = s.out.length + 1 ∧ t.fields = s.fields) ∧
      Completes .smbInput s (fun t => t.out = .smb (leBytes 2 (s.fget PWR_INPUT_VOLT) ++ leBytes 2 (s.fget PWR_INPUT_CURRENT_CENTIAMP) ++
        leBytes 2 (s.fget PWR_INPUT_POWER_W) ++ leBytes 2 0) :: s.out) ∧
      Completes .smbTemp s (fun t => t.out = .smb (leBytes 1 s.pwr.hotDie ++ leBytes 1 s.pwr.hotStack ++
        leBytes 1 (s.fget PWR_THERM_THROTTLE_C) ++ leBytes 1 0) :: s.out) ∧
      Completes .smbEnergy s (fun t => t.out = .smb (leBytes 8 (s.fget PWR_ENERGY_TOTAL_UJ / 1000000)) :: s.out) ∧
      Completes .smbIdentity s (fun t => t.out = .smb (leBytes 4 (s.regVal GEN_DEVID) ++ leBytes 4 (s.regVal GEN_REVISION) ++
        leBytes 8 (s.fget SEC_DEVICE_ID_ID)) :: s.out))

/-- D2D_BLOCK_RETRY, D2D_RETRY_EXHAUSTED (R20), ENTROPY_FAILURE (R408), CONTROL_STORE_PARITY_ERROR (R440), EVENT_DELIVERY (R433, R439),
LEDGER_SNAPSHOT and LEDGER_WRITE_RETRY (R443) complete. -/
def Obligations.EventAndLedgerRowsComplete : Prop :=
  ∀ (s : State),
    Completes .d2dBlockRetry s (fun t => t = s) ∧
    (s.fatal = false →
      Completes .d2dRetryExhausted s (fun t =>
        t.fget EVT_FATAL_VALID = 1 ∧ t.fget EVT_FATAL_CAUSE = 1 ∧ t.fget GEN_PINS_FAULT_N = 0) ∧
      Completes .entropyFailure s (fun t =>
        t.fget EVT_FATAL_VALID = 1 ∧ t.fget EVT_FATAL_CAUSE = 2 ∧ t.fget GEN_PINS_FAULT_N = 0 ∧ t.fget SEC_STATUS_RNG_FAULT = 1) ∧
      Completes .controlStoreParityError s (fun t =>
        t.fget EVT_FATAL_VALID = 1 ∧ t.fget EVT_FATAL_CAUSE = 3 ∧ t.fget GEN_PINS_FAULT_N = 0)) ∧
    (∀ e, s.evt.pend = [e] → e.parts = [] → e.nmi = false →
      Completes .eventDelivery s (fun t => t.evt.pend = [] ∧ (2 ≤ e.sev → s.gen.flashBad = false → t.nv.faultSeq = s.nv.faultSeq + 1) ∧
        (2 ≤ e.sev → s.gen.flashBad = true → t.nv.faults = s.nv.faults ∧ t.gen.recs.length = s.gen.recs.length + 1 ∧ t.fget LDG_STATUS_WRITE_FAULT = 1))) ∧
    (∀ e p d, s.evt.pend = [e] → e.parts = [(p, d)] → e.nmi = false → e.pennant = false → e.typ ≠ 0x30 → s.fbit (EVT_P_CFG_ENABLE p) = true →
      s.fget (EVT_P_CFG_MIN_SEV p) ≤ e.sev → s.evtSlots p ≤ ahead 16 (s.fget (EVT_P_PTR_HEAD p)) (s.fget (EVT_P_PTR_TAIL p)) →
      Completes .eventDelivery s (fun t => t.fget (EVT_P_STATUS_RING_FULL p) = 1 ∧ t.mem = s.mem)) ∧
    (∀ r l, s.gen.snaps = r :: l →
      Completes (.ledgerSnapshot true) s (fun t => t.gen.snaps = l ∧ t.fget LDG_STATUS_LAST_REASON = r % 8 ∧
        t.nv.snap.map Snap.seq = some ((s.nv.snap.map Snap.seq).getD 0 + 1)) ∧
      Completes (.ledgerWriteRetry true) s (fun t => t.gen.snaps = l ∧ t.fget LDG_STATUS_LAST_REASON = r % 8) ∧
      Completes (.ledgerWriteRetry false) s (fun t => t.gen.snaps = l ++ [r] ∧ t.fget LDG_STATUS_WRITE_FAULT = 1 ∧ t.nv.snap = s.nv.snap))

/-- READ_REG, WRITE_REG, SUBSCRIBE, GET_CERT, ATTEST, LOG_READ, LEDGER_READ, LLDP_READ and WAKE complete (R416, R417, R423, R427, R446, R402). The answer for an absent
sub-port and LOG_READ's held records are the model's choices (log entries 2 and 142). -/
def Obligations.SessionReadRowsComplete : Prop :=
  ∀ (s : State) (x : Jex) (u : Sess),
    (∀ off r, s.performs x u 1 1 false = true → s.ready (.sess x.sess) off = true → regAt off = some r → r.bytes = 4 → off = r.off →
      Completes (.readReg x off 4) s (fun t => t.out = .jex x.sess 1 0 x.tag (leBytes 4 (s.readVal r % 2 ^ 32)) :: s.out ∧ t.fields = s.fields)) ∧
    (∀ v < 2 ^ 32, s.performs x u 2 2 false = true → s.ready (.sess x.sess) EVT_MGMT_CFG.off = true →
      Completes (.writeReg x EVT_MGMT_CFG.off 4 v) s (fun t => t.fget EVT_MGMT_CFG_MIN_SEV = v % 8)) ∧
    (s.performs x u 3 1 false = true →
      Completes (.subscribe x) s (fun t => mfind t.sec.sess x.sess = some { u with subscribed := true } ∧
        t.out = .jex x.sess 3 0 x.tag [] :: s.out)) ∧
    (s.performs x u 4 1 false = true → Completes (.getCert x) s (fun t => t.out = .jex x.sess 4 0 x.tag s.nv.cert :: s.out)) ∧
    (∀ nonce f, s.performs x u 5 1 false = true → s.sec.run = some f →
      Completes (.attest x nonce) s (fun t =>
        t.out = .jex x.sess 5 0 x.tag (let q := s.quote nonce (bytesAt f.measure 0 32)
          q ++ edSign s.fuse.idKey [0x45, 0x54, 0x39, 0x2D, 0x51, 0x55, 0x4F, 0x54, 0x45] (shake256 q 64)) :: s.out)) ∧
    (∀ n, s.performs x u 6 1 false = true →
      Completes (.logRead x n) s (fun t =>
        t.out = .jex x.sess 6 0 x.tag (((s.logAll.filter (fun r => decide (n ≤ leAt r 0 8))).take 16388).flatMap id) :: s.out)) ∧
    (s.performs x u 7 1 false = true →
      Completes (.ledgerRead x none) s (fun t =>
        t.out = .jex x.sess 7 0 x.tag (match s.nv.snap with | some n => s.snapBytes n | none => []) :: s.out) ∧
      ∀ q, Completes (.ledgerRead x (some q)) s (fun t =>
        t.out = .jex x.sess 7 0 x.tag (((s.nv.faults.reverse.filter (fun r => decide (q ≤ leAt r 0 8))).take 16388).flatMap id) :: s.out)) ∧
    (∀ j k, subOk j k = true → s.performs x u 8 1 false = true →
      Completes (.lldpRead x j k) s (fun t => t.out = .jex x.sess 8 0 x.tag (mget [] s.eth.lldp (subNo j k)) :: s.out)) ∧
    (∀ j k, subOk j k = false → s.performs x u 8 1 false = true →
      Completes (.lldpRead x j k) s (fun t => .jex x.sess 8 1 x.tag [] ∈ t.out ∧ (mfind t.sec.sess x.sess).map (fun v => v.closing) = some true)) ∧
    (s.performs x u 9 1 false = true → s.fget PWR_FURL_STATE = 2 → Completes (.wake x) s (fun t => t.fget PWR_FURL_STATE = 3))

/-- IMAGE_LOAD, FW_BEGIN, FW_CHUNK, FW_END, FW_COMMIT, KEYSLOT_ENROLL, KEYSLOT_REVOKE, CRED_ADD, CRED_REMOVE, NET_CONFIG, TRIM_WRITE, ROOT_DISABLE
and RESET complete (R43, R47, R410 to R414, R418, R421, R407, R459, R426). The zeros of the staging buffer are the model's choice (log entry 139).
A body is at most what a frame holds (R420). -/
def Obligations.SessionWriteRowsComplete : Prop :=
  ∀ (s : State) (x : Jex) (u : Sess),
    (∀ b sig p, s.performs x u 0x10 2 true = true → (b ++ sig).length < jexMax → s.fget PWR_FURL_STATE = 0 → p < 16 → (s.sect p).isSome = true →
      (s.logPut true (s.recRole u) (recCred u) 0x10 0xFFFF (bytesAt (b ++ sig) 0x10 12)).imgCheck true (b ++ sig) = none →
      Completes (.imageLoad x true b sig) s (fun t => t.fget (FAB_PART_STATE_P p) = 2 ∧ t.fget FAB_STATUS_BUSY = 1 ∧
        t.out = .jex x.sess 0x10 0 x.tag [] :: s.out)) ∧
    (∀ full b sig code sec, s.performs x u 0x10 2 true = true → (b ++ sig).length < jexMax → s.fget PWR_FURL_STATE = 0 →
      (s.logPut true (s.recRole u) (recCred u) 0x10 0xFFFF (bytesAt (b ++ sig) 0x10 12)).imgCheck full (b ++ sig) = some (code, sec) → code ≠ 0 →
      Completes (.imageLoad x full b sig) s (fun t => t.fget FAB_STATUS_REJECTED = 1 ∧ t.fget FAB_REJECT_CODE = code % 256 ∧ t.fab = s.fab ∧
        t.mem = s.mem ∧ t.out = .jex x.sess 0x10 5 x.tag (leBytes 1 code) :: s.out)) ∧
    (∀ n, s.performs x u 0x11 2 true = true → Completes (.fwBegin x n) s (fun t => t.sec.fw = some (x.sess, List.replicate n 0))) ∧
    (∀ n b o d, s.performs x u 0x12 2 true = true → d.length ≤ jexMax → s.sec.fw = some (n, b) → o + d.length ≤ b.length →
      Completes (.fwChunk x o d) s (fun t => t.sec.fw = some (n, patch b o d))) ∧
    (∀ n b, s.performs x u 0x13 2 true = true → s.sec.fw = some (n, b) → fwHeader b = true → s.fwSigned b = true →
      (leAt b 9 1 = 0 → s.nv.key0Revoked = false) → s.nv.fwFloor ≤ leAt b 0xA 1 →
      Completes (.fwEnd x true true) s (fun t =>
        t.sec.fw = none ∧ t.nv.fw.svn = leAt b 0xA 1 ∧ t.nv.fw.version = leAt b 0xC 4 ∧ t.nv.fw.key = leAt b 9 1 ∧
          t.fget SEC_STATUS_FW_PENDING = 1)) ∧
    (∀ f, s.performs x u 0x14 2 true = true → s.sec.run = some f →
      Completes (.fwCommit x) s (fun t => t.nv.fwFloor = max s.nv.fwFloor f.svn)) ∧
    (∀ i < 4, ∀ key, s.performs x u 0x15 2 true = true → (mget KSlot.empty s.nv.slots i).state = 0 →
      Completes (.keyslotEnroll x i key) s (fun t => mget KSlot.empty t.nv.slots i = ⟨1, bytesAt key 0 57⟩)) ∧
    (∀ i < 4, s.performs x u 0x16 2 true = true → (mget KSlot.empty s.nv.slots i).state = 1 →
      Completes (.keyslotRevoke x i true) s (fun t => (mget KSlot.empty t.nv.slots i).state = 2) ∧
      ((∀ b, s.nv.image = some b → leAt b 0x1C 1 ≠ i) →
        Completes (.keyslotRevoke x i false) s (fun t => (mget KSlot.empty t.nv.slots i).state = 2)) ∧
      (∀ b, s.nv.image = some b → leAt b 0x1C 1 = i →
        Completes (.keyslotRevoke x i false) s (fun t => t.nv.slots = s.nv.slots ∧ t.out = .jex x.sess 0x16 5 x.tag [] :: s.out))) ∧
    (∀ i key role name, s.performs x u 0x17 2 true = true → (role = 1 ∨ role = 2) →
      s.nv.creds.any (fun e => e.2.key == bytesAt key 0 57) = false → s.nv.creds.length < 32 →
      (List.range 32).find? (fun i => !mhas s.nv.creds i) = some i →
      Completes (.credAdd x key role name) s (fun t => mfind t.nv.creds i = some ⟨bytesAt key 0 57, role, bytesAt name 0 16⟩)) ∧
    (∀ i c, s.performs x u 0x18 2 true = true → mfind s.nv.creds i = some c → c.role ≠ 2 →
      Completes (.credRemove x i) s (fun t => mfind t.nv.creds i = none)) ∧
    (∀ b, s.performs x u 0x19 2 false = true → b.length ≤ jexMax → Completes (.netConfig x b) s (fun t => t.nv.net = some b)) ∧
    (∀ b, s.performs x u 0x1A 2 true = true → trimOk b = true →
      let q := patch b 6 (leBytes 2 (((s.nv.trim.map (fun t => leAt t 6 2)).getD 0 + 1) % 2 ^ 16))
      Completes (.trimWrite x b) s (fun t => t.nv.trim = some (patch q 0x1F0 (shake256 (bytesAt q 0 0x1F0) 16)))) ∧
    (∀ i < 8, s.performs x u 0x1B 2 true = true → (mkeys s.zt.ctx).Nodup → (∀ e ∈ s.zt.ctx, e.2.root = i → e.2.reqs = []) →
      Completes (.rootDisable x i) s (fun t => t.nv.rootEn = clearBit s.nv.rootEn i ∧
        ∀ k c, mfind s.zt.ctx k = some c →
          (c.root = i → c.state = 3 ∨ c.state = 4 → (mfind t.zt.ctx k).map (fun d => d.state) = some 5) ∧ (c.root ≠ i → mfind t.zt.ctx k = some c))) ∧
    (s.performs x u 0x1C 2 false = true → s.gen.prepare = false → s.gen.readyOff = false →
      Completes (.reset x) s (fun t => t.gen.prepare = true ∧ t.gen.resetAfter = true ∧ t.gen.snaps = s.gen.snaps ++ [2]))

/-- MAKER_CHALLENGE, MAKER_UNLOCK, MAKER_FN, CHALLENGE_EXPIRY, MAKER_GRANT_EXPIRY (R425), ENROLL_FIRST (R424), TLS_HANDSHAKE and
HANDSHAKE_LOCKOUT_EXPIRY (R419), SESSION_IDLE_TIMEOUT, TLS_SESSION_CLOSE and FW_BEGIN_TIMEOUT (R420, R426), LOG_RECORD_CLOSE and
OPERATOR_LOG_FLUSH (R427, R428), and WAKE_COMPLETE (R402) complete. What a returned channel is and that a handshake may take the number of a
closing session are the model's choices (log entries 91 and 137). -/
def Obligations.MakerAndSessionRowsComplete : Prop :=
  ∀ (s : State) (x : Jex) (u : Sess),
    (∀ mask, s.performs x u 0x20 2 false = true → s.fget SEC_STATUS_RNG_FAULT = 0 →
      Completes (.makerChallenge x mask) s (fun t =>
        t.sec.challenge.map (fun c => (c.1, c.2.1)) = some (mask % 2 ^ 64, x.sess) ∧ t.sec.challenges = s.sec.challenges + 1)) ∧
    (∀ mask c sig, s.performs x u 0x21 2 false = true → s.sec.challenge = some (mask, x.sess, c) →
      edVerify s.fuse.makerKey [0x45, 0x54, 0x39, 0x2D, 0x4D, 0x41, 0x4B, 0x45, 0x52] (shake256 c 64) sig = true →
      Completes (.makerUnlock x sig) s (fun t => t.sec.challenge = none ∧ mfind t.sec.sess x.sess = some { u with maker := mask })) ∧
    (∀ f a, s.performs x u 0x22 3 true = true → u.maker.testBit f = true →
      (f = 0 → a < 152 → s.led.failed.contains a = true → Completes (.makerFn x f a) s (fun t => t.led.failed = sdel s.led.failed a)) ∧
      (f = 1 → s.led.mapped.contains a = true →
        Completes (.makerFn x f a) s (fun t => t.led.mapped = sdel s.led.mapped a ∧ t.chan a = Chan.init ∧
          ∀ i, i / 2 ^ 31 = a → t.memByte i = 0)) ∧
      (f = 2 → a < 4 → (mget KSlot.empty s.nv.slots a).state = 2 →
        Completes (.makerFn x f a) s (fun t => mget KSlot.empty t.nv.slots a = KSlot.empty)) ∧
      (f = 3 → a < 8 → Completes (.makerFn x f a) s (fun t => t.nv.rootEn = setBit s.nv.rootEn a)) ∧
      (f = 4 → Completes (.makerFn x f a) s (fun t => t.nv.creds = [])) ∧
      (f = 5 → Completes (.makerFn x f a) s (fun t => t.led.ce = [] ∧ t.led.ue = [] ∧ t.led.failed = s.led.failed ∧ t.led.mapped = s.led.mapped))) ∧
    Completes .challengeExpiry s (fun t => t.sec.challenge = none ∧ t.sec.sess = s.sec.sess) ∧
    (∀ n < 8, Completes (.makerGrantExpiry n) s (fun t => mfind t.sec.sess n = (mfind s.sec.sess n).map (fun v => { v with maker := 0 }))) ∧
    (∀ code, s.performs x u 0x30 0 false = true → s.nv.creds = [] → s.fget SEC_STATUS_SETUP_LOCKED = 0 →
      shake256 (setupCode code) 32 = s.fuse.setup →
      Completes (.enrollFirst x code) s (fun t => ∃ name, t.nv.creds = [(0, ⟨u.key, 2, name⟩)])) ∧
    (∀ code, s.performs x u 0x30 0 false = true → s.nv.creds = [] → s.fget SEC_STATUS_SETUP_LOCKED = 0 →
      shake256 (setupCode code) 32 ≠ s.fuse.setup →
      Completes (.enrollFirst x code) s (fun t => t.nv.creds = [] ∧ t.sec.wrong = s.sec.wrong + 1 ∧ t.out = .jex x.sess 0x30 2 x.tag [] :: s.out)) ∧
    (∀ addr key n, s.jexServed = true → s.sec.refused.contains addr = false → s.fget SEC_STATUS_RNG_FAULT = 0 →
      (List.range 8).find? (fun n => match mfind s.sec.sess n with | some v => v.closing | none => true) = some n →
      (s.nv.creds.isEmpty = true ∨ s.nv.creds.any (fun e => e.2.key == bytesAt key 0 57) = true) →
      Completes (.tlsHandshake addr key true) s (fun t => (mfind t.sec.sess n).map (fun v => (v.key, v.closing, v.maker)) =
        some (bytesAt key 0 57, false, 0))) ∧
    (∀ addr key ok, s.jexServed = true → (ok = false ∨ s.sec.refused.contains addr = true) →
      Completes (.tlsHandshake addr key ok) s (fun t => t.nv.logSeq = s.nv.logSeq + 1 ∧
        t.fget SEC_AUTH_FAIL_COUNT = min (2 ^ SEC_AUTH_FAIL_COUNT.width - 1) (s.fget SEC_AUTH_FAIL_COUNT + 1) ∧ t.sec.sess = s.sec.sess)) ∧
    (∀ addr, Completes (.handshakeLockoutExpiry addr) s (fun t => t.sec.refused.contains addr = false)) ∧
    (∀ n < 8, Completes (.sessionIdleTimeout n) s (fun t => mfind t.sec.sess n = none) ∧
      Completes (.tlsSessionClose n) s (fun t => mfind t.sec.sess n = none ∧
        t.out = if mhas s.sec.sess n then .tlsClose n :: s.out else s.out)) ∧
    Completes .fwBeginTimeout s (fun t => t.sec.fw = none) ∧
    (∀ r, s.sec.openRec = some r → Completes .logRecordClose s (fun t => t.sec.openRec = none ∧ t.sec.held = s.sec.held ++ [r.bytes])) ∧
    Completes (.operatorLogFlush true) s (fun t => t.sec.held = [] ∧ t.nv.log = (s.sec.held.reverse ++ s.nv.log).take 262144) ∧
    Completes (.operatorLogFlush false) s (fun t => t.sec.held = s.sec.held ∧ t.fget SEC_STATUS_LOG_FAULT = 1) ∧
    (s.fget PWR_FURL_STATE = 3 → s.clk.waiting = [] → s.fab.waits = [] →
      Completes .wakeComplete s (fun t => t.fget PWR_FURL_STATE = 0 ∧ t.mem = s.mem))

/-- CMD_NOP, CMD_TASK, CMD_TASK_REF, CMD_WRITE, CMD_SIGNAL, CMD_BIAS (R349, R350) and SLOT_REREAD (R351) complete. -/
def Obligations.HostCommandRowsComplete : Prop :=
  ∀ (s : State) (p r : Nat) (h : HostStores),
    (∀ c, s.commands p r 0 h c = true →
      Completes (.cmdNop p r h) s (fun t =>
        t.fget (HIF_P_CR_HEAD_HEAD p r) = (s.fget (HIF_P_CR_HEAD_HEAD p r) + 1 + c.cont) % 2 ^ 16 ∧ t.mem = s.mem)) ∧
    (∀ c, s.commands p r 1 h c = true → s.crTasks p r = true →
      Completes (.cmdTask p r h) s (fun t =>
        t.fget (HIF_P_CR_HEAD_HEAD p r) = (s.fget (HIF_P_CR_HEAD_HEAD p r) + 1 + c.cont) % 2 ^ 16 ∧
        (t.sp p).inq = (s.sp p).inq ++ [(r, 0, 0, c.body)] ∧ t.mem = s.mem)) ∧
    (∀ c d, s.commands p r 2 h c = true → s.crTasks p r = true →
      s.plain p (leAt c.body 0 8 + 128 * (s.crOf p r).item) 128 d = true →
      s.hostClass p (leAt c.body 0 8 + 128 * (s.crOf p r).item) false = 0 →
      Completes (.cmdTaskRef p r h) s (fun t =>
        (t.sp p).inq = (s.sp p).inq ++ [(r, 0, 0, (List.range 128).map (fun i => s.memByte (d + i)))] ∧ t.mem = s.mem ∧
        (if (s.crOf p r).item + 1 = leAt c.body 8 4 then
          t.fget (HIF_P_CR_HEAD_HEAD p r) = (s.fget (HIF_P_CR_HEAD_HEAD p r) + 1 + c.cont) % 2 ^ 16 ∧ (t.crOf p r).item = 0
        else
          t.fget (HIF_P_CR_HEAD_HEAD p r) = s.fget (HIF_P_CR_HEAD_HEAD p r) ∧ (t.crOf p r).item = (s.crOf p r).item + 1))) ∧
    (∀ c d, s.commands p r 3 h c = true → s.plain p (leAt c.body 0 8) (c.body.length - 8) d = true →
      s.hostClass p (leAt c.body 0 8) true = 0 →
      Completes (.cmdWrite p r h) s (fun t =>
        t.fget (HIF_P_CR_HEAD_HEAD p r) = (s.fget (HIF_P_CR_HEAD_HEAD p r) + 1 + c.cont) % 2 ^ 16 ∧
        (∀ i < c.body.length - 8, t.memByte (d + i) = c.body.getD (8 + i) 0) ∧
        (∀ x, x < d ∨ d + (c.body.length - 8) ≤ x → t.memByte x = s.memByte x))) ∧
    (∀ c, s.commands p r 4 h c = true → s.crHeld p r = false →
      Completes (.cmdSignal p r h) s (fun t =>
        t.fget (SCH_SIG_VALUE p (leAt c.body 0 2)) = (s.fget (SCH_SIG_VALUE p (leAt c.body 0 2)) + leAt c.body 4 4) % 2 ^ 32 ∧
        t.fget (HIF_P_CR_HEAD_HEAD p r) = (s.fget (HIF_P_CR_HEAD_HEAD p r) + 1 + c.cont) % 2 ^ 16 ∧ t.mem = s.mem)) ∧
    (∀ c dirty x d, s.commands p r 5 h c = true → s.crHeld p r = false → s.pagesInSpace p (leAt c.body 0 8) 1 = true →
      leAt c.body 8 4 = 1 → leAt c.body 0xC 1 = 1 → leAt c.body 0 8 < pagedBase → s.loc p (leAt c.body 0 8) = .mem p x d → s.bias p x = 0 →
      Completes (.cmdBias p r dirty h) s (fun t =>
        t.bias p x = 1 ∧ t.fget (HIF_P_CR_HEAD_HEAD p r) = (s.fget (HIF_P_CR_HEAD_HEAD p r) + 1 + c.cont) % 2 ^ 16 ∧ t.mem = s.mem)) ∧
    (crOk p r = true → (s.hostStores h).crLive p r = true →
      (∀ t0, (s.hostStores h).crCommand p r = some none → (s.crOf p r).mism = some t0 →
        Completes (.slotReread p r h) s (fun t =>
          t.fget (HIF_P_CR_HEAD_HEAD p r) = s.fget (HIF_P_CR_HEAD_HEAD p r) ∧ t.mem = s.mem ∧
          (t0 + 64 ≤ s.now → t.fget (HIF_P_CR_CFG_HALTED p r) = 1 ∧
            (s.fget (HIF_P_FAULT_VALID p) = 0 → t.fget (HIF_P_FAULT_CODE p) = 1 ∧ t.fget (HIF_P_FAULT_RING p) = r)) ∧
          (s.now < t0 + 64 → t.fields = s.fields))) ∧
      (∀ c, (s.hostStores h).crCommand p r = some (some c) →
        Completes (.slotReread p r h) s (fun t => (t.crOf p r).mism = none ∧ t.fields = s.fields)))

/-- BAR2_IO_READ, BAR2_IO_WRITE (R342), CXL_MEM_READ, CXL_MEM_WRITE (R345), HOST_LOSS (R357), FIRST_ATTACH (R357), CPL_RECORD_WRITE (R352),
CPL_INTERRUPT (R355), HOST_FUNCTIONS_PRESENT (R461) and HDM_DECODER_COMMIT complete. What is beyond the window and when PERST# is
released are the model's choices (log entries 2 and 122), and the masking of a vector is presumed (log entry 204). -/
def Obligations.HostAccessRowsComplete : Prop :=
  ∀ (s : State),
    (s.fget PWR_FURL_STATE = 0 → s.clk.divBusy = false →
      (∀ fn < 17, s.hif.present = true → s.ioPart fn = none → ∀ off n bs,
        (inWindow off n = true → Completes (.bar2IoRead fn off n) s (fun t => t = s.emit (.cpl fn none false))) ∧
        (inWindow off bs.length = true → Completes (.bar2IoWrite fn off bs) s (fun t => t = s.emit (.cpl fn none false)))) ∧
      (∀ fn < 17, ∀ off n bs,
        (inWindow off n = false → Completes (.bar2IoRead fn off n) s (fun t => t = s) ∧ Completes (.cxlMemRead off n) s (fun t => t = s)) ∧
        (inWindow off bs.length = false → Completes (.bar2IoWrite fn off bs) s (fun t => t = s) ∧
          Completes (.cxlMemWrite off bs) s (fun t => t = s))) ∧
      (∀ fn < 17, ∀ p d off n, p < 16 → s.ioPart fn = some p → inWindow off n = true → s.plain p (s.winAddr fn off) n d = true →
        s.hostClass p (s.winAddr fn off) false = 0 →
        Completes (.bar2IoRead fn off n) s (fun t =>
          t.out = .cpl fn (some ((List.range n).map (fun i => s.memByte (d + i)))) false :: s.out ∧ t.mem = s.mem)) ∧
      (∀ fn < 17, ∀ p d off bs, p < 16 → s.ioPart fn = some p → inWindow off bs.length = true → s.plain p (s.winAddr fn off) bs.length d = true →
        s.hostClass p (s.winAddr fn off) true = 0 →
        Completes (.bar2IoWrite fn off bs) s (fun t =>
          t.out = s.out ∧ (∀ i < bs.length, t.memByte (d + i) = bs.getD i 0) ∧
          (∀ x, x < d ∨ d + bs.length ≤ x → t.memByte x = s.memByte x))) ∧
      (∀ p d off n, p < 16 → s.fbit HIF_STATUS_HDM_COMMITTED = true → s.fnPart 0 = some p → inWindow off n = true → s.inLine p (s.winAddr 0 off) n d = true →
        s.bias p (s.winAddr 0 off) = 1 → s.hostClass p (s.winAddr 0 off) false = 0 →
        Completes (.cxlMemRead off n) s (fun t =>
          t.out = .memData ((List.range n).map (fun i => s.memByte (d + i))) false :: s.out ∧ t.mem = s.mem)) ∧
      (∀ p d off bs, p < 16 → s.fbit HIF_STATUS_HDM_COMMITTED = true → s.fnPart 0 = some p → inWindow off bs.length = true →
        s.inLine p (s.winAddr 0 off) bs.length d = true → s.bias p (s.winAddr 0 off) = 1 → s.hostClass p (s.winAddr 0 off) true = 0 →
        Completes (.cxlMemWrite off bs) s (fun t =>
          t.out = s.out ∧ (∀ i < bs.length, t.memByte (d + i) = bs.getD i 0) ∧
          (∀ x, x < d ∨ d + bs.length ≤ x → t.memByte x = s.memByte x)))) ∧
    (∀ fn < 17, Completes (.hostLoss 1 fn) s (fun t =>
      t.fget HIF_STATUS_DL_UP = 0 ∧ t.mem = s.mem ∧
      ∀ p < 16, (s.hp p).attached = true → t.fget (HIF_P_STATUS_HOST_LOST p) = 1 ∧
        (s.hostLost p = false → (t.hp p).losses = (s.hp p).losses + 1 ∧ (t.hp p).cause = 1))) ∧
    (∀ p < 16, (s.hp p).attached = false → s.linkReady p = true → (s.sp p).tasks = [] → (s.sp p).counted = [] → s.connsOf p = [] →
      s.zt.opens = [] → s.evt.irqHeld.contains p = false → ∀ rate,
      Completes (.firstAttach p 0 rate) s (fun t => (t.hp p).attached = true ∧ t.fget (HIF_P_STATUS_HOST_LOST p) = 0 ∧ t.mem = s.mem)) ∧
    (∀ p < 16, ∀ x rest, s.hostLost p = false → (s.hp p).waiting = x :: rest →
      ahead 32 (s.fget (HIF_P_CPL_HEAD_HEAD p)) (s.fget (HIF_P_CPL_TAIL_TAIL p)) < 2 ^ s.cplSize p →
      Completes (.cplRecordWrite p) s (fun t =>
        t.fget (HIF_P_CPL_HEAD_HEAD p) = (s.fget (HIF_P_CPL_HEAD_HEAD p) + 1) % 2 ^ 32 ∧ (t.hp p).waiting = rest ∧
        (t.hp p).unread = (s.hp p).unread ++ [x] ∧ t.mem = s.mem)) ∧
    (∀ p < 16, ∀ f, s.fnOf p = some f → s.hostLost p = false → (s.hp p).lastIrq = none →
      s.fget (HIF_P_CPL_HEAD_HEAD p) ≠ s.fget (HIF_P_CPL_TAIL_TAIL p) →
      s.hif.msixOff.contains f = false →
      Completes (.cplInterrupt p) s (fun t => (t.hp p).lastIrq = some s.now ∧
        (if s.hif.masked.contains (2048 * f + s.fget (HIF_P_CPL_CFG_VECTOR p)) then
          t.out = s.out ∧ t.hif.pba.contains (2048 * f + s.fget (HIF_P_CPL_CFG_VECTOR p)) = true
        else t.out = .msix f (s.fget (HIF_P_CPL_CFG_VECTOR p)) :: s.out))) ∧
    (s.fget GEN_PINS_PWR_GOOD = 1 → Completes .hostFunctionsPresent s (fun t => t.hif.present = true ∧ t.gen.perst = true)) ∧
    (s.hif.present = true → Completes .hdmDecoderCommit s (fun t => t.fget HIF_STATUS_HDM_COMMITTED = 1))

/-- MX_NOP, MX_MMA, MX_DRAIN, MX_LOAD (R67, R68, R72, R75, R76), SHADOW_RECOMPUTE_DONE (R98), WATCH_SUMMARY (R91) and WATCH_IDLE (R104)
complete. -/
def Obligations.MatrixAndWatchRowsComplete : Prop :=
  ∀ (s : State) (t : Nat),
    (s.mxReady t 0 = true →
      Completes (.mxNop t) s (fun s' => s.completed s' t .mx ∧ s'.ink = s.ink ∧ s'.acc = s.acc ∧ s'.blot = s.blot ∧ s'.mem = s.mem)) ∧
    (∀ fa fb, s.mxReady t 1 = true → (s.mxSlot t).drainAfter = false → Fmt.ofCode (s.mxSlot t).fmtA = some fa →
      Fmt.ofCode (s.mxSlot t).fmtB = some fb →
      let d := s.mxSlot t
      let b := if d.zero then 1 - s.bank t else s.bank t
      Completes (.mxMma t) s (fun s' => s.completed s' t .mx ∧ s'.bank t = b ∧ s'.ink = s.ink ∧ s'.mem = s.mem ∧ s'.blot = s.blot ∧
        (∀ i j, i < d.m → j < d.n →
          s'.accGet t b i j = s.mmaElem t d fa fb i j (if d.zero then 0 else s.accGet t b i j)) ∧
        (∀ i j, i < 128 → j < 128 → ¬ (i < d.m ∧ j < d.n) → s'.accGet t b i j = if d.zero then 0 else s.accGet t b i j) ∧
        (∀ i j, i < 128 → j < 128 → s'.accGet t (1 - b) i j = s.accGet t (1 - b) i j))) ∧
    (s.mxReady t 2 = true →
      let d := s.mxSlot t
      let v := d.t3 (s.accGet t (s.bank t) 0 0)
      Completes (.mxDrain t) s (fun s' => s.completed s' t .mx ∧ s'.acc = s.acc ∧ s'.mem = s.mem ∧
        (d.dest = 0 → s'.blot = s.blot) ∧ (d.dest ≠ 0 → s'.ink = s.ink) ∧
        (∀ f, d.m = 1 → d.n = 1 → d.dest = 0 → Fmt.ofCode d.outFmt = some f →
          s'.inkNat t d.outBase (f.bits / 8) = (d.convert f v).1 % 2 ^ f.bits) ∧
        (∀ k, d.m = 1 → d.n = 1 → s.blotRow t d.outBase = some k →
          (d.dest = 1 → mget 0 s'.blot k = rne48 ((acc48 (mget 0 s.blot k)).add v)) ∧ (d.dest = 2 → mget 0 s'.blot k = rne48 v)))) ∧
    (s.mxReady t 3 = true →
      let d := s.mxSlot t
      let f := if d.outFmt = 10 then Fmt.acc48 else .fp32
      Completes (.mxLoad t) s (fun s' => s.completed s' t .mx ∧ s'.bank t = 1 - s.bank t ∧ s'.ink = s.ink ∧ s'.mem = s.mem ∧
        ∀ i j, i < d.m → j < d.n →
          let a := if d.trans then d.outBase + j * d.outStride + i * (f.bits / 8) else d.outBase + i * d.outStride + j * (f.bits / 8)
          d.et5 = false → s'.accGet t (1 - s.bank t) i j = rne48 (decodeNum f (s.inkNat t a (f.bits / 8))))) ∧
    (∀ w, t < 152 → (s.tile t).shadow = some w →
      Completes (.shadowRecomputeDone t) s (fun s' => s.completed s' t .mx ∧ (s'.tile t).shadow = none ∧
        s'.fget (TIL_MX_STATUS_BUSY t) = 0 ∧ s'.ink = s.ink ∧ s'.mem = s.mem)) ∧
    (∀ p m rest d, p < 16 → (s.nwp p).flight = m :: rest → (s.nwp p).dead.contains m.entry = false →
      s.plain p (s.nwAddr p m.entry) 512 d = true →
      let x := if s.fbit (SCH_NW_PCTRL_GN_ENABLE p) then m else { m with sumsq := none }
      Completes (.watchSummary p) s (fun s' => (s'.nwp p).flight = rest ∧ s'.mem = s.mem ∧
        mget NwAcc.init (s'.nwp p).acc m.entry = (mget NwAcc.init (s.nwp p).acc m.entry).add x (s.memByte d).toNat)) ∧
    (∀ p < 16,
      (s.fbit (SCH_NW_PCTRL_ENABLE p) = false → Completes (.watchIdle p) s (fun s' => s'.fget (SCH_NW_PSTATUS_IDLE p) = 1)) ∧
      (s.fbit (SCH_NW_PCTRL_ENABLE p) = true → Completes (.watchIdle p) s (fun s' => s' = s)))

/-- NIB_NOP, NIB_MAP (R118), NIB_REDUCE (R122), NIB_SOFTMAX (R123), NIB_COMPRESS (R125), NIB_EXPAND (R126), NIB_MXPACK (R127), NIB_MXUNPACK
(R128), NIB_ET5 (R129), NIB_WAIT, NIB_WAIT_MET and NIB_POST (R106) complete. -/
def Obligations.NibRowsComplete : Prop :=
  ∀ (s : State) (t : Nat),
    let x := s.nbSlot t
    let ok := fun (s' : State) => s.completed s' t .nb ∧ s'.mem = s.mem
    let val := fun (i : Strm) => nibIn i.format (s.inkElem t i)
    let out := fun (o : Strm) (v : Machine.Num) (s' : State) => s'.inkElem t o = (nibConv o.format x.d.sat x.d.rtz v).1 % 2 ^ o.bits
    (s.nbReady t 0 = true → Completes (.nibNop t) s (fun s' => ok s' ∧ s'.ink = s.ink)) ∧
    (s.nbReady t 1 = true → Completes (.nibMap t) s (fun s' => ok s' ∧
      ∀ o, x.outs = [o] → o.one = true → x.ins.all Strm.one = true →
        out o ((mapElem x.d x.words (x.ins.map val)).getD 0 .zero) s')) ∧
    (s.nbReady t 2 = true → Completes (.nibReduce t) s (fun s' => ok s' ∧
      ∀ i o, x.ins = [i] → x.outs = [o] → i.one = true → o.one = true → out o (reduceGroup x.d.subop [val i]) s')) ∧
    (s.nbReady t 3 = true → Completes (.nibSoftmax t) s (fun s' => ok s' ∧
      ∀ i rest o, x.ins = i :: rest → x.outs = [o] → x.ins.all Strm.one = true → o.one = true →
        let r := softmaxRow (fp32 (x.d.const.getD 0 0)) [val i] (rest.head?.map (fun m => [val m]))
        (x.hasStatus = false → out o (r.1.getD 0 .zero) s') ∧ (x.hasStatus = true → s'.inkNat t x.d.status 1 = r.2))) ∧
    (s.nbReady t 4 = true → Completes (.nibCompress t) s (fun s' => ok s' ∧
      ∀ i p o, x.ins = [i, p] → x.outs = [o] → i.one = true → p.one = true → o.one = true →
        (x.hasStatus = false → if (val p).truth then out o (val i) s' else s'.inkElem t o = s.inkElem t o) ∧
        (x.hasStatus = true → s'.inkNat t x.d.status 4 = b2n (val p).truth))) ∧
    (s.nbReady t 5 = true → Completes (.nibExpand t) s (fun s' => ok s' ∧
      ∀ i p o, x.ins = [i, p] → x.outs = [o] → i.one = true → p.one = true → o.one = true →
        (x.hasStatus = false → out o (if (val p).truth then val i else fp32 (x.d.const.getD 0 0)) s') ∧
        (x.hasStatus = true → s'.inkNat t x.d.status 4 = b2n (val p).truth))) ∧
    (s.nbReady t 6 = true → Completes (.nibMxpack t) s (fun s' => ok s' ∧
      ∀ i o sc, x.ins = [i] → x.outs = [o, sc] → i.one = true → o.one = true → sc.one = true →
        let b := mxBlock o.format x.d.rtz [val i]
        s'.inkElem t sc = b.1 ∧
        (o.base / 0x10000 = sc.base / 0x10000 → overlaps o.range sc.range = false →
          s'.inkElem t o = (b.2.map (fun e => e.2.1)).getD 0 0 % 2 ^ o.bits))) ∧
    (s.nbReady t 7 = true → Completes (.nibMxunpack t) s (fun s' => ok s' ∧
      ∀ i sc o, x.ins = [i, sc] → x.outs = [o] → i.one = true → sc.one = true → o.one = true →
        out o (fp32 (rne32 (mxValue 2 i.format (s.inkElem t i) (s.inkElem t sc)))) s')) ∧
    (s.nbReady t 8 = true → Completes (.nibEt5 t) s (fun s' => ok s' ∧ s'.ink = (State.et5Run t x.win s x.words).ink)) ∧
    (s.nbReady t 9 = true →
      (s.waitMet t x.d.subop x.d.count = true → Completes (.nibWait t) s (fun s' => ok s' ∧ s'.ink = s.ink)) ∧
      (s.waitMet t x.d.subop x.d.count = false → Completes (.nibWait t) s (fun s' =>
        (s'.tile t).nbWait = some (x.d.subop, x.d.count) ∧ s'.fget (TIL_NB_STATUS_WAITING t) = 1 ∧ s'.fget (TIL_NB_STATUS_BUSY t) = 1 ∧
        s'.fget (TIL_NB_HEAD_HEAD t) = s.fget (TIL_NB_HEAD_HEAD t)))) ∧
    (∀ u c, t < 152 → s.paused t = false → (s.tile t).nbWait = some (u, c) → s.waitMet t u c = true →
      Completes (.nibWaitMet t) s (fun s' => ok s' ∧ (s'.tile t).nbWait = none ∧ s'.fget (TIL_NB_STATUS_WAITING t) = 0)) ∧
    (∀ u, s.nbReady t 10 = true → TU.ofCode x.d.subop = some u →
      Completes (.nibPost t) s (fun s' => ok s' ∧ s'.ink = s.ink ∧ s'.fget (u.tail t) = x.d.count % 2 ^ u.ixBits ∧
        (ahead u.ixBits (x.d.count % 2 ^ u.ixBits) (s.fget (u.head t)) ≤ s.slots t u → s'.halted t u = s.halted t u) ∧
        (s.slots t u < ahead u.ixBits (x.d.count % 2 ^ u.ixBits) (s.fget (u.head t)) → s'.halted t u = true)))

/-- MOVER_NOP, MOVER_COPY (R112), MOVER_WAIT and MOVER_WAIT_MET (R106) complete. -/
def Obligations.MoverRowsComplete : Prop :=
  ∀ (s : State) (t n : Nat),
    let d := s.smSlot t n
    (s.smReady t n 0 = true →
      Completes (.moverNop t n) s (fun s' => s.completed s' t (.sm n) ∧ s'.ink = s.ink ∧ s'.mem = s.mem)) ∧
    (∀ p a, s.smReady t n 1 = true → s.tilePart t = some p → s.taskBad t = false → d.src.space = 1 → d.src.one = true → d.dst.one = true →
      (s.shadowLocks t).stall [] [d.dst.range] = false → d.src.base < pagedBase → s.plain p d.src.base (d.src.bits / 8) a = true →
      Completes (.moverCopy t n []) s (fun s' => s.completed s' t (.sm n) ∧ s'.mem = s.mem ∧
        s'.inkElem t d.dst = leNat ((List.range (d.src.bits / 8)).map (fun i => s.memByte (a + i))))) ∧
    (∀ p a, s.smReady t n 1 = true → s.tilePart t = some p → p < 16 → s.taskBad t = false → d.dst.space = 1 → d.src.one = true →
      d.dst.one = true → (s.shadowLocks t).stall [d.src.range] [] = false → s.plain p d.dst.base (d.dst.bits / 8) a = true →
      Completes (.moverCopy t n []) s (fun s' => s.completed s' t (.sm n) ∧ s'.ink = s.ink ∧
        leNat ((List.range (d.dst.bits / 8)).map (fun i => s'.memByte (a + i))) = s.inkElem t d.src ∧
        (∀ x, x < a ∨ a + d.dst.bits / 8 ≤ x → s'.memByte x = s.memByte x))) ∧
    (s.smReady t n 2 = true →
      (s.waitMet t d.unit d.count = true →
        Completes (.moverWait t n) s (fun s' => s.completed s' t (.sm n) ∧ s'.ink = s.ink ∧ s'.mem = s.mem)) ∧
      (s.waitMet t d.unit d.count = false →
        Completes (.moverWait t n) s (fun s' => mfind (s'.tile t).smWait n = some (d.unit, d.count) ∧
          s'.fget (TIL_SM_HEAD_HEAD t n) = s.fget (TIL_SM_HEAD_HEAD t n) ∧ s'.mem = s.mem))) ∧
    (∀ u c, moverOk t n = true → s.paused t = false → mfind (s.tile t).smWait n = some (u, c) → s.waitMet t u c = true →
      Completes (.moverWaitMet t n) s (fun s' => s.completed s' t (.sm n) ∧ mfind (s'.tile t).smWait n = none ∧ s'.mem = s.mem))

/-- BLOTTER_OPEN, BLOTTER_SPILL, BLOTTER_FILL (R144), BLOTTER_FOLD (R146), BLOTTER_DRAIN (R155), BLOTTER_CLOSE and BLOTTER_OP_COMPLETE (R144)
complete; an operation stalls on absent pages (R204) and waits where it is withheld (R145).
Which free blocks a region gets is the model's choice (log entry 11, DESIGN CHOICE). -/
def Obligations.BlotterRowsComplete : Prop :=
  ∀ (s : State) (p t r : Nat) (d : RegD),
    let seen := fun (k : Nat) => (s.setTile t { s.tile t with blQueue := [⟨k, r⟩] }).memSee p t (s.fget (SCH_REGION_BASE_BASE p) * 64 + 64 * r) 64
    let z := fun (k : Nat) => (seen k).setTile t { (seen k).tile t with blQueue := [] }
    let ready := fun (k : Nat) => s.blReady p t k r d = true ∧ s.blAbsent p t ⟨k, r⟩ d = []
    let busy := fun (k : Nat) (s' : State) => s'.fget (TIL_BL_STATUS_BUSY t) = 1 ∧ s'.fget (TIL_BL_STATUS_OP t) = k ∧
      (s'.tile t).blCur = some ⟨k, r⟩ ∧ s'.fget (TIL_BL_DONE_COUNT t) = s.fget (TIL_BL_DONE_COUNT t)
    (ready 1 → ((s.region t r).map Region.blocks).getD [] = [] →
      Completes (.blotterOpen t r) s (fun s' => busy 1 s' ∧ s'.mem = s.mem ∧ ∃ g, s'.region t r = some g ∧ g.state = 1 ∧
        g.tensor = d.tensor ∧ g.blocks = (s.freeBlocks t).take d.nblocks ∧
        ∀ b ∈ g.blocks, ∀ i < 4096, mget 0 s'.blot ((t * 84 + b) * 4096 + i) = 0)) ∧
    (∀ g, s.region t r = some g → g.state = 1 → ready 2 →
      Completes (.blotterSpill t r) s (fun s' => busy 2 s' ∧ s'.mem = ((z 2).blSpillGo p t r d g).mem ∧
        s'.region t r = some { g with state := 2, blocks := [] } ∧
        s'.fget (TIL_BL_SPILLS_COUNT t) = (s.fget (TIL_BL_SPILLS_COUNT t) + g.blocks.length) % 2 ^ 32)) ∧
    (∀ g, s.region t r = some g → g.state = 2 → g.blocks = [] → ready 3 → ((z 3).blFillGo p t r d).2 = false →
      Completes (.blotterFill t r) s (fun s' => busy 3 s' ∧ s'.blot = ((z 3).blFillGo p t r d).1.blot ∧ s'.mem = s.mem ∧
        (s'.region t r).map (fun g => (g.state, g.blocks)) = some (1, (s.freeBlocks t).take d.nblocks))) ∧
    (∀ g, s.region t r = some g → g.state = 1 → ready 4 → ((z 4).blFoldGo p t r d).2 = false →
      Completes (.blotterFold t r) s (fun s' => busy 4 s' ∧ s'.blot = ((z 4).blFoldGo p t r d).1.blot ∧ s'.mem = s.mem)) ∧
    (∀ g, s.region t r = some g → g.state = 1 → ready 5 →
      Completes (.blotterDrain t r) s (fun s' => busy 5 s' ∧ s'.mem = ((z 5).blDrainGo p t r d g).mem ∧
        s'.region t r = some { g with state := 4, blocks := [], stopped := false })) ∧
    (ready 6 →
      Completes (.blotterClose t r) s (fun s' => busy 6 s' ∧ s'.mem = s.mem ∧
        s'.region t r = (s.region t r).map (fun g => { g with state := 0, blocks := [], stopped := false }))) ∧
    (∀ c k, (c, k) ∈ [(Instr.blotterSpill t r, 2), (.blotterFill t r, 3), (.blotterFold t r, 4), (.blotterDrain t r, 5)] →
      s.blReady p t k r d = true → s.blAbsent p t ⟨k, r⟩ d ≠ [] →
      Completes c s (fun s' => s'.fget (TIL_BL_STATUS_BUSY t) = 1 ∧ (s'.tile t).blStall = some ⟨k, r⟩ ∧ s'.mem = s.mem ∧ s'.blot = s.blot ∧
        s'.region t r = s.region t r)) ∧
    (∀ c k, (c, k) ∈ [(Instr.blotterOpen t r, 1), (.blotterSpill t r, 2), (.blotterFill t r, 3), (.blotterFold t r, 4), (.blotterDrain t r, 5),
        (.blotterClose t r, 6)] → blOk t r = true → s.tilePart t = some p → (s.tile t).blQueue = [] → s.blHeld p t ⟨k, r⟩ = true →
      Completes c s (fun s' => s' = s.setTile t { s.tile t with blQueue := [⟨k, r⟩] })) ∧
    (t < 152 → s.fbit (TIL_BL_STATUS_BUSY t) = true → s.paused t = false → (s.tile t).blStall = none → (s.tile t).blQueue = [] →
      (∀ q, s.tilePart t = some q → (s.sqp q).bl = []) →
      Completes (.blotterOpComplete t) s (fun s' => s'.fget (TIL_BL_STATUS_BUSY t) = 0 ∧ s'.fget (TIL_BL_STATUS_OP t) = 0 ∧
        s'.fget (TIL_BL_DONE_COUNT t) = (s.fget (TIL_BL_DONE_COUNT t) + 1) % 2 ^ 32 ∧ (s'.tile t).blCur = none ∧ s'.mem = s.mem))

/-- LIGATURE_UPDATE_START (R170), NORM_EXCHANGE_ARRIVAL (R168), STEP_COMMIT (R175), ROLLBACK_COMPLETE (R176), SLOW_UPDATE_START (R179) and
SLOW_UPDATE_COMPLETE (R180) complete. -/
def Obligations.LigatureRowsComplete : Prop :=
  ∀ (s : State) (p : Nat), p < 16 → s.fbit (PAL_CTRL_ENABLE p) = false →
    let x := s.lp p
    let line := fun (d : Nat) => (List.range 512).map (fun i => s.memByte (d + i))
    (∀ t n a e, s.fatal = false → x.notes.find? (fun n => n.tensor == t) = some n → x.past n.step = false → x.takes n.step = true →
      x.upds = [] → n.peers = 0 → (s.ligEntry p n).2 = some (a, e) →
      ((teFlags e).testBit 3 = true → x.flag ≠ some true →
        Completes (.ligatureUpdateStart p t) s (fun s' => s'.mem = s.mem ∧ (s'.lp p).cur = some n.step ∧
          (s'.lp p).upds = [⟨n, e, a, 0, some (0, 0, 0x3F800000), true, true⟩] ∧ s'.fget (LIG_PSTATUS_IDLE p) = 0)) ∧
      (∀ d g, x.flag = some false → bitsAt (teFlags e) 1 3 = 0 → teLines e = 1 → s.ligOutside p e = none → s.plain p (teState e) 512 d = true →
        (s.fget EVT_ADMIN_UNIT_LIG_DISABLE).testBit (s.ligUnit p (teState e)) = false → leAt (line d) 0x1C0 4 = n.tensor →
        leAt (line d) 0x1C4 4 = teFirst e → leAt (line d) 0x1CC 2 = n.epoch → leAt (line d) 0x1C8 4 = teStep e → teStep e ≠ n.step →
        (s.gradLine p e (teFirst e)).2 = some g →
        Completes (.ligatureUpdateStart p t) s (fun s' => (s'.lp p).cur = some n.step ∧ (s'.lp p).upds.all (fun u => u.done) = true ∧
          s'.fget (LIG_PSTATUS_IDLE p) = 0 ∧
          ∀ i < 512, s'.memByte (d + i) = (ligNew e 0x3F800000 n.step n.epoch (line d) g).1.getD i 0))) ∧
    (∀ m t v, m < 128 →
      (x.upds = [] → Completes (.normExchangeArrival p m t v) s (fun s' => mfind (s'.lp p).sums (t * 128 + m) = some v ∧ s'.mem = s.mem)) ∧
      (∀ u, x.upds = [u] → u.note.tensor = t → u.note.peers = 2 ^ m → u.norm = none → u.done = true →
        Completes (.normExchangeArrival p m t v) s (fun s' =>
          (s'.lp p).upds = [{ u with norm := some (ligNorm u.ent [u.own, v]) }] ∧ s'.mem = s.mem))) ∧
    (∀ n, x.cur = some n → x.flag = some false → x.complete n = true → s.fastReduced p = true →
      (x.upds = [] → Completes (.stepCommit p) s (fun s' => s'.fget (LIG_STEP_STEP p) = n % 2 ^ 32 ∧ (s'.lp p).cur = none ∧
        (s'.lp p).last = some n ∧ s'.fget (LIG_JRNL_USED_USED p) = 0 ∧ s'.mem = s.mem)) ∧
      (∀ u q d, x.upds = [u] → u.frozen = false → u.norm = some q → s.plain p (u.addr + 0x54) 28 d = true →
        Completes (.stepCommit p) s (fun s' => s'.fget (LIG_STEP_STEP p) = n % 2 ^ 32 ∧
          (List.range 28).map (fun i => s'.memByte (d + i)) =
            leBytes 4 (teP1n u.ent) ++ leBytes 4 (teP2n u.ent) ++ leBytes 4 (teApplied u.ent + 1) ++ leBytes 4 u.note.step ++ leBytes 4 q.1 ++
              leBytes 4 q.2.1 ++ leBytes 4 q.2.2))) ∧
    (∀ n, x.cur = some n → x.flag = some true → x.rolling = true → x.upds = [] → x.notes = [] → x.back = [] →
      s.fget (LIG_JRNL_USED_USED p) = 0 → s.fastReduced p = true →
      Completes (.rollbackComplete p) s (fun s' => s'.fget (LIG_STEP_STEP p) = n % 2 ^ 32 ∧ s'.fget (LIG_PSTATUS_SKIPPED p) = 1 ∧
        s'.fget (LIG_SKIPS_COUNT p) = satAdd 32 (s.fget (LIG_SKIPS_COUNT p)) 1 ∧ (s'.lp p).cur = none ∧ s'.mem = s.mem)) ∧
    (∀ w a e d dl, x.slow = [w] → w.upd = none → w.count = 1 → w.note.peers = 0 → x.on = true → x.past w.note.step = true →
      x.skipped.contains w.note.step = false → s.fatal = false → (s.ligEntry p w.note).2 = some (a, e) → s.slowOutside p w e = none →
      s.plain p w.list 128 dl = true → bitsAt (teFlags e) 1 3 = 0 → s.plain p (teState e) 512 d = true → teLines e = 1 →
      let r := (List.range 128).map (fun i => s.memByte (dl + i))
      recLine r = teFirst e → (s.fget EVT_ADMIN_UNIT_LIG_DISABLE).testBit (s.ligUnit p (teState e)) = false →
      leAt (line d) 0x1C0 4 = w.note.tensor → leAt (line d) 0x1C4 4 = teFirst e → leAt (line d) 0x1CC 2 = w.note.epoch →
      leAt (line d) 0x1C8 4 = teStep e → teStep e ≠ w.note.step →
      Completes (.slowUpdateStart p) s (fun s' =>
        (∀ i < 512, s'.memByte (d + i) = (ligNew e 0x3F800000 w.note.step w.note.epoch (line d) (recGes e r)).1.getD i 0) ∧
        ∃ u, (s'.lp p).slow = [{ w with upd := some u }] ∧ u.done = true)) ∧
    (∀ j, x.slowStep = some j →
      (x.slow.filter (fun w => w.note.step == j)).all (fun w => match w.upd with | some u => u.frozen && u.done && u.norm.isSome | none => false) = true →
      Completes (.slowUpdateComplete p) s (fun s' => s'.fget (LIG_SLOW_DONE_STEP p) = j % 2 ^ 32 ∧ s'.mem = s.mem ∧
        (s'.lp p).slow = x.slow.filter (fun w => w.note.step != j)))

/-- TASK_FETCH (R186), TASK_READY (R194), SCHEDULING_ROUND (R195), PAGE_LOADS_COMPLETE (R191), EARLY_WAITS_MET (R197), TASK_COMPLETE (R193) and
TASK_RETRY (R202) complete, each by one clause.
A sequencer's task is not held by SCH_PCTRL.ENABLE (log entry 72, DEDUCED). -/
def Obligations.TaskRowsComplete : Prop :=
  (∀ (s : State) (p src arr ent : Nat) (b rcd : List Byte), p < 16 → s.active p = true → s.stopped = false → s.asleep = false →
    (s.sp p).nextIn = some (src, arr, ent, b) → (src = 8 ∨ s.fbit (SCH_PCTRL_ENABLE p) = true) →
    s.taskCheck p (parseTask b) b = (rcd, 0, none) → (parseTask b).model = 0xFF → touchPages rcd = [] → (s.sp p).tasks = [] → (s.sp p).counted = [] →
    Completes (.taskFetch p) s (fun s' => (s'.sp p).inq = (s.sp p).inq.erase (src, arr, ent, b) ∧ s'.mem = s.mem ∧
      (s'.sp p).tasks = [(if src = 8 then arr else (s.sp p).nextArr,
        newTask (parseTask b) rcd (min (parseTask b).level (((s.sect p).map (·.prioCeil)).getD 7)) src ent)])) ∧
  (∀ (s : State) (p a : Nat) (k : Task), p < 16 → mfind (s.sp p).tasks a = some k → k.st = .queued → k.ready = false →
    (k.d.kind = 1 → s.isReady p k = true →
      Completes (.taskReady p a) s (fun s' => mfind (s'.sp p).tasks a = some { k with ready := true } ∧ s'.mem = s.mem)) ∧
    (k.d.kind = 1 → s.isReady p k = false → s.readyBut4 p k = true →
      Completes (.taskReady p a) s (fun s' => s'.fget (LIG_PSTATUS_LAGGING p) = 1 ∧ mfind (s'.sp p).tasks a = some k)) ∧
    (k.d.kind ≠ 1 → s.isReady p k = true → k.tiles = [] → k.src ≠ 8 →
      Completes (.taskReady p a) s (fun s' => mfind (s'.sp p).tasks a = none ∧ s'.mem = (if k.d.notify then s.hlqPut p (taskRecord 0 0xFF 0xFF 0 k.d) else s).mem ∧
        (k.d.postSig ≤ 255 → s'.fget (SCH_SIG_VALUE p k.d.postSig) = (s.fget (SCH_SIG_VALUE p k.d.postSig) + k.d.postInc) % 2 ^ 32)))) ∧
  (∀ (s : State) (p a : Nat) (k : Task) (ts : List Nat), p < 16 → (s.sp p).tasks = [(a, k)] → k.st = .queued → k.ready = true → k.d.model = 0xFF →
    touchPages k.rcd = [] → k.d.regions = [] → (s.sp p).counted = [] → s.active p = true → s.stopped = false → s.hlqRoom p = true →
    (∀ t, s.tilePart t = some p → (s.tile t).blQueue = []) → s.choose p k = some ts →
    Completes (.schedulingRound p) s (fun s' =>
      mfind (s'.sp p).tasks a = some { k with st := .launching, tiles := ts, done := [], started := [], disp := (s.sp p).nextDisp } ∧
      (s'.hp p).reserved = (s.hp p).reserved + 1 ∧ s'.mem = s.mem)) ∧
  (∀ (s : State) (p a t : Nat) (k : Task), p < 16 → t < 152 → s.tilePart t = some p → (s.sp p).tasks = [(a, k)] → k.tiles = [t] → k.st = .launching →
    k.done = [] → k.started = [] → k.fault = none → k.bad = none → k.d.regions = [] → recPages k.rcd = [] →
    Completes (.pageLoadsComplete t) s (fun s' => s'.inkRead t 0 32 = taskWord 0 k.d ∧ s'.mem = s.mem ∧
      (if k.d.early = true ∧ s.waitsMet p k.d = false then (mfind (s'.sp p).tasks a).map Task.st = some .remote
      else (mfind (s'.sp p).tasks a).map Task.st = some .running ∧
        ∀ u ∈ [TU.mx, TU.nb, TU.sm 0, TU.sm 1], s'.fget (u.enable t) = 1 ∧ s'.fget (u.head t) = 0 ∧ s'.fget (u.doneF t) = 0))) ∧
  (∀ (s : State) (p a t : Nat) (k : Task), p < 16 → t < 152 → s.tilePart t = some p → (s.sp p).tasks = [(a, k)] → k.tiles = [t] → k.st = .remote →
    k.d.early = true → k.done = [t] → k.started = [] → s.waitsMet p k.d = true →
    Completes (.earlyWaitsMet p a) s (fun s' => (mfind (s'.sp p).tasks a).map Task.st = some .running ∧ s'.mem = s.mem ∧
      ∀ u ∈ [TU.mx, TU.nb, TU.sm 0, TU.sm 1], s'.fget (u.enable t) = 1 ∧ s'.fget (u.head t) = 0 ∧ s'.fget (u.doneF t) = 0)) ∧
  (∀ (s : State) (p a : Nat) (k : Task), p < 16 → mfind (s.sp p).tasks a = some k → k.st = .running → k.src ≠ 8 → k.bad = none →
    (∀ t ∈ k.tiles, t < 152 ∧ (s.tile t).blQueue = []) →
    (k.fault = none → s.ringsDone k = true → k.aborted = false →
      Completes (.taskComplete p a) s (fun s' => mfind (s'.sp p).tasks a = none ∧ s'.mem = (if k.d.notify then s.hlqPut p (taskRecord 0 0xFF 0xFF 0 k.d) else s).mem ∧
        (k.d.postSig ≤ 255 → s'.fget (SCH_SIG_VALUE p k.d.postSig) = (s.fget (SCH_SIG_VALUE p k.d.postSig) + k.d.postInc) % 2 ^ 32) ∧
        (s'.hp p).waiting = (s.hp p).waiting ++ if k.d.notify then [bytesAt (taskRecord 0 0xFF 0xFF 0 k.d) 0 32] else [])) ∧
    (k.fault = none → s.ringsDone k = true → k.aborted = true →
      Completes (.taskComplete p a) s (fun s' => mfind (s'.sp p).tasks a = none ∧ s'.mem = (s.hlqPut p (taskRecord 1 0xFF 0xFF 0 k.d)).mem ∧
        (∀ n < 256, s'.fget (SCH_SIG_VALUE p n) = s.fget (SCH_SIG_VALUE p n)) ∧
        (s'.hp p).waiting = (s.hp p).waiting ++ [bytesAt (taskRecord 1 0xFF 0xFF 0 k.d) 0 32])) ∧
    (∀ t u c, k.fault = some (t, u, c) →
      Completes (.taskComplete p a) s (fun s' => mfind (s'.sp p).tasks a = none ∧ s'.mem = (s.hlqPut p (taskRecord 2 t u c k.d)).mem ∧
        (∀ n < 256, s'.fget (SCH_SIG_VALUE p n) = s.fget (SCH_SIG_VALUE p n)) ∧
        (s'.hp p).waiting = (s.hp p).waiting ++ [bytesAt (taskRecord 2 t u c k.d) 0 32]))) ∧
  (∀ (s : State) (p a x : Nat) (k : Task), p < 16 → mfind (s.sp p).tasks a = some k → k.st = .retry → k.bad = some x →
    s.poisoned (s.loc p x) = false →
    Completes (.taskRetry p a) s (fun s' => s'.mem = s.mem ∧
      mfind (s'.sp p).tasks a = some { k with st := .queued, ready := false, bad := none, retried := k.retried + 1 }))

/-- MODEL_LOAD_COMPLETE (R201), TILE_SPILL_COMPLETE (R206), TILE_RESTORE, RESTORE_COMPLETE (R207), PAGE_IN_COMPLETE and DEMAND_PAGE_FAULT (R204)
complete. -/
def Obligations.PagingAndSpillRowsComplete : Prop :=
  ∀ (s : State) (p : Nat), p < 16 →
    (∀ m h d d', m < 8 →
      let z := s.hostStores h
      let e := s.modelEnt p m
      meState e = 1 → s.hostLost p = false → (s.sp p).tasks = [] → s.plain p (meDev e) (meBytes e) d = true →
      s.plain p (s.modelAddr p m + 2) 1 d' = true →
      Completes (.modelLoadComplete p m h) s (fun s' => s'.memByte d' = 2 ∧
        ∀ i < meBytes e, d + i ≠ d' → s'.memByte (d + i) = mget 0 z.host (meHost e + i))) ∧
    (∀ t a k slot, t < 152 → s.tilePart t = some p → (s.sp p).tasks = [(a, k)] → k.tiles = [t] →
      (k.st = .spilling → k.done = [] → k.was ≠ .running → k.slots = [(t, slot)] →
        Completes (.tileSpillComplete t) s (fun s' => ∃ k', mfind (s'.sp p).tasks a = some k' ∧ k'.st = .spilled ∧ k'.slots = [(t, slot)] ∧
          mhas k'.saved t = true ∧ (s'.tile t).regions = [] ∧
          ∀ u ∈ [TU.mx, TU.nb, TU.sm 0, TU.sm 1], s'.fget (u.enable t) = 0)) ∧
      (∀ w, k.st = .restoring → k.done = [] → k.was = .running → k.slots = [(t, slot)] → k.saved = [(t, w)] → w.x.blQueue = [] → w.x.blStall = none →
        (s.tile t).blQueue = [] →
        Completes (.restoreComplete t) s (fun s' => (s'.tile t).pmap = w.x.pmap ∧ s'.fget (TIL_MX_STATUS_SAVED t) = 0 ∧ s'.mem = s.mem ∧
          ∃ k', mfind (s'.sp p).tasks a = some k' ∧ k'.st = .running ∧ k'.slots = [] ∧ k'.saved = []))) ∧
    (∀ a k, s.nextReady p = some (a, k) → k.st = .spilled → (∀ t ∈ k.tiles, (s.tile t).regions.all (fun e => e.2.state != 1) = true ∧
        s.fbit (TIL_BL_STATUS_BUSY t) = false) →
      Completes (.tileRestore p a) s (fun s' => s'.mem = s.mem ∧
        mfind (s'.sp p).tasks a = some { k with st := .restoring, done := [], disp := (s.sp p).nextDisp })) ∧
    (∀ g f h, mfind (s.sp p).transit g = some f → s.hostLost p = false → (s.sp p).tasks = [] → (∀ e ∈ (s.sp p).counted, e.2 = g) →
      s.connsOf p = [] → (∀ t, s.tilePart t = some p → (s.tile t).blStall = none) →
      Completes (.pageInComplete p g h) s (fun s' => mfind (s'.sp p).transit g = none ∧ mfind (s'.sp p).frames f = some g ∧
        s'.fget (SCH_PAGE_INS_COUNT p) = satAdd 32 (s.fget (SCH_PAGE_INS_COUNT p)) 1)) ∧
    (∀ t g, (s.sp p).demand.contains (t, g) = true → (s.sp p).counted.contains (t, g) = false →
      (s.pageEntry p g % 4 ≠ 0 → Completes (.demandPageFault p t g) s (fun s' => s'.mem = s.mem ∧
        (s'.sp p).counted = (s.sp p).counted ++ [(t, g)] ∧
        s'.fget (SCH_DEMAND_FAULTS_COUNT p) = satAdd 32 (s.fget (SCH_DEMAND_FAULTS_COUNT p)) 1)) ∧
      (∀ f, s.pageEntry p g % 4 = 0 → mhas (s.sp p).transit g = false → s.hostLost p = false → s.frameFor p = some f →
        mfind (s.sp p).frames f = none →
        Completes (.demandPageFault p t g) s (fun s' => mfind (s'.sp p).transit g = some f ∧
          (s'.sp p).counted = (s.sp p).counted ++ [(t, g)] ∧
          s'.fget (SCH_DEMAND_FAULTS_COUNT p) = satAdd 32 (s.fget (SCH_DEMAND_FAULTS_COUNT p)) 1)))

/-- SQ_TASK (R223), SQ_XFER (R219), SQ_DRAIN, SQ_FOLD (R218), SQ_REDUCE (R225 to R227), SQ_CLOSE (R230) and SQ_MARK (R218) complete. -/
def Obligations.SequencerEntryRowsComplete : Prop :=
  ∀ (s : State) (p : Nat) (h : SHdr) (b : Bunt) (i : Nat) (e : SEnt) (moved : Bool),
    let n := s.sqStep p
    (∀ t, s.releases p 1 h b i e moved = true → s.sqItem p h e = some t →
      Completes (.sqTask p) s (fun s' => (s'.sqp p).rel = sins (s.sqp p).rel i ∧ s'.mem = s.mem ∧
        (s'.sp p).inq = (s.sp p).inq ++ [(8, (s.sp p).nextArr, i, sqTaskDesc n i h.epoch e t)] ∧
        (s'.sp p).nextArr = (s.sp p).nextArr + 1)) ∧
    (∀ t, s.releases p 2 h b i e moved = true → s.sqItem p h e = some t →
      Completes (.sqXfer p) s (fun s' => (s'.sqp p).rel = sins (s.sqp p).rel i ∧ s'.mem = s.mem ∧
        ∃ r, s'.zt.int = s.zt.int ++ [r] ∧ r.part = p ∧ r.conn = s.memberConn p (leAt t 0 2) ∧ r.bytes = leAt t 4 4 ∧
          r.locAddr = leAt t 8 8 + e.mb * leAt t 0x18 4 ∧ r.remote = some (leAt t 0x10 8 + e.mb * leAt t 0x18 4) ∧ r.cb = .entry n i)) ∧
    (∀ t, s.sqItem p h e = some t → (s.sqp p).fin.contains i = false →
      let rs := ((List.range 8).map (fun j => leAt t (0x30 + 2 * j) 2)).filter (· != 0xFFFF)
      let ds := rs.filter (fun r => !(s.regDesc p r).any RegD.source)
      (ds = [] → s.releases p 3 h b i e moved = true →
        Completes (.sqDrain p) s (fun s' => (s'.sqp p).fin = sins (s.sqp p).fin i ∧ s'.mem = s.mem)) ∧
      (rs = [] → s.releases p 4 h b i e moved = true →
        Completes (.sqFold p) s (fun s' => (s'.sqp p).fin = sins (s.sqp p).fin i ∧ s'.mem = s.mem)) ∧
      (∀ r u, s.regionTile p r = some u → s.fbit (TIL_BL_STATUS_BUSY u) = true →
        (ds = [r] → s.releases p 3 h b i e moved = true → Completes (.sqDrain p) s (fun s' =>
          (s'.sqp p).bl = (s.sqp p).bl ++ [(i, u, 5, r)] ∧ (s'.tile u).blQueue = (s.tile u).blQueue ++ [⟨5, r⟩] ∧ s'.mem = s.mem)) ∧
        (rs = [r] → s.releases p 4 h b i e moved = true → Completes (.sqFold p) s (fun s' =>
          (s'.sqp p).bl = (s.sqp p).bl ++ [(i, u, 4, r)] ∧ (s'.tile u).blQueue = (s.tile u).blQueue ++ [⟨4, r⟩] ∧ s'.mem = s.mem)))) ∧
    (∀ g gb d d', s.releases p 5 h b i e moved = true → s.sqItem p h e = some g → gSlow g = false → (gMembers g).length = 1 → gLines g = 1 →
      (leAt g 5 1).testBit 1 = false → s.gradBase p h.epoch (leAt g 0 4) = some gb → gSrc g ≠ gb → s.plain p (gSrc g) 512 d = true →
      s.plain p gb (2 * min 256 (gElems g)) d' = true → (s.sqp p).fin.contains i = false →
      Completes (.sqReduce p) s (fun s' => (s'.sqp p).fin = sins (s.sqp p).fin i ∧
        (s'.lp p).notes = (s.lp p).notes ++ [⟨leAt g 0 4, h.epoch, n, 0⟩] ∧
        ∀ k < 2 * min 256 (gElems g), s'.memByte (d' + k) = s.memByte (d + k))) ∧
    (s.releases p 6 h b i e moved = true → b.self ≠ 0 →
      Completes (.sqClose p) s (fun s' => (s'.sqp p).rel = sins (s.sqp p).rel i ∧ (s'.sqp p).flag = false ∧ s'.mem = s.mem ∧
        ∃ r c, s'.zt.int = s.zt.int ++ [r, c] ∧ r.conn = s.memberConn p 0 ∧ c.conn = s.memberConn p 0 ∧
          r.remote = some (s.agreeBase p + 32 * b.self) ∧ c.remote = some (b.close + (b.self + 1) * s.closeLen p) ∧
          r.data.map (fun x => leAt x 0 4) = some n ∧
          c.data.map (fun x => (leAt x 0 4, leAt x 6 2 % 2)) = some (n, b2n (s.sqp p).flag))) ∧
    (∀ eb, s.releases p 7 h b i e moved = true → s.sqEnt p i = some eb → parseSEnt eb = e → (s.sqp p).fin.contains i = false →
      Completes (.sqMark p) s (fun s' => (s'.sqp p).rel = sins (s.sqp p).rel i ∧ (s'.sqp p).fin = sins (s.sqp p).fin i ∧ s'.mem = s.mem ∧
        (e.ps < 31 → s'.fget (SCH_SIG_VALUE p (bankSig n e.ps)) = (s.fget (SCH_SIG_VALUE p (bankSig n e.ps)) + 1) % 2 ^ 32)))

/-- JOIN_RECORD_ARRIVAL (R212), REDUCE_SEGMENT_ARRIVAL (R226), REDUCE_RESULT_ARRIVAL (R227), SLOW_RECORD_ARRIVAL (R229), FREQUENCY_REPORT_ARRIVAL
(R395), CLOSE_RECORD_ARRIVAL, COMBINED_RECORD_ARRIVAL (R230), STEP_END (R231), MIGRATION_COMPLETE (R235) and SEQ_STALL (R233) complete.
How slow-tier records are staged is log entry 163 (DEDUCED), and that arrivals of the next step are kept by parity log entry 79 (DEDUCED). -/
def Obligations.SequencerArrivalRowsComplete : Prop :=
  ∀ (s : State) (p : Nat), p < 16 →
    (∀ b r i, i < 128 → s.bunt p = some b → i < b.n → s.memGet p (b.join + 32 * i) 32 = some r → leAt r 0 8 = b.id →
      leAt r 8 8 = leAt (s.buntEnt p i) 0 8 → leAt r 0x10 2 = i →
      Completes (.joinRecordArrival p i) s (fun s' => (s'.sqp p).joined = sins (s.sqp p).joined i ∧
        s'.fget (SCH_SQ_STATUS_JOINED p) = min 255 (sins (s.sqp p).joined i).length ∧
        ((List.range b.n).all (sins (s.sqp p).joined i).contains = true → s'.fget (SCH_SQ_STATUS_FORMED p) = 1))) ∧
    (∀ n i j h b g, j < 128 → s.arrivalGroup p n i = some (h, b, g) → j < (gMembers g).length → (gMembers g).getD j 0 ≠ b.self →
      (gSlow g = false → (s.red p n i).summed = false → (sins (s.red p n i).conts j).length < (gMembers g).length →
        (s.sqp p).rel.contains i = false →
        Completes (.reduceSegmentArrival p n i j) s (fun s' => (s'.red p n i).conts = sins (s.red p n i).conts j ∧ s'.mem = s.mem)) ∧
      (gSlow g = false → (s.sqp p).rel.contains i = true → (s.sqp p).fin.contains i = false → (leAt g 5 1).testBit 1 = false →
        (sins (s.red p n i).results j).length = (gMembers g).length →
        Completes (.reduceResultArrival p n i j) s (fun s' => (s'.sqp p).fin = sins (s.sqp p).fin i ∧ s'.mem = s.mem ∧
          (s'.lp p).notes = (s.lp p).notes ++ [⟨leAt g 0 4, h.epoch, n, 0⟩])) ∧
      (∀ recs, gSlow g = true → (s.sqp p).rel.contains i = false →
        let rows := recs.map (fun x => bytesAt x 0 128)
        let staged := fun (s' : State) => ∀ d, s.plain p (s.slowPlace p n i b g) (rows.flatMap id).length d = true →
          ∀ k < (rows.flatMap id).length, s'.memByte (d + k) = (rows.flatMap id).getD k 0
        Completes (.slowRecordArrival p n i j true recs) s (fun s' => staged s' ∧ (s'.red p n i).recsSum = mins (s.red p n i).recsSum j rows) ∧
        ((mins (s.red p n i).recsIn j rows).length ≠ (gMembers g).length →
          Completes (.slowRecordArrival p n i j false recs) s (fun s' => staged s' ∧
            (s'.red p n i).recsIn = mins (s.red p n i).recsIn j rows)))) ∧
    (∀ n i b, i < 128 → s.bunt p = some b → b.self = 0 → i < b.n → (n = s.sqStep p ∨ n = s.sqStep p + 1) → (s.sqp p).decided = false →
      ((∃ k < b.n, k ≠ i ∧ (s.sqp p).reports.contains (n % 2 * 128 + k) = false) →
        Completes (.frequencyReportArrival p n i) s (fun s' => s'.mem = s.mem ∧
          (s'.sqp p).reports = sins (s.sqp p).reports (n % 2 * 128 + i) ∧ (s'.sqp p).decided = false) ∧
        Completes (.closeRecordArrival p n i) s (fun s' => s'.mem = s.mem ∧
          (s'.sqp p).closes = sins (s.sqp p).closes (n % 2 * 128 + i) ∧ (s'.sqp p).decided = false)) ∧
      ((∀ k < b.n, k ≠ i → (s.sqp p).reports.contains (n % 2 * 128 + k) = true) → (s.sqp p).closes = [] →
        Completes (.frequencyReportArrival p n i) s (fun s' => (s'.sqp p).decided = true))) ∧
    (∀ b r, s.bunt p = some b → (s.sqp p).combined = none → s.fbit (SCH_SQ_STATUS_RUNNING p) = true →
      s.memGet p b.close (s.closeLen p) = some r → leAt r 0 4 = s.sqStep p → leAt r 4 2 = 0xFFFF → (leAt r 6 2).testBit 0 = false →
      s.fbit (SCH_NW_PCTRL_ENABLE p) = false → (s.lp p).past (s.sqStep p) = false → (s.lp p).flag = none → (s.lp p).upds = [] →
      Completes (.combinedRecordArrival p) s (fun s' => (s'.sqp p).combined = some false ∧ (s'.lp p).flag = some false ∧
        (s'.lp p).cur = some (s.sqStep p) ∧ s'.mem = s.mem)) ∧
    (∀ h, s.sqLive p = true → s.sqHdr p (s.fget (SCH_SQ_EPOCH_SLOT p)) = some h → s.stepOver p h = true → (s.sqp p).agreed = none →
      Completes (.stepEnd p) s (fun s' => s'.fget (SCH_SQ_STEP_STEP p) = (s.sqStep p + 1) % 2 ^ 32 ∧ s'.fget (SCH_SQ_POS_NEXT p) = 0 ∧
        (s'.sqp p).rel = [] ∧ (s'.sqp p).fin = [] ∧ (s'.sqp p).combined = none ∧ s'.mem = s.mem)) ∧
    (∀ slot epoch, slot < 2 → epoch < 65536 → s.switchTo p = (slot, epoch) → s.fbit (SCH_SQ_STATUS_MIGRATING p) = true → (s.sqp p).missing = [] →
      (s.sqp p).toSend = [] → (s.sqp p).slowMig = true → s.fbit (SCH_SQ_STATUS_HALTED p) = false →
      (s.sqHdrCheck p slot epoch).1 = 0 → s.fbit (PAL_CTRL_ENABLE p) = false →
      Completes (.migrationComplete p) s (fun s' => s'.fget (SCH_SQ_EPOCH_EPOCH p) = epoch ∧
        s'.fget (SCH_SQ_EPOCH_SLOT p) = slot ∧ s'.fget (SCH_SQ_STATUS_MIGRATING p) = 0 ∧
        s'.fget (SCH_SQ_NEXT_REQ p) =
          (if s.fget (SCH_SQ_NEXT_SLOT p) = slot ∧ s.fget (SCH_SQ_NEXT_EPOCH p) = epoch then 0 else s.fget (SCH_SQ_NEXT_REQ p)) ∧ s'.fget (SCH_SQ_STEP_STEP p) = (s.sqStep p + 1) % 2 ^ 32)) ∧
    (s.fbit (SCH_SQ_CTRL_ENABLE p) = true → s.fbit (SCH_SQ_STATUS_RUNNING p) = true → s.sqReleasable p = false →
      (s.sp p).tasks.any (fun e => e.2.holds) = false →
      Completes (.seqStall p) s (fun s' => s'.fget (SCH_SQ_STATUS_STALLED p) = 1 ∧ s'.mem = s.mem))

/-- SEAL_COMPLETE (R241), DIGEST_MESSAGE_ARRIVAL (R244), REPAIR_REQUEST (R247, R256), REPAIR_RECORD (R247), STEP_VERIFIED (R245) and
DIRTY_SCAN_SEND (R251, R253) complete.
PAL_VERIFIED at a seal, the larger value, is log entry 83 (DEDUCED), one record a message and the payload of a repair request log entry 84 (DEDUCED). -/
def Obligations.PalimpsestRowsComplete : Prop :=
  ∀ (s : State) (p : Nat), p < 16 →
    let x := s.pp p
    let ts := s.tensors p (s.epochNow p)
    let line := fun (d : Nat) => (List.range 512).map (fun i => s.memByte (d + i))
    (∀ t e d dd, x.sealing = true → x.takeover = false → x.thenReseed = false → ts = [(t, e)] → teLines e = 1 → teSlow e = false → s.plain p (teState e) 512 d = true →
      s.plain p (s.digestAddr p t) 64 dd = true →
      (linePieces (s.digestAddr p 0) (64 * ((s.tensorTable p (s.epochNow p)).map (·.2)).getD 0)).all
        (fun pc => !s.poisoned (s.loc p (pc.1 / 512 * 512))) = true →
      Completes (.sealComplete p) s (fun s' => (s'.pp p).sealing = false ∧
        (List.range 0x31).map (fun i => s'.memByte (dd + i)) =
          leBytes 16 (lineHash (line d) % 2 ^ 128) ++ leBytes 16 (lineHash (line d) % 2 ^ 128) ++ leBytes 4 (teStep e) ++ leBytes 4 (teP1 e) ++
            leBytes 4 (teP2 e) ++ leBytes 4 (teApplied e) ++ [1] ∧
        s'.fget (PAL_VERIFIED_STEP p) = max (s.fget (PAL_VERIFIED_STEP p)) (teStep e))) ∧
    (∀ r n slow b, r < 128 → s.bunt p = some b → r < b.reps → r ≠ (b.coord b.self).2.1 → s.fbit (PAL_CTRL_ENABLE p) = true →
      mfind x.msgs (msgKey slow n r) = none →
      ((∀ v, x.ver slow = some v → ∃ k < b.reps, k ≠ r ∧ mfind x.msgs (msgKey slow v.step k) = none) →
        Completes (.digestMessageArrival p r n slow) s (fun s' =>
          mfind (s'.pp p).msgs (msgKey slow n r) = some (s.digestItems p slow r) ∧ s'.mem = s.mem ∧ (s'.pp p).ver slow = x.ver slow)) ∧
      (∀ v t g dd, x.ver slow = some v → v.step = n → v.decided = false → v.left = [t] → mfind (s.digestItems p slow r) t = some g →
        (∀ k < b.reps, k ≠ r → (mfind x.msgs (msgKey slow n k)).bind (fun l => mfind l t) = some g) →
        s.plain p (s.digestAddr p t + 0x30) 1 dd = true →
        Completes (.digestMessageArrival p r n slow) s (fun s' =>
          (s'.pp p).ver slow = some { v with decided := true, left := [] } ∧ s'.memByte dd = 1))) ∧
    (∀ conn t, (∀ a e d, s.tensorEnt p (s.epochNow p) t = some (a, e) → teLines e = 1 → s.plain p (teState e) 512 d = true →
        Completes (.repairRequest p none conn t false) s (fun s' => s'.mem = s.mem ∧
          ∃ r1 r2, s'.zt.int = s.zt.int ++ [zMsg p conn 2 none none r1, zMsg p conn 2 none none r2] ∧
            leAt r1 0 1 = 6 ∧ leAt r1 0x10 4 = t % 2 ^ 32 ∧ leAt r1 0x14 4 = teFirst e ∧ bytesAt r1 48 400 = linePayload (line d) ∧
            leAt r2 0 1 = 3 ∧ leAt r2 0x10 4 = t % 2 ^ 32 ∧ bytesAt r2 48 28 = bytesAt e 0x54 28)) ∧
      (∀ n, n < 4 → (s.mslot p n).moving ≠ [] →
        Completes (.repairRequest p (some n) conn t false) s (fun s' =>
          s'.mslot p n = { s.mslot p n with waits := (s.mslot p n).waits ++ [(conn, t)] } ∧ s'.zt.int = s.zt.int ∧ s'.mem = s.mem))) ∧
    (∀ r a e, s.tensorEnt p (s.epochNow p) (leAt r 0x10 4) = some (a, e) →
      (∀ f d, leAt r 0 1 = 3 → mfind x.fix (leAt r 0x10 4) = some f → f.mode ≠ 1 → f.left ≠ [] →
        (f.mode = 2 → s.mirrorBehind p (leAt r 8 4) f.slow = false) → s.plain p (a + 0x54) 28 d = true →
        Completes (.repairRecord p r) s (fun s' => (List.range 28).map (fun i => s'.memByte (d + i)) = bytesAt r 48 28 ∧
          mfind (s'.pp p).fix (leAt r 0x10 4) = some { f with entry := true })) ∧
      (∀ d, leAt r 0 1 = 6 → lineHash (lineOf (bytesAt r 48 400)) = leAt r 0x20 16 → teFirst e ≤ leAt r 0x14 4 →
        leAt r 0x14 4 < teFirst e + teLines e → mfind x.fix (leAt r 0x10 4) = none → s.fbit (PAL_CTRL_ENABLE p) = false →
        s.plain p (teLineAddr e (leAt r 0x14 4)) 512 d = true → d < 2 ^ 39 →
        Completes (.repairRecord p r) s (fun s' =>
          (List.range 512).map (fun i => s'.memByte (d + i)) = lineOf (bytesAt r 48 400) ∧
          s'.fget (PAL_REPAIRS_COUNT p) = satAdd 32 (s.fget (PAL_REPAIRS_COUNT p)) 1))) ∧
    (∀ slow v t e dd, x.ver slow = some v → v.decided = true → v.left = [] → s.scrubDue p slow v = false → v.commitSent = false →
      s.mirror p = 0 → s.tier p slow = [(t, e)] → s.plain p (s.digestAddr p t) 64 dd = true →
      Completes (.stepVerified p slow) s (fun s' => (s'.pp p).ver slow = none ∧
        s'.fget (if slow then PAL_SLOW_VERIFIED_STEP p else PAL_VERIFIED_STEP p) = v.step % 2 ^ 32 ∧
        (List.range 32).map (fun i => s'.memByte (dd + 16 + i)) =
          leBytes 16 (s.digest p t) ++ leBytes 4 (teStep e) ++ leBytes 4 (teP1 e) ++ leBytes 4 (teP2 e) ++ leBytes 4 (teApplied e))) ∧
    (∀ ap slots d db t e, s.fbit (PAL_CTRL_ENABLE p) = true → s.mirror p = 2 → s.fget (PAL_MIRROR_CONN_CONN p) ≠ 0xFFFFFFFF →
      x.sealing = false → x.fast = none → x.slow = none → x.late = [] → x.describe = [] →
      ahead 32 ap x.applied < 2 ^ 31 → ahead 32 (s.fget (PAL_SENT_SEQ_SEQ p)) ap < 2 ^ 31 → s.streamRoom p 0 ap slots = true → s.shardLines p = 1 → x.next = 0 →
      s.dirty p 0 = true → s.plain p (s.fget (PAL_DIRTY_BASE_BASE p) * 512) 1 db = true →
      (s.setDirty p 0 false).tensors p (s.epochNow p) = [(t, e)] → teLines e = 1 → s.plain p (teState e) 512 d = true →
      Completes (.dirtyScanSend p ap slots) s (fun s' => s'.dirty p 0 = false ∧
        s'.fget (PAL_SENT_SEQ_SEQ p) = (s.fget (PAL_SENT_SEQ_SEQ p) + 1) % 2 ^ 32 ∧
        ∃ r, s'.zt.int = s.zt.int ++ [zMsg p (s.fget (PAL_MIRROR_CONN_CONN p)) 2 none none r] ∧ leAt r 0 1 = 1 ∧
          leAt r 4 4 = s.fget (PAL_SENT_SEQ_SEQ p) ∧ leAt r 0x10 4 = t % 2 ^ 32 ∧
          bytesAt r 48 400 = linePayload ((List.range 512).map (fun i => s'.memByte (d + i)))))

/-- MIRROR_LINE, MIRROR_ENTRY, MIRROR_VERIFY and LOG_MOVE_COMPLETE (R256), MIRROR_DESCRIBE (R255), MIRROR_COMMIT (R254), MIGRATE_RECORD (R235),
LINE_REBUILD (R260), TAKEOVER_NOTICE (R264) and SPARE_STATE_REQUEST (R265) complete.
The payload of the request for the whole state is log entry 84 (DEDUCED). -/
def Obligations.MirrorRowsComplete : Prop :=
  ∀ (s : State) (p : Nat), p < 16 →
    let bytes := fun (s' : State) (d n : Nat) => (List.range n).map (fun i => s'.memByte (d + i))
    (∀ n r, n < 4 →
      let m := s.mslot p n
      let log := s.fget (PAL_MS_LOG_BASE p n) * 64 + 448 * (leAt r 4 4 % s.fget (PAL_MS_SIZE_LOG_SLOTS p n))
      (∀ d, s.msTakes p n = true → lineHash (lineOf (bytesAt r 48 400)) = leAt r 0x20 16 →
        (s.msLine p n (leAt r 0x10 4) (leAt r 0x14 4)).isSome = true → s.inSpace p log 448 = true → s.plain p log 448 d = true →
        Completes (.mirrorLine p n r) s (fun s' => bytes s' d 448 = bytesAt r 0 448 ∧
          (s'.mslot p n).recs = m.recs ++ [(leAt r 4 4, leAt r 0 1, (leAt r 1 1).testBit 0)])) ∧
      (∀ d, s.msTakes p n = true → m.desc.contains (leAt r 0x10 4) = true → s.inSpace p log 448 = true → s.plain p log 80 d = true →
        Completes (.mirrorEntry p n r) s (fun s' => bytes s' d 80 = bytesAt r 0 80 ∧
          (s'.mslot p n).recs = m.recs ++ [(leAt r 4 4, leAt r 0 1, (leAt r 1 1).testBit 0)])) ∧
      (s.fget (PAL_MS_CONN_CONN p n) ≠ 0xFFFFFFFF → leAt r 4 4 = 0 → s.msOut p n = none → leAt r 48 4 ≤ s.fget (PAL_MS_SIZE_BASE_LINES p n) →
        leAt r 48 4 ≤ s.fget (PAL_MS_SIZE_LOG_SLOTS p n) / 2 → s.inSpace p (s.msDesc p n (leAt r 0x10 4)) 64 = true →
        Completes (.mirrorDescribe p n r) s (fun s' => s'.fget (PAL_MS_STATUS_STATE p n) = 1 ∧
          s'.fget (PAL_MS_STATUS_SOURCE p n) = leAt r 2 2 ∧ s'.fget (PAL_MS_APPLIED_SEQ p n) = 0 ∧
          s'.mslot p n = { MSlot.init with epoch := leAt r 0xC 2, lines := leAt r 48 4, desc := [leAt r 0x10 4] })) ∧
      (s.msTakes p n = true →
        Completes (.mirrorCommit p n r) s (fun s' => s'.mem = s.mem ∧
          s'.mslot p n = { m with commit := some (leAt r 4 4), cstep := if (leAt r 1 1).testBit 0 then m.cstep else some (leAt r 8 4)
                                  scommit := if (leAt r 1 1).testBit 0 then some (leAt r 8 4) else m.scommit }) ∧
        Completes (.mirrorVerify p n r) s (fun s' =>
          s'.mslot p n = { m with moving := m.moving ++ [(leAt r 4 4, (leAt r 1 1).testBit 0, leAt r 8 4)] } ∧ s'.mem = s.mem))) ∧
    (∀ n q step, n < 4 → (s.mslot p n).moving = [(q, false, step)] → (s.mslot p n).waits = [] → s.fget (PAL_MS_STATUS_STATE p n) = 1 →
      ((s.mslot p n).recs = [] →
        Completes (.logMoveComplete p n) s (fun s' => (s'.mslot p n).moving = [] ∧ s'.fget (PAL_MS_VSTEP_STEP p n) = step % 2 ^ 32 ∧
          s'.fget (PAL_MS_STATUS_STATE p n) = 2 ∧ s'.mem = s.mem)) ∧
      (∀ k a d dl, (s.mslot p n).recs = [(k, 1, false)] → 0 < ahead 32 q k → ahead 32 q k < 2 ^ 31 → k < 2 ^ 32 →
        ahead 32 (k + 1) (s.fget (PAL_MS_APPLIED_SEQ p n)) < 2 ^ 31 →
        s.plain p (s.fget (PAL_MS_LOG_BASE p n) * 64 + 448 * (k % s.fget (PAL_MS_SIZE_LOG_SLOTS p n))) 448 dl = true →
        s.msLine p n (leAt (bytes s dl 448) 0x10 4) (leAt (bytes s dl 448) 0x14 4) = some a → s.plain p a 512 d = true →
        Completes (.logMoveComplete p n) s (fun s' => (s'.mslot p n).moving = [] ∧ (s'.mslot p n).recs = [] ∧
          s'.fget (PAL_MS_APPLIED_SEQ p n) = (k + 1) % 2 ^ 32 ∧ s'.fget (PAL_MS_VSTEP_STEP p n) = step % 2 ^ 32 ∧
          s'.fget (PAL_MS_STATUS_STATE p n) = 2 ∧ bytes s' d 512 = lineOf (bytesAt (bytes s dl 448) 48 400)))) ∧
    (s.fbit (PAL_CTRL_ENABLE p) = false → ∀ r,
      let new := (s.switchTo p).2
      let l := lineOf (bytesAt r 48 400)
      lineHash l = leAt r 0x20 16 →
      (∀ a e d, leAt r 0 1 = 7 → s.shardLine p new (leAt r 0x10 4) (leAt r 0x14 4) = some (a, e) → s.plain p a 512 d = true →
        Completes (.migrateRecord p r) s (fun s' => bytes s' d 512 = retag new l ∧
          (s'.sqp p).missing = (s.sqp p).missing.filter (fun y => y != (leAt r 0x10 4, leAt r 0x14 4)))) ∧
      (∀ a t e d rep, a < pagedBase → a % 512 = 0 → s.loc p a = .mem p a d → s.closed (.mem p a d) = false → s.lineBad p a d = true →
        s.bias p a = 0 → s.scrubs p = false → s.lineAt p a = some (t, e, leAt r 0x14 4) → leAt r 0x10 4 = t → leAt r 8 4 = teStep e → s.mirrored p = true →
        Completes (.lineRebuild p a (some r) rep []) s (fun s' => bytes s' d 512 = l ∧ s'.lineBad p a d = false))) ∧
    (∀ note b d, s.bunt p = some b → leAt note 0 8 = b.id → leAt note 8 2 < b.n → s.fbit (PAL_CTRL_STANDBY p) = true →
      s.fbit (PAL_STATUS_TAKEN_OVER p) = false → s.plain p (s.buntBase p + 0xA) 2 d = true →
      (∀ m < b.n, (s.takeoverNotice p note).memberConn p m = s.memberConn p m) →
      (s.takeoverNotice p note).bunt p = some { b with self := leAt note 8 2 } →
      Completes (.takeoverNotice p note) s (fun s' => s'.fget (PAL_STATUS_TAKEN_OVER p) = 1 ∧ bytes s' d 2 = leBytes 2 (leAt note 8 2))) ∧
    (∀ c t e, s.fbit (PAL_STATUS_TAKEN_OVER p) = true → s.tensors p (s.epochNow p) = [(t, e)] →
      Completes (.spareStateRequest p (some c)) s (fun s' => s'.zt.int = s.zt.int ++ [zMsg p c 2 none none (leBytes 4 0xFFFFFFFF)] ∧
        s'.fget (PAL_STATUS_RECOVERING p) = 1 ∧ s'.mem = s.mem ∧
        (s'.pp p).fix = [(t, ⟨2, teSlow e, (List.range (teLines e)).map (· + teFirst e), false⟩)]))

/-- PATROL_SCRUB (R275), UE_LIMIT_REACHED, CHANNEL_TRAINING_LOSS and RETRAIN_RESULT (R278), CHANNEL_MAP_OUT (R279, R281), MAP_OUT_SWITCH (R279)
and REKEY_PAGE (R286) complete. -/
def Obligations.ChannelRowsComplete : Prop :=
  ∀ (s : State) (c : Nat), s.chanOk c = true →
    let x := s.chan c
    (s.fget HBM_CTRL_SCRUB_HOURS ≠ 0 → x.state = 0 → s.gateOn (8 + c / 32) = true → s.gateOn 6 = true → s.asleep = false → mget 0 s.hbm.scrub c < 2 ^ 22 →
      Completes (.patrolScrub c none) s (fun s' => mget 0 s'.hbm.scrub c = (mget 0 s.hbm.scrub c + 1) % 2 ^ 22 ∧ s'.mem = s.mem) ∧
      Completes (.patrolScrub c (some 0)) s (fun s' => mget 0 s'.hbm.scrub c = (mget 0 s.hbm.scrub c + 1) % 2 ^ 22 ∧
        s'.fget (HBM_CH_CE_COUNT (c / 32) (c % 32)) = satAdd 32 (s.fget (HBM_CH_CE_COUNT (c / 32) (c % 32))) 1 ∧ s'.mem = s.mem)) ∧
    (∀ e l, mget [] s.hbm.ues c = e :: l → x.state = 0 → x.owner < 24 →
      max 1 (s.fget HBM_CTRL_UE_LIMIT) ≤
        (((e :: l).filter (fun x => decide (e.2 ≤ x.2 + 1000000))).foldl (fun a x => sins a x.1) []).length →
      Completes (.ueLimitReached c) s (fun s' => s'.chan c = { x with state := 3 } ∧ s'.mem = s.mem)) ∧
    (x.state = 0 → s.gateOn (8 + c / 32) = true → Completes (.channelTrainingLoss c) s (fun s' => s'.chan c = { x with state := 4 } ∧ s'.mem = s.mem)) ∧
    (s.gateOn (8 + c / 32) = false → ∀ err, exec (.patrolScrub c err) s = .next s ∧ exec (.channelTrainingLoss c) s = .next s) ∧
    (s.gateOn 6 = false ∨ s.asleep = true → ∀ err, exec (.patrolScrub c err) s = .next s) ∧
    (x.state = 4 →
      Completes (.retrainResult c true) s (fun s' => s'.chan c = { x with state := 0 } ∧ s'.mem = s.mem) ∧
      Completes (.retrainResult c false) s (fun s' => s'.chan c = { x with state := if x.owner < 24 then 3 else 1 } ∧ s'.mem = s.mem)) ∧
    (∀ w, s.hbm.mapJob = none → s.mapNext = some c → s.owner x.owner = some w →
      Completes (.channelMapOut c) s (fun s' => s'.mem = s.mem ∧
        (2 ≤ w.live.length → s'.hbm.mapJob = some c ∧ s'.chan c = x) ∧
        (w.live.length ≤ 1 → s'.hbm.mapJob = none ∧ s'.chan c = { x with state := 2 }))) ∧
    (∀ w, s.hbm.mapJob = some c → s.owner x.owner = some w →
      (16 ≤ x.owner ∨ ((s.sp x.owner).tasks.all (fun e => e.2.st != .spilled) = true ∧ s.fbit (SCH_SQ_CTRL_ENABLE x.owner) = false ∧
        s.fbit (PAL_CTRL_ENABLE x.owner) = false ∧ ∀ n < 4, s.fget (PAL_MS_CONN_CONN x.owner n) = 0xFFFFFFFF)) →
      Completes .mapOutSwitch s (fun s' => s'.hbm.mapJob = none ∧ s'.chan c = { x with state := 1 } ∧
        s'.owner x.owner = some { w with lost := sins w.lost x.slot } ∧ s'.led.mapped = sins s.led.mapped c)) ∧
    (∀ w q, q < 1024 → s.owner x.owner = some w → x.state = 0 → s.tagOf c q ≠ w.cur →
      Completes (.rekeyPage c q []) s (fun s' => s'.tagOf c q = w.cur ∧ s'.mem = s.mem))

/-- RX_FRAME (R291 to R295), PAUSE_REFRESH (R296), PAUSE_FRAME_RECEIVED and PAUSE_EXPIRY (R297), LLDPDU_RECEIVED, LLDP_TRANSMIT and
LLDP_TTL_EXPIRY (R306), VERIFY_FRAME_RECEIVED and PREEMPT_VERIFY_TIMEOUT (R301), TX_FRAME_SENT (R309) complete.
How a frame's cells are counted is log entry 93 (DEDUCED), that a port obeys only the scheme of ETH_FLOW.MODE log entry 94 (DEDUCED), the frames that wait log entry 168 (DEDUCED). -/
def Obligations.EthernetFrameRowsComplete : Prop :=
  ∀ (s : State) (j k : Nat), j < 16 → k < 4 →
    let n := subNo j k
    let none? := fun (s : State) => (s.zt.ctx.filter (fun e => e.2.port == j && e.2.sub == k)).isEmpty
    let free := (s.fget (ETH_STATUS_LPI_TX j)).testBit k = false ∧ s.txNow j k = none
    (∀ b fec fcs, s.subThere j k = true → s.linkUp j k = true → none ∈ fec →
      Completes (.rxFrame j k b fec fcs false) s (fun s' => s'.fget (ETH_STICKY_FEC_UNCORR j) = 1 ∧ s'.mem = s.mem)) ∧
    (∀ b fec, s.subThere j k = true → s.linkUp j k = true → none ∉ fec →
      Completes (.rxFrame j k b fec true false) s (fun s' => s'.fget (ETH_STICKY_FCS_ERR j) = 1 ∧ s'.mem = s.mem) ∧
      (∀ p e q, 60 ≤ b.length → b.length + 4 ≤ clamp 1522 16320 (s.fget (ETH_CTRL_MAXFRAME j)) → beAt b 12 2 ≠ 0x8808 →
        beAt b 0 6 / 16 ≠ 0x0180C200000 → s.portOff j = false → (beAt b 0 6 = s.fget (ETH_MAC_ADDR j k) ∨ beAt b 0 6 = 0xFFFFFFFFFFFF) →
        s.subHolder j k = some p → s.fget (FAB_PART_STATE_P p) ≠ 2 → s.fget (FAB_PART_STATE_P p) ≠ 3 → s.steer j k (frameInfo b) = some (some (e, q)) →
        s.fget PWR_FURL_STATE = 0 →
        let prio := match (frameInfo b).tag with | some t => t.1 | none => s.fget (ETH_CTRL_UNTAGGED_PRIO j)
        s.admits j k prio (ceilDiv (b.length + 4) 256) = true →
        (s.fbit (ETH_Q_CFG_CONSUMER j q) = true → s.fget (ETH_FLOW_MODE j) = 0 →
          Completes (.rxFrame j k b fec false false) s (fun s' =>
            s'.eth.buf = s.eth.buf ++ [⟨j, k, prio, ceilDiv (b.length + 4) 256⟩] ∧ s'.mem = s.mem)) ∧
        (∀ d, p < 16 → s.fbit (ETH_Q_CFG_CONSUMER j q) = false → s.fbit (ETH_Q_CFG_EVENT j q) = false →
          ahead 16 (s.fget (ETH_Q_PTR_HEAD j q)) (s.fget (ETH_Q_PTR_TAIL j q)) < ethSlots (s.fget (ETH_Q_CFG_SIZE_LOG2 j q)) →
          let a := s.fget (ETH_Q_BASE_BASE j q) * 2 ^ 14 + s.fget (ETH_Q_PTR_HEAD j q) % ethSlots (s.fget (ETH_Q_CFG_SIZE_LOG2 j q)) * 2 ^ 14
          s.plain p a (64 + b.length) d = true → s.portStop p j a (64 + b.length) = none →
          Completes (.rxFrame j k b fec false false) s (fun s' =>
            s'.fget (ETH_Q_PTR_HEAD j q) = (s.fget (ETH_Q_PTR_HEAD j q) + 1) % 2 ^ 16 ∧
            (List.range (64 + b.length)).map (fun i => s'.memByte (d + i)) =
              frameSlot k e (mget 0 s.eth.seq (32 * j + q)) prio (frameInfo b) b)))) ∧
    (∀ q e, q < 8 → (s.flowCounts j k).find? (fun e => e.1 == q) = some e → s.linkUp j k = true → s.eth.xoff.contains (8 * n + q) = true →
      s.xonAt j k q < e.2 →
      let o := Out.pause j k (s.fget (ETH_FLOW_MODE j) == 2) [(q, s.fget (ETH_FLOW_QUANTA j))]
      (free → Completes (.pauseRefresh j k q) s (fun s' => s'.out = o :: s.out ∧ s'.mem = s.mem)) ∧
      ((s.fget (ETH_STATUS_LPI_TX j)).testBit k = true → Completes (.pauseRefresh j k q) s (fun s' => s'.out = s.out ∧ s'.mem = s.mem ∧
        mget [] s'.eth.wait n = mget [] s.eth.wait n ++ [o]))) ∧
    (∀ t, s.linkUp j k = true → s.fget (ETH_FLOW_MODE j) = 1 → none? s = true →
      Completes (.pauseFrameReceived j k false [(0, t)]) s (fun s' => s'.mem = s.mem ∧
        ∀ q < 8, s'.eth.paused.contains (8 * n + q) = decide (t ≠ 0))) ∧
    (∀ q, q < 8 → none? s = true →
      Completes (.pauseExpiry j k q) s (fun s' => s'.eth.paused.contains (8 * n + q) = false ∧ s'.mem = s.mem)) ∧
    (∀ pdu eee pre ttl, s.linkUp j k = true → ttl ≠ 0 →
      Completes (.lldpduReceived j k pdu eee pre ttl) s (fun s' => mget [] s'.eth.lldp n = pdu ∧ s'.mem = s.mem ∧
        s'.fget (ETH_LINK_PARTNER_EEE j k) = b2n eee.isSome ∧ s'.fget (ETH_LINK_PARTNER_PREEMPT j k) = b2n pre.isSome ∧
        mget 0 s'.eth.frag n = pre.getD 0 % 4)) ∧
    Completes (.lldpTtlExpiry j k) s (fun s' => mget [] s'.eth.lldp n = [] ∧ s'.fget (ETH_LINK_PARTNER_EEE j k) = 0 ∧
      s'.fget (ETH_LINK_PARTNER_PREEMPT j k) = 0 ∧ s'.fget (ETH_LINK_TW_US j k) = 0 ∧ s'.fget (ETH_LINK_VERIFY j k) = 0 ∧ mget 0 s'.eth.frag n = 0 ∧ s'.mem = s.mem) ∧
    (s.linkUp j k = true → s.fget PWR_FURL_STATE = 0 → free →
      Completes (.lldpTransmit j k) s (fun s' => s'.out =
        .lldp j k (s.fget (ETH_MAC_ADDR 0 0)) (s.fget (ETH_MAC_ADDR j k)) 120 (if s.eeeOffered j then some 6 else none)
          (s.fbit (ETH_PREEMPT_ENABLE j)) :: s.out)) ∧
    (s.linkUp j k = true →
      (free → s.portOff j = false → Completes (.verifyFrameReceived j k false) s (fun s' => s'.out = .verify j k true :: s.out)) ∧
      (s.fget (ETH_LINK_VERIFY j k) = 1 → s.fbit (ETH_PREEMPT_ENABLE j) = true → s.fbit (ETH_LINK_PARTNER_PREEMPT j k) = true →
        s.fbit (ETH_PREEMPT_VERIFY_DISABLE j) = false →
        Completes (.verifyFrameReceived j k true) s (fun s' => s'.fget (ETH_LINK_VERIFY j k) = 2 ∧
          (s'.fget (ETH_STATUS_PREEMPT_ACTIVE j)).testBit k = true))) ∧
    (s.fget (ETH_LINK_VERIFY j k) = 1 →
      (mget 0 s.eth.tries n < 3 → free → s.portOff j = false → Completes (.preemptVerifyTimeout j k) s (fun s' =>
        mget 0 s'.eth.tries n = mget 0 s.eth.tries n + 1 ∧ s'.out = .verify j k false :: s.out)) ∧
      (3 ≤ mget 0 s.eth.tries n → Completes (.preemptVerifyTimeout j k) s (fun s' => s'.fget (ETH_LINK_VERIFY j k) = 3))) ∧
    (s.linkUp j k = true → s.portOff j = true →
      Completes (.verifyFrameReceived j k false) s (fun s' => s' = s)) ∧
    (mget [] s.eth.wait n = [] → none? s = true →
      (∀ f, s.txNow j k = some f →
        Completes (.txFrameSent j k) s (fun s' => s'.mem = s.mem ∧ s'.fget (ETH_TX_PTR_HEAD j k) = (s.fget (ETH_TX_PTR_HEAD j k) + 1) % 2 ^ 16 ∧
          s'.out = (if f.frags = 0 then .frame j k f.bytes else .fragment j k f.frags true (f.bytes.drop f.sent)) :: s.out)) ∧
      (∀ p d d2, p < 16 → s.subHolder j k = some p → s.txQueued j k = true → s.subThere j k = true → s.txNow j k = none →
        let a := s.txSlot j k
        let len := leNat ((List.range 2).map (fun i => s.memByte (d + i)))
        let raw := (List.range len).map (fun i => s.memByte (d2 + i))
        let b := raw.take 6 ++ beBytes 6 (s.fget (ETH_MAC_ADDR j k)) ++ raw.drop 12
        let f := b ++ List.replicate (60 - b.length) 0
        s.plain p a 2 d = true → 14 ≤ len → len ≤ 448 → s.plain p (a + 0x40) len d2 = true → s.portStop p j a 2 = none →
        s.portStop p j (a + 0x40) len = none → s.canSend j k (s.prioOf j f) = true →
        Completes (.txFrameSent j k) s (fun s' => s'.out = .frame j k f :: s.out ∧
          s'.fget (ETH_TX_PTR_HEAD j k) = (s.fget (ETH_TX_PTR_HEAD j k) + 1) % 2 ^ 16 ∧ s'.mem = s.mem)))

/-- LINK_UP and LINK_DOWN (R298), LPI_ENTRY and LPI_EXIT (R302), MODULE_INSERTION (R304) and FURL_COMPLETE (R401) complete.
What furling loses reads as never written (log entry 20, DESIGN CHOICE), and a link comes up only after READY (log entry 98, DEDUCED). -/
def Obligations.LinkRowsComplete : Prop :=
  ∀ (s : State) (j k : Nat), j < 16 → k < 4 →
    (∀ an, s.subThere j k = true → s.linkUp j k = false → (s.cableOf j).fbit (ETH_CABLE_MODULE_HELD j) = false → s.fget PWR_FURL_STATE = 0 →
      s.gen.readyMs.isSome = true → (s.zt.ctx.filter (fun e => e.2.port == j && e.2.sub == k)).isEmpty = true →
      (an = false → (s.cableOf j).fget (ETH_CABLE_MEDIUM j) = 1 → Completes (.linkUp j k an none) s (fun s' => s'.linkUp j k = false ∧ s'.mem = s.mem)) ∧
      (an = true ∨ (s.cableOf j).fget (ETH_CABLE_MEDIUM j) ≠ 1 → Completes (.linkUp j k an none) s (fun s' => s'.fget (ETH_LINK_UP j k) = 1 ∧ s'.fget (ETH_LINK_AN_DONE j k) = b2n an ∧
        (s'.fget (ETH_STATUS_LINK_UP j)).testBit k = true ∧ s'.mem = s.mem)) ∧
      (∀ m r, s.fbit (ETH_CABLE_MODULE_HELD j) = false → Completes (.linkUp j k true (some (m, r))) s (fun s' => s'.fget (ETH_LINK_UP j k) = 1 ∧
        s'.fget (ETH_CABLE_MEDIUM j) = (if m = 1 ∨ s.gen.prsnt.testBit j = true then m % 4 else 0)))) ∧
    (s.linkUp j k = true → Completes (.linkDown j k) s (fun s' => s'.fget (ETH_LINK_UP j k) = 0 ∧ s'.fget (ETH_LINK_AN_DONE j k) = 0 ∧
      (s'.fget (ETH_STATUS_LINK_UP j)).testBit k = false ∧ s'.fget (ETH_STICKY_LINK_DOWN j) = 1 ∧
      mget 0 s'.led.linkDown (subNo j k) = mget 0 s.led.linkDown (subNo j k) + 1 ∧ s'.mem = s.mem)) ∧
    (s.linkUp j k = true → s.fget (ETH_LINK_TW_US j k) ≠ 0 → s.txQueued j k = false → s.txNow j k = none → mget [] s.eth.wait (subNo j k) = [] →
      (s.zt.ctx.filter (fun e => e.2.port == j && e.2.sub == k)).isEmpty = true →
      Completes (.lpiEntry j k) s (fun s' => (s'.fget (ETH_STATUS_LPI_TX j)).testBit k = true ∧ s'.mem = s.mem)) ∧
    (s.fget PWR_FURL_STATE = 0 → (s.zt.ctx.filter (fun e => e.2.port == j && e.2.sub == k)).isEmpty = true →
      Completes (.lpiExit j k) s (fun s' => (s'.fget (ETH_STATUS_LPI_TX j)).testBit k = false ∧ s'.mem = s.mem)) ∧
    (∀ medium reach power, s.portThere j = true → medium % 4 ≠ 0 →
      Completes (.moduleInsertion j medium reach power) s (fun s' => s'.fget (ETH_CABLE_MEDIUM j) = medium % 4 ∧
        s'.fget (ETH_CABLE_REACH_DM j) = reach % 2 ^ 14 ∧ s'.fget (ETH_CABLE_MAX_POWER j) = power % 256 ∧
        s'.fget (ETH_CABLE_MODULE_HELD j) = b2n (decide ((100 : Int) + s.trimByte (0x26 + j) < (power : Int))) ∧ s'.gen.prsnt = setBit s.gen.prsnt j ∧ s'.mem = s.mem)) ∧
    (∀ reach power, s.portThere j = true →
      Completes (.moduleInsertion j 0 reach power) s (fun s' => s'.fget (ETH_CABLE_MEDIUM j) = 0 ∧ s'.gen.prsnt = clearBit s.gen.prsnt j ∧ s'.mem = s.mem)) ∧
    (s.fget PWR_FURL_STATE = 1 → s.pwr.prev = [] → s.pwr.wake = false → (∀ j < 16, ∀ k < 4, s.linkUp j k = false) →
      Completes .furlComplete s (fun s' => s'.fget PWR_FURL_STATE = 2 ∧ s'.hbm.llc = [] ∧ s'.ink = [] ∧ s'.blot = [] ∧ s'.acc = [] ∧
        s'.mem = s.mem ∧ ∀ k < 8, s.stackThere k = true → s'.fget (HBM_STACK_STATUS_SELF_REFRESH k) = 1))

/-- ZTX_SEND_REQUEST (R320, R321), DATA_PACKET (R324), ACK_PACKET (R327), PROBE_PACKET (R330), CLOSE_PACKET (R331), HELLO_PACKET and
HELLO_ACK_PACKET (R316, R317) complete. -/
def Obligations.ZherisPacketRowsComplete : Prop :=
  ∀ (s : State) (i : Nat) (c : Conn),
    (∀ p, p < 16 → s.zOn = true →
      (∀ r d, s.zt.int.find? (fun r => r.part == p && r.client == 5) = none → s.stopped = false → s.zt.int.find? (fun r => r.part == p) = some r → s.partConn p r.conn = some (i, c) → s.fatal = false →
        r.client ≠ 5 → r.data = some d → r.bytes = d.length → 0 < d.length → d.length ≤ 2 ^ c.seg → d.length < 2 ^ 32 → r.remote.isSome = true →
        c.state = 3 → c.resident = true → c.quiet = true → c.away = false → c.msgs = [] → c.flight = [] → ahead 32 c.nextSeq c.peerDone < 16 →
        c.nextPn < 2 ^ 48 - 1 → s.mayGo i c = true →
        Completes (.ztxSendRequest p true) s (fun s' => s'.zt.int = s.zt.int.erase r ∧ s'.mem = s.mem ∧
          (∃ f body, s'.out = .zheris i f :: s.out ∧ leAt f.header 0 1 = 0x11 ∧ f.body ++ f.gcm = c.sealed c.nextPn f.header body ∧
            bytesAt body 32 d.length = d) ∧
          ∃ c', mfind s'.zt.ctx i = some c' ∧ c'.nextSeq = (c.nextSeq + 1) % 2 ^ 32 ∧ c'.nextPn = c.nextPn + 1 ∧
            c'.flight = [(c.nextPn, (c.nextSeq, 0))])) ∧
      (∀ d, s.stopped = false → s.fbit (ZTX_P_CTRL_ENABLE p) = true → s.fget (ZTX_P_SQ_HEAD_HEAD p) ≠ s.fget (ZTX_P_SQ_TAIL_TAIL p) →
        let a := s.fget (ZTX_P_SQ_BASE_BASE p) * 64 +
          64 * (s.fget (ZTX_P_SQ_HEAD_HEAD p) % 2 ^ clamp 4 16 (s.fget (ZTX_P_SQ_CFG_SIZE_LOG2 p)))
        s.inSpace p a 64 = true → s.plain p a 64 d = true → s.memByte d = 0 →
        Completes (.ztxSendRequest p false) s (fun s' => s'.fget (ZTX_P_SQ_HEAD_HEAD p) = (s.fget (ZTX_P_SQ_HEAD_HEAD p) + 1) % 2 ^ 17 ∧
          s'.zt = s.zt ∧ s'.mem = s.mem))) ∧
    (∀ k : ZPkt,
      let pn := leAt k.header 8 6
      let low := pn ≤ c.largest + 1 ∧ (leAt k.header 1 1).testBit 0 = false ∧ pn < 2 ^ 48 - 1
      (∀ b r dp, c.part < 16 → s.arrives k b 1 3 i c = true → s.alone i c = true → c.quiet = true → low → c.unacked + 1 < max 1 (s.fget ZTX_ACK_CFG_ACK_PKTS) →
        let d := parseData b
        d.ok c b = true → d.seq = c.rcvDone → mfind c.recs d.seq = some r → r.agrees d = true → r.refused = false →
        d.mflags.testBit 2 = false → r.segs.contains (d.off / 2 ^ c.seg) = false → r.segs.length + 1 < segCount c.seg r.len →
        s.plain c.part (d.addr + d.off) d.payload.length dp = true → s.portStop c.part c.port (d.addr + d.off) d.payload.length = none →
        Completes (.dataPacket k) s (fun s' => (List.range d.payload.length).map (fun i => s'.memByte (dp + i)) = d.payload ∧
          ∃ c', mfind s'.zt.ctx i = some c' ∧ c'.rxPkts = (c.rxPkts + 1) % 2 ^ 32 ∧ c'.rxCe = (c.rxCe + b2n k.ce) % 2 ^ 32 ∧
            c'.pns = addPn c.pns pn ∧ mfind c'.recs d.seq = some { r with segs := sins r.segs (d.off / 2 ^ c.seg) } ∧ c'.rcvDone = c.rcvDone)) ∧
      (∀ b rtt m t seq q, s.arrives k b 2 3 i c = true → s.alone i c = true → c.ackDue = false → c.probeDue = false → c.resend = [] → c.fresh = [] →
        low → c.reqs = [t] → c.msgs = [(seq, m)] → m.segs = [0] → c.flight = [(q, (seq, 0))] → c.late = [] → t.left = [seq] → t.cut = c.parts t.r →
        t.invalid = false → t.refused = false → t.poisoned = false → t.r.flags.testBit 2 = false → t.r.flags.testBit 3 = false → t.r.cb = .none →
        leAt b 0x18 1 = 1 → 0x28 ≤ b.length → zeroAt b 0x1A 2 = true → leAt b 0x19 1 = 0 → leAt b 0x10 6 = q → leAt b 0x20 4 = 0 →
        Completes (.ackPacket k rtt) s (fun s' => s'.mem = s.mem ∧ ∃ c', mfind s'.zt.ctx i = some c' ∧ c'.reqs = [] ∧ c'.flight = [] ∧
          c'.msgs = [] ∧ c'.peerDone = leAt b 0 4 ∧ c'.rxNow = (leAt b 4 4, leAt b 8 4))) ∧
      (∀ b, s.arrives k b 3 3 i c = true → zeroAt b 0 8 = true → c.quiet = true → c.tell = [] → c.nextPn < 2 ^ 48 - 1 → pn < 2 ^ 48 - 1 →
        s.fatal = false → s.mayGo i c = true →
        Completes (.probePacket k) s (fun s' => s.sent s' i 0x12 ∧ s'.mem = s.mem ∧
          ∃ c', mfind s'.zt.ctx i = some c' ∧ c'.ackDue = false ∧ c'.unacked = 0 ∧ c'.nextPn = c.nextPn + 1)) ∧
      (∀ b, s.arrives k b 4 3 i c = true → s.alone i c = true → zeroAt b 1 7 = true → c.reqs = [] →
        Completes (.closePacket k) s (fun s' => s'.mem = s.mem ∧ ∃ c', mfind s'.zt.ctx i = some c' ∧ c'.state = 5 ∧ c'.closeTries = 3 ∧ c'.msgs = [] ∧
          c'.flight = [] ∧ c'.recs = [])) ∧
      (zeroAt k.body 6 2 = true → c.quiet = true →
        (s.comes k 8 1 i c = true → s.helloOk c k 0x30 = true → c.role ≠ 0 → s.fatal = false → s.fbit SEC_STATUS_RNG_FAULT = false → s.mayGo i c = true →
          Completes (.helloPacket k) s (fun s' => s.sent s' i 0x19 ∧ s'.mem = s.mem ∧
            ∃ c', mfind s'.zt.ctx i = some c' ∧ c'.state = 3 ∧ c'.nonceI = bytesAt k.body 0x10 32 ∧ c'.seg = min (leAt c.desc 7 1) (leAt k.body 5 1))) ∧
        (s.comes k 9 2 i c = true → s.helloOk c k 0x50 = true → s.alone i c = true → bytesAt k.body 0x30 32 = c.nonceI →
          Completes (.helloAckPacket k) s (fun s' => s'.mem = s.mem ∧
            ∃ c', mfind s'.zt.ctx i = some c' ∧ c'.state = 3 ∧ c'.nonceR = bytesAt k.body 0x10 32 ∧ c'.rate = s.lineRate c))))

/-- HELLO_REPEAT and SETUP_TIMEOUT (R317), CLOSE_REPEAT (R331), RTO_EXPIRY and ACK_DELAY_EXPIRY (R325, R327), RATE_PERIOD and RATE_IDLE_RESET (R329),
KEEPALIVE_EXPIRY and PEER_UNREACHABLE (R330), CONTEXT_FETCH_COMPLETE (R334, R335) complete. -/
def Obligations.ZherisTimerRowsComplete : Prop :=
  ∀ (s : State) (n i : Nat) (c : Conn), s.zOn = true →
    (s.findConn n = some (i, c) →
      (c.state = 2 →
        (c.role = 0 → s.fatal = false → s.mayGo i c = true → Completes (.helloRepeat n) s (fun s' => s.sent s' i 0x18 ∧ s'.mem = s.mem ∧
          ∃ c', mfind s'.zt.ctx i = some c' ∧ c'.state = 2 ∧ c'.nextPn = c.nextPn ∧ c'.nonceI = c.nonceI)) ∧
        (c.reqs = [] → c.part < 16 → s.fbit (ZTX_P_FAULT_VALID c.part) = false → Completes (.setupTimeout n) s (fun s' => s'.mem = s.mem ∧
          s'.fget (ZTX_P_FAULT_VALID c.part) = 1 ∧ s'.fget (ZTX_P_FAULT_CODE c.part) = 4 ∧ s'.fget (ZTX_P_FAULT_CONN_CONN c.part) = n % 2 ^ 32 ∧
          ∃ c', mfind s'.zt.ctx i = some c' ∧ c'.state = 5))) ∧
      (c.state = 5 → c.closeTries < 3 → c.keys ≠ [] → c.nextPn < 2 ^ 48 → s.fatal = false → s.mayGo i c = true →
        Completes (.closeRepeat n) s (fun s' => s.sent s' i 0x14 ∧ ∃ c', mfind s'.zt.ctx i = some c' ∧ c'.closeTries = c.closeTries + 1 ∧
          c'.nextPn = c.nextPn + 1)) ∧
      ((c.state = 3 ∨ c.state = 4) →
        (∀ pn e al, mfind c.flight pn = some e → s.zCanSend c = false → s.alone i c = true → Completes (.rtoExpiry n pn al) s (fun s' => s'.mem = s.mem ∧
          mfind s'.zt.ctx i = some { c with
            flight := mdel c.flight pn, resend := c.resend ++ [e], late := mins c.late pn e, away := false, rto := min s.rtoMax (2 * c.rto),
            rate := s.rateMin.max (c.rate.div 2), goodN := 0, probeDue := c.probeDue || al })) ∧
        (c.unacked ≠ 0 → c.pns ≠ [] → c.tell = [] → c.reqs = [] → c.resend = [] → c.fresh = [] → c.probeDue = false → c.resident = true →
          c.nextPn < 2 ^ 48 - 1 → s.fatal = false → s.mayGo i c = true →
          Completes (.ackDelayExpiry n) s (fun s' => s.sent s' i 0x12 ∧ ∃ c', mfind s'.zt.ctx i = some c' ∧ c'.unacked = 0 ∧ c'.ackDue = false)) ∧
        (c.reqs ≠ [] → Completes (.ratePeriod n) s (fun s' => mfind s'.zt.ctx i = some (s.ratePeriod c) ∧ s'.mem = s.mem)) ∧
        Completes (.rateIdleReset n) s (fun s' => mfind s'.zt.ctx i = some { c with rate := s.lineRate c, cong := ⟨0, 1⟩ } ∧ s'.mem = s.mem))) ∧
    (∀ p id, p < 16 → mfind s.zt.ctx i = some c → c.part = p → c.peerId = id → c.state = 3 →
      (s.connsOf p = [(i, c)] → c.resident = true → c.quiet = true → c.nextPn < 2 ^ 48 - 1 → s.fatal = false → s.mayGo i c = true →
        Completes (.keepaliveExpiry p id) s (fun s' => s.sent s' i 0x13 ∧
          ∃ c', mfind s'.zt.ctx i = some c' ∧ c'.probeDue = false ∧ c'.nextPn = c.nextPn + 1)) ∧
      ((∀ b, s.bunt p = some b → b.n = 0) →
        Completes (.peerUnreachable p id) s (fun s' => mfind s'.zt.ctx i = some { c with state := 4 } ∧ s'.mem = s.mem))) ∧
    (∀ rtts, mfind s.zt.ctx i = some c → s.zt.fetch.contains i = true → c.resident = false → s.hostLost c.part = false →
      (c.quiet = true → s.alone i c = true → s.zt.miss.all (fun e => e.1 != i) = true → ((s.connsOf c.part).filter (fun e => e.2.resident)).length < s.onchip c.part →
        Completes (.contextFetchComplete i true rtts) s (fun s' => s'.zt.fetch.contains i = false ∧ s'.mem = s.mem ∧
          ∃ c', mfind s'.zt.ctx i = some c' ∧ c'.resident = true ∧ c'.state = c.state)) ∧
      (c.reqs = [] → c.part < 16 → s.fbit (ZTX_P_FAULT_VALID c.part) = false →
        Completes (.contextFetchComplete i false rtts) s (fun s' => s'.fget (ZTX_P_FAULT_CODE c.part) = 3 ∧ s'.mem = s.mem ∧
          ∃ c', mfind s'.zt.ctx i = some c' ∧ c'.state = 5 ∧ c'.endStatus = 4)))

/-- The block takes its commands in order (its sources' accesses arrive in order, R30): step of a state whose queue begins with `c` is exec of `c` on
the state with the queue's rest. -/
def Obligations.StepRunsTheFrontCommand : Prop :=
  ∀ (s : State) (c : Instr) (rest : List Instr), s.pending = c :: rest → step s = exec c { s with pending := rest }

/-- On an empty queue the block idles: the model's choice (log entry 1). No word spells a command. -/
def Obligations.EmptyQueueIdles : Prop :=
  ∀ (s : State), (s.pending = [] → step s = .next s) ∧ ∀ n w, decodeTableWord n w = none ∧ s.withFetchWord n w = s

/-- An ill-formed command stops: its units are none of the device's (R2, R11, R14, R24). The model's choice (log entry 2). -/
def Obligations.AbsentUnitsStopTheRow : Prop :=
  ∀ (i : Instr) (s : State), wellFormed i = false → exec i s = .fault .noSuchUnit

/-- What reset leaves (R452 and the field maps' reset columns). -/
def Obligations.ResetValues : Prop :=
  (∀ (f : Fld) (r : Nat), f.src = .stored r → State.reset.fget f = r % 2 ^ f.width) ∧
  State.reset.fget HBM_CTRL_SCRUB_HOURS = 24 ∧ State.reset.fget HBM_CTRL_UE_LIMIT = 4 ∧ State.reset.fget GEN_BUSERR_STATUS_VALID = 0 ∧
  (∀ p, State.reset.fget (ZTX_P_FAULT_CONN_CONN p) = 0xFFFFFFFF ∧ State.reset.fget (SCH_SQ_CTRL_ENABLE p) = 0 ∧
    State.reset.fget (PAL_CTRL_ENABLE p) = 0 ∧ State.reset.connsOf p = []) ∧
  (∀ t, State.reset.fget (TIL_MX_CTRL_ENABLE t) = 0 ∧ State.reset.fget (TIL_NB_CTRL_ENABLE t) = 0) ∧
  State.reset.fab.image = none ∧ State.reset.zt.ctx = [] ∧ State.reset.sec.sess = [] ∧ State.reset.pending = []

/-- The invariant of MemoriesStayCanonical holds at reset. -/
def Obligations.ResetIsCanonical : Prop := State.reset.wf = true

/-- Every step from a state whose memories are canonical leaves them canonical. -/
def Obligations.MemoriesStayCanonical : Prop := ∀ (s t : State), s.wf = true → step s = .next t → t.wf = true

/-- The fuses never change (R15, R404, R457), and the registers that show the tiles' fused states do not either (R16). -/
def Obligations.FusesNeverChange : Prop :=
  ∀ (s t : State), step s = .next t → t.fuse = s.fuse ∧ ∀ n < 152, t.tileFuse n = s.tileFuse n

/-- exec leaves the queue of waiting commands alone. -/
def Obligations.CommandsLeaveTheQueueAlone : Prop := ∀ (c : Instr) (s t : State), exec c s = .next t → t.pending = s.pending

/-- R26, for 32-bit and 64-bit accesses. -/
def Obligations.OffsetsWithoutARegister : Prop :=
  ∀ (s : State) (src : Src) (off w v : Nat), s.ready src off = true → (w = 4 ∨ w = 8) → s.busCause off w = 0 →
    (∀ a, off ≤ a → a < off + w → regAt a = none ∧ within a 0xA08000 0x100 16 = none) →
    Completes (.registerRead src off w) s (fun t => t = { s with split := t.split, out := .readData src 0 :: s.out }) ∧
    Completes (.registerWrite src off w v) s (fun t => t = { s with split := t.split })

/-- Bus errors (R27 to R29), for reads and writes of every source. -/
def Obligations.BusErrorsAreRecorded : Prop :=
  ∀ (s : State) (src : Src) (off w v : Nat), s.reaches src off = true → s.busCause off w ≠ 0 →
    let core := fun (wr : Bool) (t : State) =>
      t = { s with fields := t.fields, evt := t.evt, out := t.out } ∧ t.fget GEN_BUSERR_STATUS_VALID = 1 ∧
      (s.fget GEN_BUSERR_STATUS_VALID = 0 → t.fget GEN_BUSERR_STATUS_SOURCE = srcCode src ∧ t.fget GEN_BUSERR_STATUS_WRITE = b2n wr ∧
        t.fget GEN_BUSERR_STATUS_CAUSE = s.busCause off w ∧ t.fget GEN_BUSERR_ADDR_OFFSET = off % 2 ^ 25 ∧ t.fget GEN_BUSERR_STATUS_COUNT = 1) ∧
      (s.fget GEN_BUSERR_STATUS_VALID = 1 →
        (∀ f ∈ [GEN_BUSERR_STATUS_SOURCE, GEN_BUSERR_STATUS_WRITE, GEN_BUSERR_STATUS_CAUSE, GEN_BUSERR_ADDR_OFFSET], t.fget f = s.fget f) ∧
        t.fget GEN_BUSERR_STATUS_OVERFLOW = 1 ∧ t.fget GEN_BUSERR_STATUS_COUNT = min 255 (s.fget GEN_BUSERR_STATUS_COUNT + 1)) ∧
      ∀ (f : Fld) (r : Nat), f.src = .stored r → f.lo < 128 → f.off ≠ 0x20 → f.off ≠ 0x24 → f.off ≠ 0x41000 → f.off ≠ 0x41008 →
        ¬ (0x40010 ≤ f.off ∧ f.off < 0x40024) → t.fget f = s.fget f
    Completes (.registerRead src off w) s (fun t => core false t ∧ t.out = .busError src (s.busCause off w) :: s.out) ∧
    Completes (.registerWrite src off w v) s (fun t => core true t ∧
      t.out = (if srcCode src = 0 then s.out else .busError src (s.busCause off w) :: s.out))

/-- R310. -/
def Obligations.WatermarksActInTheirRange : Prop :=
  ∀ (s : State) (j k q : Nat),
    let x := s.fget (ETH_WM_XOFF j k q)
    let n := s.fget (ETH_WM_XON j k q)
    (x = 0 → s.xoffAt j k q = 1) ∧ (s.share j < x → s.xoffAt j k q = s.share j) ∧ (0 < x → x ≤ s.share j → s.xoffAt j k q = x) ∧
    (s.xoffAt j k q ≤ n → s.xonAt j k q = s.xoffAt j k q - 1) ∧ (n < s.xoffAt j k q → s.xonAt j k q = n)

/-- R439. -/
def Obligations.FullEventRingsLoseTheRecord : Prop :=
  ∀ (s : State) (e : Ev) (p d : Nat), p < 16 → s.evt.pend = [e] → e.parts = [(p, d)] → e.nmi = false → e.pennant = false → e.typ ≠ 0x30 →
    (s.fbit (EVT_P_CFG_ENABLE p) = true → s.fget (EVT_P_CFG_MIN_SEV p) ≤ e.sev →
      s.evtSlots p ≤ ahead 16 (s.fget (EVT_P_PTR_HEAD p)) (s.fget (EVT_P_PTR_TAIL p)) →
      Completes .eventDelivery s (fun t => t.mem = s.mem ∧ t.fget (EVT_P_LOST_COUNT p) = satAdd 32 (s.fget (EVT_P_LOST_COUNT p)) 1 ∧
        t.fget (EVT_P_STATUS_RING_FULL p) = 1 ∧ t.evt.pend = [] ∧
        ∀ (f : Fld) (r : Nat), f.src = .stored r → f.key ≠ (EVT_P_LOST_COUNT p).key → f.key ≠ (EVT_P_STATUS_RING_FULL p).key → t.fget f = s.fget f)) ∧
    (s.fbit (EVT_P_CFG_ENABLE p) = false →
      Completes .eventDelivery s (fun t => t.mem = s.mem ∧ t.fields = s.fields ∧ t.evt.pend = []))

/-- The checks' outcome (R83, R135), for each row of the matrix array, the nib array and the movers. -/
def Obligations.FailedChecksHaltTheRing : Prop :=
  ∀ (s : State) (t n op : Nat) (c : Instr),
    let after := fun (u : TU) (code : Nat) (s' : State) =>
      s'.halted t u = true ∧ s'.fget (u.head t) = s.fget (u.head t) ∧ s'.fget (u.doneF t) = s.fget (u.doneF t) ∧
      s'.ink = s.ink ∧ s'.blot = s.blot ∧ s'.acc = s.acc ∧ s'.mem = s.mem ∧ s'.fget (u.valid t) = 1 ∧
      (s.fget (u.valid t) = 0 → s'.fget (u.codeF t) = code ∧ s'.fget (u.index t) = s.fget (u.head t)) ∧
      (s.fget (u.valid t) = 1 → s'.fget (u.codeF t) = s.fget (u.codeF t) ∧ s'.fget (u.index t) = s.fget (u.index t))
    let bad := fun (u : TU) (here : Prop) (code : Nat) => s.slotOut t u = true ∨ (here ∧ s.leastCode t u code ≠ 0)
    let least := fun (u : TU) (code : Nat) => if s.slotOut t u then 4 else s.leastCode t u code
    let mx := (s.mxSlot t).check (s.tile t).mxEt5
    let nb := (s.nbSlot t).check
    let sm := (s.smSlot t n).check n
    t < 152 →
    ((c, op) ∈ [(Instr.mxNop t, 0), (.mxMma t, 1), (.mxDrain t, 2), (.mxLoad t, 3)] → s.canFetch t .mx = true →
      bad .mx ((s.mxSlot t).op = op ∨ 3 < (s.mxSlot t).op) mx → Completes c s (after .mx (least .mx mx))) ∧
    ((c, op) ∈ [(Instr.nibNop t, 0), (.nibMap t, 1), (.nibReduce t, 2), (.nibSoftmax t, 3), (.nibCompress t, 4), (.nibExpand t, 5), (.nibMxpack t, 6),
        (.nibMxunpack t, 7), (.nibEt5 t, 8), (.nibWait t, 9), (.nibPost t, 10)] → s.canFetch t .nb = true → (s.tile t).shadow = none →
      bad .nb ((s.nbSlot t).d.op = op ∨ 10 < (s.nbSlot t).d.op) nb → Completes c s (after .nb (least .nb nb))) ∧
    (n < 2 → (c, op) ∈ [(Instr.moverNop t n, 0), (.moverCopy t n [], 1), (.moverWait t n, 2)] → s.canFetch t (.sm n) = true →
      (s.slotOut t (.sm n) = false → s.slotLocked t (.sm n) = true → exec c s = .next s) ∧
      ((s.slotOut t (.sm n) = true ∨ s.slotLocked t (.sm n) = false) → bad (.sm n) ((s.smSlot t n).op = op ∨ 2 < (s.smSlot t n).op) sm → Completes c s (after (.sm n) (least (.sm n) sm))))

/-- R340: an access to another partition's group. -/
def Obligations.OtherPartitionsAreClosedToAHost : Prop :=
  ∀ (s : State) (f off v q : Nat), s.ready (.host f) off = true → placeOf off = .part q → s.fnPart f ≠ some q →
    (∀ r, regAt off = some r → placeOf r.off = .part q) →
    ((s.splitOf (.host f)).latch = none →
      Completes (.registerRead (.host f) off 4) s (fun t => t = { s with split := t.split, out := .readData (.host f) 0 :: s.out })) ∧
    Completes (.registerWrite (.host f) off 4 v) s (fun t => t = { s with split := t.split })

/-- Roles (R420, R422): what an operator's session asks of an installer's operations. -/
def Obligations.InstallerRowsNeedTheRole : Prop :=
  ∀ (s : State) (x : Jex) (u : Sess) (c : Instr) (op n i r f a : Nat) (d k nm sg : List Byte) (b1 b2 : Bool),
    x.sess < 8 → s.jexServed = true → mfind s.sec.sess x.sess = some u → u.closing = false → x.bad = false → u.cred.isSome = true →
    s.fbit SEC_STATUS_RECOVERY = false → s.sessRole u < 2 → i < 4 → (r = 1 ∨ r = 2) → s.gen.resetAfter = false →
    d.length ≤ 0x100100 → sg.length ≤ 0x100100 →
    (c, op) ∈ [(Instr.fwBegin x n, 0x11), (.fwChunk x n d, 0x12), (.fwEnd x b1 b2, 0x13), (.fwCommit x, 0x14), (.keyslotEnroll x i k, 0x15),
      (.keyslotRevoke x i b1, 0x16), (.credAdd x k r nm, 0x17), (.credRemove x n, 0x18), (.netConfig x d, 0x19), (.trimWrite x d, 0x1A),
      (.rootDisable x i, 0x1B), (.reset x, 0x1C), (.makerChallenge x n, 0x20), (.makerUnlock x sg, 0x21), (.makerFn x f a, 0x22)] →
    Completes c s (fun t => t.out = .jex x.sess op 2 x.tag [] :: s.out ∧
      ∃ h, t = { s with out := t.out, nv := { s.nv with logSeq := s.nv.logSeq + 1 }, sec := { s.sec with openRec := none, held := h } })

/-- R314: the tag of a packet is checked before anything else is made of it. -/
def Obligations.UnauthenticatedPacketsChangeNothing : Prop :=
  ∀ (s : State) (k : ZPkt) (i rtt typ : Nat) (c : Conn) (row : Instr), s.zOn = true → subOk k.port k.sub = true →
    s.eth.buf.find? (fun f => f.port == k.port && f.sub == k.sub) = none → headerOk k.header = true → leAt k.header 0 1 % 16 = typ →
    s.findConn (leAt k.header 4 4) = some (i, c) → s.subHolder k.port k.sub = some c.part → s.fget (FAB_PART_STATE_P c.part) ≠ 2 →
    s.fget (FAB_PART_STATE_P c.part) ≠ 3 → c.resident = true → c.opened (leAt k.header 8 6) k.header k.body = none → (c.state = 3 ∨ c.state = 4 ∨ c.state = 5) →
    s.portOff k.port = false →
    (row, typ) ∈ [(Instr.dataPacket k, 1), (.ackPacket k rtt, 2), (.probePacket k, 3), (.closePacket k, 4)] →
    Completes row s (fun t => t = { s with fields := t.fields } ∧ t.fget ZTX_AUTH_FAIL_COUNT = satAdd 32 (s.fget ZTX_AUTH_FAIL_COUNT) 1 ∧
      ∀ (f : Fld) (r : Nat), f.src = .stored r → f.key ≠ ZTX_AUTH_FAIL_COUNT.key → t.fget f = s.fget f)

/-- R323, R324: the region decides for the whole message. -/
def Obligations.MessagesOutsideTheRegionsWriteNothing : Prop :=
  ∀ (s : State) (k : ZPkt) (b : List Byte) (i : Nat) (c : Conn), s.arrives k b 1 3 i c = true → s.alone i c = true → c.quiet = true → c.part < 16 → c.recs = [] →
    s.recsOf c.part < s.recQuota c.part → s.recsAll < 16384 → s.zCanSend c = false →
    let d := parseData b
    d.ok c b = true → d.seq ≠ c.rcvDone → ¬ (ahead 32 c.rcvDone d.seq ≠ 0 ∧ ahead 32 c.rcvDone d.seq < 2 ^ 31) →
    s.regionOk c.part c.group d.addr d.len = false → (s.regionEnts c.part).all (fun e => (s.memGet c.part e 32).isSome) = true → leAt k.header 8 6 < 2 ^ 48 - 1 →
    Completes (.dataPacket k) s (fun t => t.mem = s.mem ∧ t.host = s.host ∧ t.ink = s.ink ∧ t.fget (ZTX_P_FAULT_VALID c.part) = 1 ∧
      (s.fget (ZTX_P_FAULT_VALID c.part) = 0 → t.fget (ZTX_P_FAULT_CODE c.part) = 2) ∧ t.fget FAB_VIOLATION_STATUS_VALID = 1 ∧
      (s.fget FAB_VIOLATION_STATUS_VALID = 0 → t.fget FAB_VIOLATION_STATUS_KIND = 5 ∧ t.fget FAB_VIOLATION_STATUS_PARTITION = c.part ∧
        t.fget FAB_VIOLATION_ADDR_ADDR = d.addr % 2 ^ 64) ∧
      ∃ c' r, mfind t.zt.ctx i = some c' ∧ mfind c'.recs d.seq = some r ∧ r.refused = true ∧ c'.tell = c.tell ++ [d.seq])

/-- The frame of the nib array's rows (R105, R107, R111, R135): every inkwell byte outside the descriptor's output ranges, and all other memory. -/
def Obligations.NibDescriptorsWriteOnlyTheirOutputs : Prop :=
  ∀ (s s' : State) (t : Nat) (c : Instr),
    c ∈ [Instr.nibNop t, .nibMap t, .nibReduce t, .nibSoftmax t, .nibCompress t, .nibExpand t, .nibMxpack t, .nibMxunpack t, .nibWait t, .nibWaitMet t,
      .nibPost t] →
    exec c s = .next s' →
    (∀ k, (∀ o ∈ (s.nbSlot t).outRanges, ∀ a, o.2.1 ≤ a → a ≤ o.2.2 → k ≠ s.inkKey t a) → mget 0 s'.ink k = mget 0 s.ink k) ∧
    s'.mem = s.mem ∧ s'.host = s.host ∧ s'.blot = s.blot ∧ ∀ k, mget 0 s'.acc k = mget 0 s.acc k

/-- The frame of every row outside the tiles' own (R105, R141, R192). -/
def Obligations.TileMemoriesChangeOnlyByTheirRows : Prop :=
  ∀ (c : Instr) (s t : State), keepsTiles c = true → exec c s = .next t → t.ink = s.ink ∧ t.blot = s.blot ∧ t.acc = s.acc

/-- The frame of device memory for the rows that store nothing to it, and for those that store nothing but a record they produce for the host (R354). -/
def Obligations.MemoryChangesOnlyByStoringRows : Prop :=
  ∀ (c : Instr) (s t : State), exec c s = .next t →
    (keepsMemory c = true → ∀ a, t.memByte a = s.memByte a) ∧
    (storesRecords c = true → (∀ p < 16, (t.hp p).made = (s.hp p).made) → ∀ a, t.memByte a = s.memByte a)

/-- What may change the flash's trust (R407, R409, R411, R414, R415, R458): all but the rows named. -/
def Obligations.TrustChangesOnlyByItsOperations : Prop :=
  ∀ (c : Instr) (s t : State), exec c s = .next t →
    ((∀ x i k, c ≠ .keyslotEnroll x i k) → (∀ x i b, c ≠ .keyslotRevoke x i b) → (∀ x f a, c ≠ .makerFn x f a) → t.nv.slots = s.nv.slots) ∧
    ((∀ x k r n, c ≠ .credAdd x k r n) → (∀ x i, c ≠ .credRemove x i) → (∀ x f a, c ≠ .makerFn x f a) →
      (∀ x k, c ≠ .enrollFirst x k) → t.nv.creds = s.nv.creds) ∧
    ((∀ x i, c ≠ .rootDisable x i) → (∀ x f a, c ≠ .makerFn x f a) → t.nv.rootEn = s.nv.rootEn) ∧
    ((∀ x b, c ≠ .netConfig x b) → t.nv.net = s.nv.net) ∧ ((∀ x b, c ≠ .trimWrite x b) → t.nv.trim = s.nv.trim) ∧
    ((∀ x a b, c ≠ .fwEnd x a b) → t.nv.fw = s.nv.fw) ∧ ((∀ x, c ≠ .fwCommit x) → c ≠ .vinFall → t.nv.fwFloor = s.nv.fwFloor) ∧ t.nv.cert = s.nv.cert

/-- Conversions of exact values (R58, R59, R62, R63, R77). -/
def Obligations.RepresentableValuesConvertExactly : Prop :=
  (∀ (f : Fmt) (v : Nat) (sat rtz : Bool), f.isInt = false → f ≠ .acc48 → v < 2 ^ f.bits → (decodeNum f v).isFin = true →
    toFmt f sat rtz (decodeNum f v) = (v, .normal)) ∧
  (∀ v, v < 2 ^ 48 → bitsAt v 37 10 ≠ 2 ^ 10 - 1 → (bitsAt v 37 10 ≠ 0 ∨ v % 2 ^ 37 = 0) → rne48 (acc48 v) = v)

/-- Packed rows (R61, R110). -/
def Obligations.PackedRowsReadBack : Prop :=
  ∀ (w : Nat) (vs : List Nat), (w = 4 ∨ w = 6) → (∀ v ∈ vs, v < 2 ^ w) →
    (packRow w vs).length = ceilDiv (vs.length * w) 8 ∧ (∀ k, (h : k < vs.length) → packedGet w (packRow w vs) k = vs[k]) ∧
    leNat (packRow w vs) < 2 ^ (vs.length * w)

/-- The memory layout (R269, R277, R279). -/
def Obligations.MapOutKeepsAddressesApart : Prop :=
  ∀ (w : Owner) (a : Nat), w.chs.Nodup → w.lost.Pairwise (· < ·) → (∀ k ∈ w.lost, k < w.chs.length) → w.lost.length < w.chs.length → a < w.size →
    (∃ d, w.toDpa a = some d ∧ w.ofDpa d = some a ∧ d / 2 ^ 31 ∈ w.live) ∧
    (w.lost = [] → w.toDpa a = some (dpa (w.chs.getD (a / 2048 % w.chs.length) 0) (a / 2048 / w.chs.length * 2048 + a % 2048))) ∧
    (∀ b, b < w.size → w.toDpa b = w.toDpa a → b = a)

/-- R239, on the repairs of R247. -/
def Obligations.DigestFollowsTheLine : Prop :=
  ∀ (s : State) (p : Nat) (r e : List Byte) (a d dd : Nat), p < 16 →
    let t := leAt r 0x10 4
    let l := leAt r 0x14 4
    let new := lineOf (bytesAt r 48 400)
    let old := (List.range 512).map (fun i => s.memByte (d + i))
    let dig := fun (s : State) => leNat ((List.range 16).map (fun i => s.memByte (dd + i)))
    s.tensorEnt p (s.epochNow p) t = some (a, e) → leAt r 0 1 = 6 → lineHash new = leAt r 0x20 16 → teFirst e ≤ l → l < teFirst e + teLines e →
    mfind (s.pp p).fix t = none → s.fbit (PAL_CTRL_ENABLE p) = true → s.plain p (teLineAddr e l) 512 d = true →
    s.plain p (s.digestAddr p t) 64 dd = true → d / 512 ≠ dd / 512 → s.memByte (dd + 0x30) ≠ 0 →
    (∀ x y, s.toDpa p (s.fget (PAL_DIRTY_BASE_BASE p) * 512 + x) = some y → y < d ∨ d + 512 ≤ y) →
    (∀ x y, s.toDpa p (s.fget (PAL_DIRTY_BASE_BASE p) * 512 + x) = some y → y < dd ∨ dd + 16 ≤ y) →
    Completes (.repairRecord p r) s (fun s' => (List.range 512).map (fun i => s'.memByte (d + i)) = new ∧
      dig s' = (dig s + lineHash new + 2 ^ 128 - lineHash old) % 2 ^ 128)
end

