-- ==== Sys2Proof/Laws/Map.lean ====
section
/-!
SUPPORT. Tables: a read after a write, and the canonical form that every table operation keeps.
-/
namespace Sys2Proof.Machine

variable {β : Type}

@[simp] theorem mget_nil (d : β) (k : Nat) : mget d [] k = d := rfl

theorem mget_mins_same (d : β) (m : NMap β) (k : Nat) (v : β) : mget d (mins m k v) k = v := by
  induction m with
  | nil => simp [mins, mget]
  | cons e m ih =>
    obtain ⟨a, w⟩ := e
    unfold mins
    split
    · simp [mget]
    · split
      · simp [mget]
      · next h1 h2 => simp [mget, Ne.symm h2, ih]

theorem mget_mins_ne (d : β) (m : NMap β) (k j : Nat) (v : β) (h : j ≠ k) : mget d (mins m k v) j = mget d m j := by
  induction m with
  | nil => simp [mins, mget, Ne.symm h]
  | cons e m ih =>
    obtain ⟨a, w⟩ := e
    unfold mins
    split
    · simp [mget, Ne.symm h]
    · split
      · next _ h2 => subst h2; simp [mget, Ne.symm h]
      · by_cases ha : a = j <;> simp [mget, ha, ih]

theorem mget_mdel_same (d : β) (m : NMap β) (k : Nat) : mget d (mdel m k) k = d := by
  induction m with
  | nil => rfl
  | cons e m ih =>
    obtain ⟨a, w⟩ := e
    by_cases h : a = k
    · subst h; simpa [mdel] using ih
    · simpa [mdel, h, mget] using ih

theorem mget_mdel_ne (d : β) (m : NMap β) (k j : Nat) (h : j ≠ k) : mget d (mdel m k) j = mget d m j := by
  induction m with
  | nil => rfl
  | cons e m ih =>
    obtain ⟨a, w⟩ := e
    by_cases hk : a = k
    · subst hk
      have : mget d (mdel ((a, w) :: m) a) j = mget d (mdel m a) j := by simp [mdel]
      rw [this, ih]; simp [mget, Ne.symm h]
    · by_cases hj : a = j
      · subst hj; simp [mdel, mget, hk]
      · have : mdel ((a, w) :: m) k = (a, w) :: mdel m k := by simp [mdel, hk]
        rw [this]; simp [mget, hj, ih]

/-- A read of the key just written gives the value written. -/
theorem mget_mset_same [DecidableEq β] (d : β) (m : NMap β) (k : Nat) (v : β) : mget d (mset d m k v) k = v := by
  unfold mset
  split
  · next h => rw [h]; exact mget_mdel_same d m k
  · exact mget_mins_same d m k v

/-- A write leaves every other key alone. -/
theorem mget_mset_ne [DecidableEq β] (d : β) (m : NMap β) (k j : Nat) (v : β) (h : j ≠ k) :
    mget d (mset d m k v) j = mget d m j := by
  unfold mset
  split
  · exact mget_mdel_ne d m k j h
  · exact mget_mins_ne d m k j v h

theorem mget_mset [DecidableEq β] (d : β) (m : NMap β) (k j : Nat) (v : β) :
    mget d (mset d m k v) j = if j = k then v else mget d m j := by
  split
  · next h => subst h; exact mget_mset_same d m j v
  · next h => exact mget_mset_ne d m k j v h

/-- A write whose default differs from the reader's, at another key. -/
theorem mget_mset_ne' [DecidableEq β] (d e : β) (m : NMap β) (k j : Nat) (v : β) (h : j ≠ k) :
    mget d (mset e m k v) j = mget d m j := by
  unfold mset
  split
  · exact mget_mdel_ne d m k j h
  · exact mget_mins_ne d m k j v h

theorem mfind_mins_same (m : NMap β) (k : Nat) (v : β) : mfind (mins m k v) k = some v := by
  induction m with
  | nil => simp [mins, mfind]
  | cons e m ih =>
    obtain ⟨a, w⟩ := e
    unfold mins
    split
    · simp [mfind]
    · split
      · simp [mfind]
      · next h1 h2 => simp [mfind, Ne.symm h2, ih]

theorem mfind_mins_ne (m : NMap β) (k j : Nat) (v : β) (h : j ≠ k) : mfind (mins m k v) j = mfind m j := by
  induction m with
  | nil => simp [mins, mfind, Ne.symm h]
  | cons e m ih =>
    obtain ⟨a, w⟩ := e
    unfold mins
    split
    · simp [mfind, Ne.symm h]
    · split
      · next _ h2 => subst h2; simp [mfind, Ne.symm h]
      · by_cases ha : a = j <;> simp [mfind, ha, ih]

theorem mfind_mdel_same (m : NMap β) (k : Nat) : mfind (mdel m k) k = none := by
  induction m with
  | nil => rfl
  | cons e m ih =>
    obtain ⟨a, w⟩ := e
    by_cases h : a = k
    · subst h; simpa [mdel] using ih
    · simpa [mdel, h, mfind] using ih

theorem mfind_mmod (m : NMap β) (k j : Nat) (f : β → β) :
    mfind (mmod m k f) j = if j = k then (mfind m j).map f else mfind m j := by
  induction m with
  | nil => simp [mmod, mfind]
  | cons e m ih =>
    obtain ⟨a, w⟩ := e
    unfold mmod at ih ⊢
    by_cases hk : a = k
    · by_cases hj : a = j
      · subst hk; subst hj; simp [mfind]
      · subst hk; simp [mfind, hj, ih]
    · by_cases hj : a = j
      · subst hj; simp [mfind, hk]
      · simp [mfind, hk, hj, ih]

-- The canonical form ---------------------------------------------------------------------------------------------------------------------

/-- Every key of `m` is above `k`. -/
def mabove (k : Nat) (m : NMap β) : Prop := ∀ e ∈ m, k < e.1

theorem mrising_cons (a : Nat) (v : β) (m : NMap β) : mrising ((a, v) :: m) = true ↔ mabove a m ∧ mrising m = true := by
  induction m generalizing a v with
  | nil => simp [mrising, mabove]
  | cons e m ih =>
    obtain ⟨b, w⟩ := e
    simp only [mrising, Bool.and_eq_true, decide_eq_true_eq]
    constructor
    · rintro ⟨hab, hr⟩
      refine ⟨?_, hr⟩
      intro e he
      rcases List.mem_cons.1 he with rfl | he
      · exact hab
      · exact Nat.lt_trans hab (((ih b w).1 hr).1 e he)
    · rintro ⟨ha, hr⟩
      exact ⟨ha _ (List.mem_cons_self ..), hr⟩

theorem mrising_filter (m : NMap β) (p : Nat × β → Bool) (h : mrising m = true) : mrising (m.filter p) = true := by
  induction m with
  | nil => rfl
  | cons e m ih =>
    obtain ⟨a, v⟩ := e
    obtain ⟨ha, hr⟩ := (mrising_cons a v m).1 h
    by_cases hp : p (a, v) = true
    · simp only [List.filter_cons_of_pos hp]
      exact (mrising_cons _ _ _).2 ⟨fun e he => ha e ((List.mem_filter.1 he).1), ih hr⟩
    · simpa only [List.filter_cons_of_neg hp] using ih hr

theorem mem_mins (m : NMap β) (k : Nat) (v : β) (e : Nat × β) (h : e ∈ mins m k v) : e = (k, v) ∨ e ∈ m := by
  induction m with
  | nil => simpa [mins] using h
  | cons x m ih =>
    obtain ⟨a, w⟩ := x
    unfold mins at h
    split at h
    · simpa using h
    · split at h
      · rcases List.mem_cons.1 h with h | h
        · exact .inl h
        · exact .inr (List.mem_cons_of_mem _ h)
      · rcases List.mem_cons.1 h with h | h
        · exact .inr (h ▸ List.mem_cons_self ..)
        · exact (ih h).imp id (List.mem_cons_of_mem _)

theorem mrising_mins (m : NMap β) (k : Nat) (v : β) (h : mrising m = true) : mrising (mins m k v) = true := by
  induction m with
  | nil => rfl
  | cons x m ih =>
    obtain ⟨a, w⟩ := x
    obtain ⟨ha, hr⟩ := (mrising_cons a w m).1 h
    unfold mins
    split
    · next hk =>
      refine (mrising_cons _ _ _).2 ⟨?_, h⟩
      intro e he
      rcases List.mem_cons.1 he with rfl | he
      · exact hk
      · exact Nat.lt_trans hk (ha e he)
    · split
      · next hk => subst hk; exact (mrising_cons _ _ _).2 ⟨ha, hr⟩
      · next h1 h2 =>
        refine (mrising_cons _ _ _).2 ⟨?_, ih hr⟩
        intro e he
        rcases mem_mins m k v e he with rfl | he
        · simp only; omega
        · exact ha e he

theorem mwf_filter [DecidableEq β] (d : β) (m : NMap β) (p : Nat × β → Bool) (h : mwf d m = true) : mwf d (m.filter p) = true := by
  simp only [mwf, Bool.and_eq_true, List.all_eq_true] at h ⊢
  exact ⟨mrising_filter m p h.1, fun e he => h.2 e ((List.mem_filter.1 he).1)⟩

/-- A write keeps the canonical form. -/
theorem mwf_mset [DecidableEq β] (d : β) (m : NMap β) (k : Nat) (v : β) (h : mwf d m = true) : mwf d (mset d m k v) = true := by
  unfold mset
  split
  · exact mwf_filter d m _ h
  · next hv =>
    simp only [mwf, Bool.and_eq_true, List.all_eq_true] at h ⊢
    refine ⟨mrising_mins m k v h.1, fun e he => ?_⟩
    rcases mem_mins m k v e he with rfl | he
    · simpa using hv
    · exact h.2 e he

end Sys2Proof.Machine
end

