-- ==== Sys2Proof/Laws/State.lean ====
section
/-!
SUPPORT. What the shared updates of a state leave alone: one lemma for each update and field.
-/
namespace Sys2Proof.Machine

@[simp] theorem State.fset_now (s : State) (f : Fld) (v : Nat) : (s.fset f v).now = s.now := by unfold State.fset; split <;> rfl
@[simp] theorem State.fset_fuse (s : State) (f : Fld) (v : Nat) : (s.fset f v).fuse = s.fuse := by unfold State.fset; split <;> rfl
@[simp] theorem State.fset_split (s : State) (f : Fld) (v : Nat) : (s.fset f v).split = s.split := by unfold State.fset; split <;> rfl
@[simp] theorem State.fset_mem (s : State) (f : Fld) (v : Nat) : (s.fset f v).mem = s.mem := by unfold State.fset; split <;> rfl
@[simp] theorem State.fset_poison (s : State) (f : Fld) (v : Nat) : (s.fset f v).poison = s.poison := by unfold State.fset; split <;> rfl
@[simp] theorem State.fset_host (s : State) (f : Fld) (v : Nat) : (s.fset f v).host = s.host := by unfold State.fset; split <;> rfl
@[simp] theorem State.fset_ink (s : State) (f : Fld) (v : Nat) : (s.fset f v).ink = s.ink := by unfold State.fset; split <;> rfl
@[simp] theorem State.fset_acc (s : State) (f : Fld) (v : Nat) : (s.fset f v).acc = s.acc := by unfold State.fset; split <;> rfl
@[simp] theorem State.fset_blot (s : State) (f : Fld) (v : Nat) : (s.fset f v).blot = s.blot := by unfold State.fset; split <;> rfl
@[simp] theorem State.fset_tiles (s : State) (f : Fld) (v : Nat) : (s.fset f v).tiles = s.tiles := by unfold State.fset; split <;> rfl
@[simp] theorem State.fset_nw (s : State) (f : Fld) (v : Nat) : (s.fset f v).nw = s.nw := by unfold State.fset; split <;> rfl
@[simp] theorem State.fset_sch (s : State) (f : Fld) (v : Nat) : (s.fset f v).sch = s.sch := by unfold State.fset; split <;> rfl
@[simp] theorem State.fset_sq (s : State) (f : Fld) (v : Nat) : (s.fset f v).sq = s.sq := by unfold State.fset; split <;> rfl
@[simp] theorem State.fset_lig (s : State) (f : Fld) (v : Nat) : (s.fset f v).lig = s.lig := by unfold State.fset; split <;> rfl
@[simp] theorem State.fset_pal (s : State) (f : Fld) (v : Nat) : (s.fset f v).pal = s.pal := by unfold State.fset; split <;> rfl
@[simp] theorem State.fset_zt (s : State) (f : Fld) (v : Nat) : (s.fset f v).zt = s.zt := by unfold State.fset; split <;> rfl
@[simp] theorem State.fset_eth (s : State) (f : Fld) (v : Nat) : (s.fset f v).eth = s.eth := by unfold State.fset; split <;> rfl
@[simp] theorem State.fset_evt (s : State) (f : Fld) (v : Nat) : (s.fset f v).evt = s.evt := by unfold State.fset; split <;> rfl
@[simp] theorem State.fset_fab (s : State) (f : Fld) (v : Nat) : (s.fset f v).fab = s.fab := by unfold State.fset; split <;> rfl
@[simp] theorem State.fset_hbm (s : State) (f : Fld) (v : Nat) : (s.fset f v).hbm = s.hbm := by unfold State.fset; split <;> rfl
@[simp] theorem State.fset_hif (s : State) (f : Fld) (v : Nat) : (s.fset f v).hif = s.hif := by unfold State.fset; split <;> rfl
@[simp] theorem State.fset_clk (s : State) (f : Fld) (v : Nat) : (s.fset f v).clk = s.clk := by unfold State.fset; split <;> rfl
@[simp] theorem State.fset_pwr (s : State) (f : Fld) (v : Nat) : (s.fset f v).pwr = s.pwr := by unfold State.fset; split <;> rfl
@[simp] theorem State.fset_nv (s : State) (f : Fld) (v : Nat) : (s.fset f v).nv = s.nv := by unfold State.fset; split <;> rfl
@[simp] theorem State.fset_led (s : State) (f : Fld) (v : Nat) : (s.fset f v).led = s.led := by unfold State.fset; split <;> rfl
@[simp] theorem State.fset_sec (s : State) (f : Fld) (v : Nat) : (s.fset f v).sec = s.sec := by unfold State.fset; split <;> rfl
@[simp] theorem State.fset_gen (s : State) (f : Fld) (v : Nat) : (s.fset f v).gen = s.gen := by unfold State.fset; split <;> rfl
@[simp] theorem State.fset_out (s : State) (f : Fld) (v : Nat) : (s.fset f v).out = s.out := by unfold State.fset; split <;> rfl
@[simp] theorem State.fset_freeN (s : State) (f : Fld) (v : Nat) : (s.fset f v).freeN = s.freeN := by unfold State.fset; split <;> rfl
@[simp] theorem State.fset_pending (s : State) (f : Fld) (v : Nat) : (s.fset f v).pending = s.pending := by unfold State.fset; split <;> rfl

@[simp] theorem State.finc_now (s : State) (f : Fld) (d : Nat) : (s.finc f d).now = s.now := by unfold State.finc; simp
@[simp] theorem State.finc_fuse (s : State) (f : Fld) (d : Nat) : (s.finc f d).fuse = s.fuse := by unfold State.finc; simp
@[simp] theorem State.finc_split (s : State) (f : Fld) (d : Nat) : (s.finc f d).split = s.split := by unfold State.finc; simp
@[simp] theorem State.finc_mem (s : State) (f : Fld) (d : Nat) : (s.finc f d).mem = s.mem := by unfold State.finc; simp
@[simp] theorem State.finc_poison (s : State) (f : Fld) (d : Nat) : (s.finc f d).poison = s.poison := by unfold State.finc; simp
@[simp] theorem State.finc_host (s : State) (f : Fld) (d : Nat) : (s.finc f d).host = s.host := by unfold State.finc; simp
@[simp] theorem State.finc_ink (s : State) (f : Fld) (d : Nat) : (s.finc f d).ink = s.ink := by unfold State.finc; simp
@[simp] theorem State.finc_acc (s : State) (f : Fld) (d : Nat) : (s.finc f d).acc = s.acc := by unfold State.finc; simp
@[simp] theorem State.finc_blot (s : State) (f : Fld) (d : Nat) : (s.finc f d).blot = s.blot := by unfold State.finc; simp
@[simp] theorem State.finc_tiles (s : State) (f : Fld) (d : Nat) : (s.finc f d).tiles = s.tiles := by unfold State.finc; simp
@[simp] theorem State.finc_nw (s : State) (f : Fld) (d : Nat) : (s.finc f d).nw = s.nw := by unfold State.finc; simp
@[simp] theorem State.finc_sch (s : State) (f : Fld) (d : Nat) : (s.finc f d).sch = s.sch := by unfold State.finc; simp
@[simp] theorem State.finc_sq (s : State) (f : Fld) (d : Nat) : (s.finc f d).sq = s.sq := by unfold State.finc; simp
@[simp] theorem State.finc_lig (s : State) (f : Fld) (d : Nat) : (s.finc f d).lig = s.lig := by unfold State.finc; simp
@[simp] theorem State.finc_pal (s : State) (f : Fld) (d : Nat) : (s.finc f d).pal = s.pal := by unfold State.finc; simp
@[simp] theorem State.finc_zt (s : State) (f : Fld) (d : Nat) : (s.finc f d).zt = s.zt := by unfold State.finc; simp
@[simp] theorem State.finc_eth (s : State) (f : Fld) (d : Nat) : (s.finc f d).eth = s.eth := by unfold State.finc; simp
@[simp] theorem State.finc_evt (s : State) (f : Fld) (d : Nat) : (s.finc f d).evt = s.evt := by unfold State.finc; simp
@[simp] theorem State.finc_fab (s : State) (f : Fld) (d : Nat) : (s.finc f d).fab = s.fab := by unfold State.finc; simp
@[simp] theorem State.finc_hbm (s : State) (f : Fld) (d : Nat) : (s.finc f d).hbm = s.hbm := by unfold State.finc; simp
@[simp] theorem State.finc_hif (s : State) (f : Fld) (d : Nat) : (s.finc f d).hif = s.hif := by unfold State.finc; simp
@[simp] theorem State.finc_clk (s : State) (f : Fld) (d : Nat) : (s.finc f d).clk = s.clk := by unfold State.finc; simp
@[simp] theorem State.finc_pwr (s : State) (f : Fld) (d : Nat) : (s.finc f d).pwr = s.pwr := by unfold State.finc; simp
@[simp] theorem State.finc_nv (s : State) (f : Fld) (d : Nat) : (s.finc f d).nv = s.nv := by unfold State.finc; simp
@[simp] theorem State.finc_led (s : State) (f : Fld) (d : Nat) : (s.finc f d).led = s.led := by unfold State.finc; simp
@[simp] theorem State.finc_sec (s : State) (f : Fld) (d : Nat) : (s.finc f d).sec = s.sec := by unfold State.finc; simp
@[simp] theorem State.finc_gen (s : State) (f : Fld) (d : Nat) : (s.finc f d).gen = s.gen := by unfold State.finc; simp
@[simp] theorem State.finc_out (s : State) (f : Fld) (d : Nat) : (s.finc f d).out = s.out := by unfold State.finc; simp
@[simp] theorem State.finc_freeN (s : State) (f : Fld) (d : Nat) : (s.finc f d).freeN = s.freeN := by unfold State.finc; simp
@[simp] theorem State.finc_pending (s : State) (f : Fld) (d : Nat) : (s.finc f d).pending = s.pending := by unfold State.finc; simp

@[simp] theorem State.fsat_now (s : State) (f : Fld) (d : Nat) : (s.fsat f d).now = s.now := by unfold State.fsat; simp
@[simp] theorem State.fsat_fuse (s : State) (f : Fld) (d : Nat) : (s.fsat f d).fuse = s.fuse := by unfold State.fsat; simp
@[simp] theorem State.fsat_split (s : State) (f : Fld) (d : Nat) : (s.fsat f d).split = s.split := by unfold State.fsat; simp
@[simp] theorem State.fsat_mem (s : State) (f : Fld) (d : Nat) : (s.fsat f d).mem = s.mem := by unfold State.fsat; simp
@[simp] theorem State.fsat_poison (s : State) (f : Fld) (d : Nat) : (s.fsat f d).poison = s.poison := by unfold State.fsat; simp
@[simp] theorem State.fsat_host (s : State) (f : Fld) (d : Nat) : (s.fsat f d).host = s.host := by unfold State.fsat; simp
@[simp] theorem State.fsat_ink (s : State) (f : Fld) (d : Nat) : (s.fsat f d).ink = s.ink := by unfold State.fsat; simp
@[simp] theorem State.fsat_acc (s : State) (f : Fld) (d : Nat) : (s.fsat f d).acc = s.acc := by unfold State.fsat; simp
@[simp] theorem State.fsat_blot (s : State) (f : Fld) (d : Nat) : (s.fsat f d).blot = s.blot := by unfold State.fsat; simp
@[simp] theorem State.fsat_tiles (s : State) (f : Fld) (d : Nat) : (s.fsat f d).tiles = s.tiles := by unfold State.fsat; simp
@[simp] theorem State.fsat_nw (s : State) (f : Fld) (d : Nat) : (s.fsat f d).nw = s.nw := by unfold State.fsat; simp
@[simp] theorem State.fsat_sch (s : State) (f : Fld) (d : Nat) : (s.fsat f d).sch = s.sch := by unfold State.fsat; simp
@[simp] theorem State.fsat_sq (s : State) (f : Fld) (d : Nat) : (s.fsat f d).sq = s.sq := by unfold State.fsat; simp
@[simp] theorem State.fsat_lig (s : State) (f : Fld) (d : Nat) : (s.fsat f d).lig = s.lig := by unfold State.fsat; simp
@[simp] theorem State.fsat_pal (s : State) (f : Fld) (d : Nat) : (s.fsat f d).pal = s.pal := by unfold State.fsat; simp
@[simp] theorem State.fsat_zt (s : State) (f : Fld) (d : Nat) : (s.fsat f d).zt = s.zt := by unfold State.fsat; simp
@[simp] theorem State.fsat_eth (s : State) (f : Fld) (d : Nat) : (s.fsat f d).eth = s.eth := by unfold State.fsat; simp
@[simp] theorem State.fsat_evt (s : State) (f : Fld) (d : Nat) : (s.fsat f d).evt = s.evt := by unfold State.fsat; simp
@[simp] theorem State.fsat_fab (s : State) (f : Fld) (d : Nat) : (s.fsat f d).fab = s.fab := by unfold State.fsat; simp
@[simp] theorem State.fsat_hbm (s : State) (f : Fld) (d : Nat) : (s.fsat f d).hbm = s.hbm := by unfold State.fsat; simp
@[simp] theorem State.fsat_hif (s : State) (f : Fld) (d : Nat) : (s.fsat f d).hif = s.hif := by unfold State.fsat; simp
@[simp] theorem State.fsat_clk (s : State) (f : Fld) (d : Nat) : (s.fsat f d).clk = s.clk := by unfold State.fsat; simp
@[simp] theorem State.fsat_pwr (s : State) (f : Fld) (d : Nat) : (s.fsat f d).pwr = s.pwr := by unfold State.fsat; simp
@[simp] theorem State.fsat_nv (s : State) (f : Fld) (d : Nat) : (s.fsat f d).nv = s.nv := by unfold State.fsat; simp
@[simp] theorem State.fsat_led (s : State) (f : Fld) (d : Nat) : (s.fsat f d).led = s.led := by unfold State.fsat; simp
@[simp] theorem State.fsat_sec (s : State) (f : Fld) (d : Nat) : (s.fsat f d).sec = s.sec := by unfold State.fsat; simp
@[simp] theorem State.fsat_gen (s : State) (f : Fld) (d : Nat) : (s.fsat f d).gen = s.gen := by unfold State.fsat; simp
@[simp] theorem State.fsat_out (s : State) (f : Fld) (d : Nat) : (s.fsat f d).out = s.out := by unfold State.fsat; simp
@[simp] theorem State.fsat_freeN (s : State) (f : Fld) (d : Nat) : (s.fsat f d).freeN = s.freeN := by unfold State.fsat; simp
@[simp] theorem State.fsat_pending (s : State) (f : Fld) (d : Nat) : (s.fsat f d).pending = s.pending := by unfold State.fsat; simp

@[simp] theorem State.fsets_now (s : State) (l : List (Fld × Nat)) : (s.fsets l).now = s.now := by
  unfold State.fsets
  induction l generalizing s with
  | nil => rfl
  | cons e l ih => rw [List.foldl_cons, ih, State.fset_now]
@[simp] theorem State.fsets_fuse (s : State) (l : List (Fld × Nat)) : (s.fsets l).fuse = s.fuse := by
  unfold State.fsets
  induction l generalizing s with
  | nil => rfl
  | cons e l ih => rw [List.foldl_cons, ih, State.fset_fuse]
@[simp] theorem State.fsets_split (s : State) (l : List (Fld × Nat)) : (s.fsets l).split = s.split := by
  unfold State.fsets
  induction l generalizing s with
  | nil => rfl
  | cons e l ih => rw [List.foldl_cons, ih, State.fset_split]
@[simp] theorem State.fsets_mem (s : State) (l : List (Fld × Nat)) : (s.fsets l).mem = s.mem := by
  unfold State.fsets
  induction l generalizing s with
  | nil => rfl
  | cons e l ih => rw [List.foldl_cons, ih, State.fset_mem]
@[simp] theorem State.fsets_poison (s : State) (l : List (Fld × Nat)) : (s.fsets l).poison = s.poison := by
  unfold State.fsets
  induction l generalizing s with
  | nil => rfl
  | cons e l ih => rw [List.foldl_cons, ih, State.fset_poison]
@[simp] theorem State.fsets_host (s : State) (l : List (Fld × Nat)) : (s.fsets l).host = s.host := by
  unfold State.fsets
  induction l generalizing s with
  | nil => rfl
  | cons e l ih => rw [List.foldl_cons, ih, State.fset_host]
@[simp] theorem State.fsets_ink (s : State) (l : List (Fld × Nat)) : (s.fsets l).ink = s.ink := by
  unfold State.fsets
  induction l generalizing s with
  | nil => rfl
  | cons e l ih => rw [List.foldl_cons, ih, State.fset_ink]
@[simp] theorem State.fsets_acc (s : State) (l : List (Fld × Nat)) : (s.fsets l).acc = s.acc := by
  unfold State.fsets
  induction l generalizing s with
  | nil => rfl
  | cons e l ih => rw [List.foldl_cons, ih, State.fset_acc]
@[simp] theorem State.fsets_blot (s : State) (l : List (Fld × Nat)) : (s.fsets l).blot = s.blot := by
  unfold State.fsets
  induction l generalizing s with
  | nil => rfl
  | cons e l ih => rw [List.foldl_cons, ih, State.fset_blot]
@[simp] theorem State.fsets_tiles (s : State) (l : List (Fld × Nat)) : (s.fsets l).tiles = s.tiles := by
  unfold State.fsets
  induction l generalizing s with
  | nil => rfl
  | cons e l ih => rw [List.foldl_cons, ih, State.fset_tiles]
@[simp] theorem State.fsets_nw (s : State) (l : List (Fld × Nat)) : (s.fsets l).nw = s.nw := by
  unfold State.fsets
  induction l generalizing s with
  | nil => rfl
  | cons e l ih => rw [List.foldl_cons, ih, State.fset_nw]
@[simp] theorem State.fsets_sch (s : State) (l : List (Fld × Nat)) : (s.fsets l).sch = s.sch := by
  unfold State.fsets
  induction l generalizing s with
  | nil => rfl
  | cons e l ih => rw [List.foldl_cons, ih, State.fset_sch]
@[simp] theorem State.fsets_sq (s : State) (l : List (Fld × Nat)) : (s.fsets l).sq = s.sq := by
  unfold State.fsets
  induction l generalizing s with
  | nil => rfl
  | cons e l ih => rw [List.foldl_cons, ih, State.fset_sq]
@[simp] theorem State.fsets_lig (s : State) (l : List (Fld × Nat)) : (s.fsets l).lig = s.lig := by
  unfold State.fsets
  induction l generalizing s with
  | nil => rfl
  | cons e l ih => rw [List.foldl_cons, ih, State.fset_lig]
@[simp] theorem State.fsets_pal (s : State) (l : List (Fld × Nat)) : (s.fsets l).pal = s.pal := by
  unfold State.fsets
  induction l generalizing s with
  | nil => rfl
  | cons e l ih => rw [List.foldl_cons, ih, State.fset_pal]
@[simp] theorem State.fsets_zt (s : State) (l : List (Fld × Nat)) : (s.fsets l).zt = s.zt := by
  unfold State.fsets
  induction l generalizing s with
  | nil => rfl
  | cons e l ih => rw [List.foldl_cons, ih, State.fset_zt]
@[simp] theorem State.fsets_eth (s : State) (l : List (Fld × Nat)) : (s.fsets l).eth = s.eth := by
  unfold State.fsets
  induction l generalizing s with
  | nil => rfl
  | cons e l ih => rw [List.foldl_cons, ih, State.fset_eth]
@[simp] theorem State.fsets_evt (s : State) (l : List (Fld × Nat)) : (s.fsets l).evt = s.evt := by
  unfold State.fsets
  induction l generalizing s with
  | nil => rfl
  | cons e l ih => rw [List.foldl_cons, ih, State.fset_evt]
@[simp] theorem State.fsets_fab (s : State) (l : List (Fld × Nat)) : (s.fsets l).fab = s.fab := by
  unfold State.fsets
  induction l generalizing s with
  | nil => rfl
  | cons e l ih => rw [List.foldl_cons, ih, State.fset_fab]
@[simp] theorem State.fsets_hbm (s : State) (l : List (Fld × Nat)) : (s.fsets l).hbm = s.hbm := by
  unfold State.fsets
  induction l generalizing s with
  | nil => rfl
  | cons e l ih => rw [List.foldl_cons, ih, State.fset_hbm]
@[simp] theorem State.fsets_hif (s : State) (l : List (Fld × Nat)) : (s.fsets l).hif = s.hif := by
  unfold State.fsets
  induction l generalizing s with
  | nil => rfl
  | cons e l ih => rw [List.foldl_cons, ih, State.fset_hif]
@[simp] theorem State.fsets_clk (s : State) (l : List (Fld × Nat)) : (s.fsets l).clk = s.clk := by
  unfold State.fsets
  induction l generalizing s with
  | nil => rfl
  | cons e l ih => rw [List.foldl_cons, ih, State.fset_clk]
@[simp] theorem State.fsets_pwr (s : State) (l : List (Fld × Nat)) : (s.fsets l).pwr = s.pwr := by
  unfold State.fsets
  induction l generalizing s with
  | nil => rfl
  | cons e l ih => rw [List.foldl_cons, ih, State.fset_pwr]
@[simp] theorem State.fsets_nv (s : State) (l : List (Fld × Nat)) : (s.fsets l).nv = s.nv := by
  unfold State.fsets
  induction l generalizing s with
  | nil => rfl
  | cons e l ih => rw [List.foldl_cons, ih, State.fset_nv]
@[simp] theorem State.fsets_led (s : State) (l : List (Fld × Nat)) : (s.fsets l).led = s.led := by
  unfold State.fsets
  induction l generalizing s with
  | nil => rfl
  | cons e l ih => rw [List.foldl_cons, ih, State.fset_led]
@[simp] theorem State.fsets_sec (s : State) (l : List (Fld × Nat)) : (s.fsets l).sec = s.sec := by
  unfold State.fsets
  induction l generalizing s with
  | nil => rfl
  | cons e l ih => rw [List.foldl_cons, ih, State.fset_sec]
@[simp] theorem State.fsets_gen (s : State) (l : List (Fld × Nat)) : (s.fsets l).gen = s.gen := by
  unfold State.fsets
  induction l generalizing s with
  | nil => rfl
  | cons e l ih => rw [List.foldl_cons, ih, State.fset_gen]
@[simp] theorem State.fsets_out (s : State) (l : List (Fld × Nat)) : (s.fsets l).out = s.out := by
  unfold State.fsets
  induction l generalizing s with
  | nil => rfl
  | cons e l ih => rw [List.foldl_cons, ih, State.fset_out]
@[simp] theorem State.fsets_freeN (s : State) (l : List (Fld × Nat)) : (s.fsets l).freeN = s.freeN := by
  unfold State.fsets
  induction l generalizing s with
  | nil => rfl
  | cons e l ih => rw [List.foldl_cons, ih, State.fset_freeN]
@[simp] theorem State.fsets_pending (s : State) (l : List (Fld × Nat)) : (s.fsets l).pending = s.pending := by
  unfold State.fsets
  induction l generalizing s with
  | nil => rfl
  | cons e l ih => rw [List.foldl_cons, ih, State.fset_pending]

@[simp] theorem State.emit_now (s : State) (o : Out) : (s.emit o).now = s.now := rfl
@[simp] theorem State.emit_fields (s : State) (o : Out) : (s.emit o).fields = s.fields := rfl
@[simp] theorem State.emit_fuse (s : State) (o : Out) : (s.emit o).fuse = s.fuse := rfl
@[simp] theorem State.emit_split (s : State) (o : Out) : (s.emit o).split = s.split := rfl
@[simp] theorem State.emit_mem (s : State) (o : Out) : (s.emit o).mem = s.mem := rfl
@[simp] theorem State.emit_poison (s : State) (o : Out) : (s.emit o).poison = s.poison := rfl
@[simp] theorem State.emit_host (s : State) (o : Out) : (s.emit o).host = s.host := rfl
@[simp] theorem State.emit_ink (s : State) (o : Out) : (s.emit o).ink = s.ink := rfl
@[simp] theorem State.emit_acc (s : State) (o : Out) : (s.emit o).acc = s.acc := rfl
@[simp] theorem State.emit_blot (s : State) (o : Out) : (s.emit o).blot = s.blot := rfl
@[simp] theorem State.emit_tiles (s : State) (o : Out) : (s.emit o).tiles = s.tiles := rfl
@[simp] theorem State.emit_nw (s : State) (o : Out) : (s.emit o).nw = s.nw := rfl
@[simp] theorem State.emit_sch (s : State) (o : Out) : (s.emit o).sch = s.sch := rfl
@[simp] theorem State.emit_sq (s : State) (o : Out) : (s.emit o).sq = s.sq := rfl
@[simp] theorem State.emit_lig (s : State) (o : Out) : (s.emit o).lig = s.lig := rfl
@[simp] theorem State.emit_pal (s : State) (o : Out) : (s.emit o).pal = s.pal := rfl
@[simp] theorem State.emit_zt (s : State) (o : Out) : (s.emit o).zt = s.zt := rfl
@[simp] theorem State.emit_eth (s : State) (o : Out) : (s.emit o).eth = s.eth := rfl
@[simp] theorem State.emit_evt (s : State) (o : Out) : (s.emit o).evt = s.evt := rfl
@[simp] theorem State.emit_fab (s : State) (o : Out) : (s.emit o).fab = s.fab := rfl
@[simp] theorem State.emit_hbm (s : State) (o : Out) : (s.emit o).hbm = s.hbm := rfl
@[simp] theorem State.emit_hif (s : State) (o : Out) : (s.emit o).hif = s.hif := rfl
@[simp] theorem State.emit_clk (s : State) (o : Out) : (s.emit o).clk = s.clk := rfl
@[simp] theorem State.emit_pwr (s : State) (o : Out) : (s.emit o).pwr = s.pwr := rfl
@[simp] theorem State.emit_nv (s : State) (o : Out) : (s.emit o).nv = s.nv := rfl
@[simp] theorem State.emit_led (s : State) (o : Out) : (s.emit o).led = s.led := rfl
@[simp] theorem State.emit_sec (s : State) (o : Out) : (s.emit o).sec = s.sec := rfl
@[simp] theorem State.emit_gen (s : State) (o : Out) : (s.emit o).gen = s.gen := rfl
@[simp] theorem State.emit_freeN (s : State) (o : Out) : (s.emit o).freeN = s.freeN := rfl
@[simp] theorem State.emit_pending (s : State) (o : Out) : (s.emit o).pending = s.pending := rfl

@[simp] theorem State.setTile_now (s : State) (t : Nat) (x : Tile) : (s.setTile t x).now = s.now := rfl
@[simp] theorem State.setTile_fields (s : State) (t : Nat) (x : Tile) : (s.setTile t x).fields = s.fields := rfl
@[simp] theorem State.setTile_fuse (s : State) (t : Nat) (x : Tile) : (s.setTile t x).fuse = s.fuse := rfl
@[simp] theorem State.setTile_split (s : State) (t : Nat) (x : Tile) : (s.setTile t x).split = s.split := rfl
@[simp] theorem State.setTile_mem (s : State) (t : Nat) (x : Tile) : (s.setTile t x).mem = s.mem := rfl
@[simp] theorem State.setTile_poison (s : State) (t : Nat) (x : Tile) : (s.setTile t x).poison = s.poison := rfl
@[simp] theorem State.setTile_host (s : State) (t : Nat) (x : Tile) : (s.setTile t x).host = s.host := rfl
@[simp] theorem State.setTile_ink (s : State) (t : Nat) (x : Tile) : (s.setTile t x).ink = s.ink := rfl
@[simp] theorem State.setTile_acc (s : State) (t : Nat) (x : Tile) : (s.setTile t x).acc = s.acc := rfl
@[simp] theorem State.setTile_blot (s : State) (t : Nat) (x : Tile) : (s.setTile t x).blot = s.blot := rfl
@[simp] theorem State.setTile_nw (s : State) (t : Nat) (x : Tile) : (s.setTile t x).nw = s.nw := rfl
@[simp] theorem State.setTile_sch (s : State) (t : Nat) (x : Tile) : (s.setTile t x).sch = s.sch := rfl
@[simp] theorem State.setTile_sq (s : State) (t : Nat) (x : Tile) : (s.setTile t x).sq = s.sq := rfl
@[simp] theorem State.setTile_lig (s : State) (t : Nat) (x : Tile) : (s.setTile t x).lig = s.lig := rfl
@[simp] theorem State.setTile_pal (s : State) (t : Nat) (x : Tile) : (s.setTile t x).pal = s.pal := rfl
@[simp] theorem State.setTile_zt (s : State) (t : Nat) (x : Tile) : (s.setTile t x).zt = s.zt := rfl
@[simp] theorem State.setTile_eth (s : State) (t : Nat) (x : Tile) : (s.setTile t x).eth = s.eth := rfl
@[simp] theorem State.setTile_evt (s : State) (t : Nat) (x : Tile) : (s.setTile t x).evt = s.evt := rfl
@[simp] theorem State.setTile_fab (s : State) (t : Nat) (x : Tile) : (s.setTile t x).fab = s.fab := rfl
@[simp] theorem State.setTile_hbm (s : State) (t : Nat) (x : Tile) : (s.setTile t x).hbm = s.hbm := rfl
@[simp] theorem State.setTile_hif (s : State) (t : Nat) (x : Tile) : (s.setTile t x).hif = s.hif := rfl
@[simp] theorem State.setTile_clk (s : State) (t : Nat) (x : Tile) : (s.setTile t x).clk = s.clk := rfl
@[simp] theorem State.setTile_pwr (s : State) (t : Nat) (x : Tile) : (s.setTile t x).pwr = s.pwr := rfl
@[simp] theorem State.setTile_nv (s : State) (t : Nat) (x : Tile) : (s.setTile t x).nv = s.nv := rfl
@[simp] theorem State.setTile_led (s : State) (t : Nat) (x : Tile) : (s.setTile t x).led = s.led := rfl
@[simp] theorem State.setTile_sec (s : State) (t : Nat) (x : Tile) : (s.setTile t x).sec = s.sec := rfl
@[simp] theorem State.setTile_gen (s : State) (t : Nat) (x : Tile) : (s.setTile t x).gen = s.gen := rfl
@[simp] theorem State.setTile_out (s : State) (t : Nat) (x : Tile) : (s.setTile t x).out = s.out := rfl
@[simp] theorem State.setTile_freeN (s : State) (t : Nat) (x : Tile) : (s.setTile t x).freeN = s.freeN := rfl
@[simp] theorem State.setTile_pending (s : State) (t : Nat) (x : Tile) : (s.setTile t x).pending = s.pending := rfl

@[simp] theorem State.setNwp_now (s : State) (p : Nat) (x : NwP) : (s.setNwp p x).now = s.now := rfl
@[simp] theorem State.setNwp_fields (s : State) (p : Nat) (x : NwP) : (s.setNwp p x).fields = s.fields := rfl
@[simp] theorem State.setNwp_fuse (s : State) (p : Nat) (x : NwP) : (s.setNwp p x).fuse = s.fuse := rfl
@[simp] theorem State.setNwp_split (s : State) (p : Nat) (x : NwP) : (s.setNwp p x).split = s.split := rfl
@[simp] theorem State.setNwp_mem (s : State) (p : Nat) (x : NwP) : (s.setNwp p x).mem = s.mem := rfl
@[simp] theorem State.setNwp_poison (s : State) (p : Nat) (x : NwP) : (s.setNwp p x).poison = s.poison := rfl
@[simp] theorem State.setNwp_host (s : State) (p : Nat) (x : NwP) : (s.setNwp p x).host = s.host := rfl
@[simp] theorem State.setNwp_ink (s : State) (p : Nat) (x : NwP) : (s.setNwp p x).ink = s.ink := rfl
@[simp] theorem State.setNwp_acc (s : State) (p : Nat) (x : NwP) : (s.setNwp p x).acc = s.acc := rfl
@[simp] theorem State.setNwp_blot (s : State) (p : Nat) (x : NwP) : (s.setNwp p x).blot = s.blot := rfl
@[simp] theorem State.setNwp_tiles (s : State) (p : Nat) (x : NwP) : (s.setNwp p x).tiles = s.tiles := rfl
@[simp] theorem State.setNwp_sch (s : State) (p : Nat) (x : NwP) : (s.setNwp p x).sch = s.sch := rfl
@[simp] theorem State.setNwp_sq (s : State) (p : Nat) (x : NwP) : (s.setNwp p x).sq = s.sq := rfl
@[simp] theorem State.setNwp_lig (s : State) (p : Nat) (x : NwP) : (s.setNwp p x).lig = s.lig := rfl
@[simp] theorem State.setNwp_pal (s : State) (p : Nat) (x : NwP) : (s.setNwp p x).pal = s.pal := rfl
@[simp] theorem State.setNwp_zt (s : State) (p : Nat) (x : NwP) : (s.setNwp p x).zt = s.zt := rfl
@[simp] theorem State.setNwp_eth (s : State) (p : Nat) (x : NwP) : (s.setNwp p x).eth = s.eth := rfl
@[simp] theorem State.setNwp_evt (s : State) (p : Nat) (x : NwP) : (s.setNwp p x).evt = s.evt := rfl
@[simp] theorem State.setNwp_fab (s : State) (p : Nat) (x : NwP) : (s.setNwp p x).fab = s.fab := rfl
@[simp] theorem State.setNwp_hbm (s : State) (p : Nat) (x : NwP) : (s.setNwp p x).hbm = s.hbm := rfl
@[simp] theorem State.setNwp_hif (s : State) (p : Nat) (x : NwP) : (s.setNwp p x).hif = s.hif := rfl
@[simp] theorem State.setNwp_clk (s : State) (p : Nat) (x : NwP) : (s.setNwp p x).clk = s.clk := rfl
@[simp] theorem State.setNwp_pwr (s : State) (p : Nat) (x : NwP) : (s.setNwp p x).pwr = s.pwr := rfl
@[simp] theorem State.setNwp_nv (s : State) (p : Nat) (x : NwP) : (s.setNwp p x).nv = s.nv := rfl
@[simp] theorem State.setNwp_led (s : State) (p : Nat) (x : NwP) : (s.setNwp p x).led = s.led := rfl
@[simp] theorem State.setNwp_sec (s : State) (p : Nat) (x : NwP) : (s.setNwp p x).sec = s.sec := rfl
@[simp] theorem State.setNwp_gen (s : State) (p : Nat) (x : NwP) : (s.setNwp p x).gen = s.gen := rfl
@[simp] theorem State.setNwp_out (s : State) (p : Nat) (x : NwP) : (s.setNwp p x).out = s.out := rfl
@[simp] theorem State.setNwp_freeN (s : State) (p : Nat) (x : NwP) : (s.setNwp p x).freeN = s.freeN := rfl
@[simp] theorem State.setNwp_pending (s : State) (p : Nat) (x : NwP) : (s.setNwp p x).pending = s.pending := rfl

@[simp] theorem State.setSp_now (s : State) (p : Nat) (x : SchP) : (s.setSp p x).now = s.now := rfl
@[simp] theorem State.setSp_fields (s : State) (p : Nat) (x : SchP) : (s.setSp p x).fields = s.fields := rfl
@[simp] theorem State.setSp_fuse (s : State) (p : Nat) (x : SchP) : (s.setSp p x).fuse = s.fuse := rfl
@[simp] theorem State.setSp_split (s : State) (p : Nat) (x : SchP) : (s.setSp p x).split = s.split := rfl
@[simp] theorem State.setSp_mem (s : State) (p : Nat) (x : SchP) : (s.setSp p x).mem = s.mem := rfl
@[simp] theorem State.setSp_poison (s : State) (p : Nat) (x : SchP) : (s.setSp p x).poison = s.poison := rfl
@[simp] theorem State.setSp_host (s : State) (p : Nat) (x : SchP) : (s.setSp p x).host = s.host := rfl
@[simp] theorem State.setSp_ink (s : State) (p : Nat) (x : SchP) : (s.setSp p x).ink = s.ink := rfl
@[simp] theorem State.setSp_acc (s : State) (p : Nat) (x : SchP) : (s.setSp p x).acc = s.acc := rfl
@[simp] theorem State.setSp_blot (s : State) (p : Nat) (x : SchP) : (s.setSp p x).blot = s.blot := rfl
@[simp] theorem State.setSp_tiles (s : State) (p : Nat) (x : SchP) : (s.setSp p x).tiles = s.tiles := rfl
@[simp] theorem State.setSp_nw (s : State) (p : Nat) (x : SchP) : (s.setSp p x).nw = s.nw := rfl
@[simp] theorem State.setSp_sq (s : State) (p : Nat) (x : SchP) : (s.setSp p x).sq = s.sq := rfl
@[simp] theorem State.setSp_lig (s : State) (p : Nat) (x : SchP) : (s.setSp p x).lig = s.lig := rfl
@[simp] theorem State.setSp_pal (s : State) (p : Nat) (x : SchP) : (s.setSp p x).pal = s.pal := rfl
@[simp] theorem State.setSp_zt (s : State) (p : Nat) (x : SchP) : (s.setSp p x).zt = s.zt := rfl
@[simp] theorem State.setSp_eth (s : State) (p : Nat) (x : SchP) : (s.setSp p x).eth = s.eth := rfl
@[simp] theorem State.setSp_evt (s : State) (p : Nat) (x : SchP) : (s.setSp p x).evt = s.evt := rfl
@[simp] theorem State.setSp_fab (s : State) (p : Nat) (x : SchP) : (s.setSp p x).fab = s.fab := rfl
@[simp] theorem State.setSp_hbm (s : State) (p : Nat) (x : SchP) : (s.setSp p x).hbm = s.hbm := rfl
@[simp] theorem State.setSp_hif (s : State) (p : Nat) (x : SchP) : (s.setSp p x).hif = s.hif := rfl
@[simp] theorem State.setSp_clk (s : State) (p : Nat) (x : SchP) : (s.setSp p x).clk = s.clk := rfl
@[simp] theorem State.setSp_pwr (s : State) (p : Nat) (x : SchP) : (s.setSp p x).pwr = s.pwr := rfl
@[simp] theorem State.setSp_nv (s : State) (p : Nat) (x : SchP) : (s.setSp p x).nv = s.nv := rfl
@[simp] theorem State.setSp_led (s : State) (p : Nat) (x : SchP) : (s.setSp p x).led = s.led := rfl
@[simp] theorem State.setSp_sec (s : State) (p : Nat) (x : SchP) : (s.setSp p x).sec = s.sec := rfl
@[simp] theorem State.setSp_gen (s : State) (p : Nat) (x : SchP) : (s.setSp p x).gen = s.gen := rfl
@[simp] theorem State.setSp_out (s : State) (p : Nat) (x : SchP) : (s.setSp p x).out = s.out := rfl
@[simp] theorem State.setSp_freeN (s : State) (p : Nat) (x : SchP) : (s.setSp p x).freeN = s.freeN := rfl
@[simp] theorem State.setSp_pending (s : State) (p : Nat) (x : SchP) : (s.setSp p x).pending = s.pending := rfl

@[simp] theorem State.setSqp_now (s : State) (p : Nat) (x : SqP) : (s.setSqp p x).now = s.now := rfl
@[simp] theorem State.setSqp_fields (s : State) (p : Nat) (x : SqP) : (s.setSqp p x).fields = s.fields := rfl
@[simp] theorem State.setSqp_fuse (s : State) (p : Nat) (x : SqP) : (s.setSqp p x).fuse = s.fuse := rfl
@[simp] theorem State.setSqp_split (s : State) (p : Nat) (x : SqP) : (s.setSqp p x).split = s.split := rfl
@[simp] theorem State.setSqp_mem (s : State) (p : Nat) (x : SqP) : (s.setSqp p x).mem = s.mem := rfl
@[simp] theorem State.setSqp_poison (s : State) (p : Nat) (x : SqP) : (s.setSqp p x).poison = s.poison := rfl
@[simp] theorem State.setSqp_host (s : State) (p : Nat) (x : SqP) : (s.setSqp p x).host = s.host := rfl
@[simp] theorem State.setSqp_ink (s : State) (p : Nat) (x : SqP) : (s.setSqp p x).ink = s.ink := rfl
@[simp] theorem State.setSqp_acc (s : State) (p : Nat) (x : SqP) : (s.setSqp p x).acc = s.acc := rfl
@[simp] theorem State.setSqp_blot (s : State) (p : Nat) (x : SqP) : (s.setSqp p x).blot = s.blot := rfl
@[simp] theorem State.setSqp_tiles (s : State) (p : Nat) (x : SqP) : (s.setSqp p x).tiles = s.tiles := rfl
@[simp] theorem State.setSqp_nw (s : State) (p : Nat) (x : SqP) : (s.setSqp p x).nw = s.nw := rfl
@[simp] theorem State.setSqp_sch (s : State) (p : Nat) (x : SqP) : (s.setSqp p x).sch = s.sch := rfl
@[simp] theorem State.setSqp_lig (s : State) (p : Nat) (x : SqP) : (s.setSqp p x).lig = s.lig := rfl
@[simp] theorem State.setSqp_pal (s : State) (p : Nat) (x : SqP) : (s.setSqp p x).pal = s.pal := rfl
@[simp] theorem State.setSqp_zt (s : State) (p : Nat) (x : SqP) : (s.setSqp p x).zt = s.zt := rfl
@[simp] theorem State.setSqp_eth (s : State) (p : Nat) (x : SqP) : (s.setSqp p x).eth = s.eth := rfl
@[simp] theorem State.setSqp_evt (s : State) (p : Nat) (x : SqP) : (s.setSqp p x).evt = s.evt := rfl
@[simp] theorem State.setSqp_fab (s : State) (p : Nat) (x : SqP) : (s.setSqp p x).fab = s.fab := rfl
@[simp] theorem State.setSqp_hbm (s : State) (p : Nat) (x : SqP) : (s.setSqp p x).hbm = s.hbm := rfl
@[simp] theorem State.setSqp_hif (s : State) (p : Nat) (x : SqP) : (s.setSqp p x).hif = s.hif := rfl
@[simp] theorem State.setSqp_clk (s : State) (p : Nat) (x : SqP) : (s.setSqp p x).clk = s.clk := rfl
@[simp] theorem State.setSqp_pwr (s : State) (p : Nat) (x : SqP) : (s.setSqp p x).pwr = s.pwr := rfl
@[simp] theorem State.setSqp_nv (s : State) (p : Nat) (x : SqP) : (s.setSqp p x).nv = s.nv := rfl
@[simp] theorem State.setSqp_led (s : State) (p : Nat) (x : SqP) : (s.setSqp p x).led = s.led := rfl
@[simp] theorem State.setSqp_sec (s : State) (p : Nat) (x : SqP) : (s.setSqp p x).sec = s.sec := rfl
@[simp] theorem State.setSqp_gen (s : State) (p : Nat) (x : SqP) : (s.setSqp p x).gen = s.gen := rfl
@[simp] theorem State.setSqp_out (s : State) (p : Nat) (x : SqP) : (s.setSqp p x).out = s.out := rfl
@[simp] theorem State.setSqp_freeN (s : State) (p : Nat) (x : SqP) : (s.setSqp p x).freeN = s.freeN := rfl
@[simp] theorem State.setSqp_pending (s : State) (p : Nat) (x : SqP) : (s.setSqp p x).pending = s.pending := rfl

@[simp] theorem State.setLp_now (s : State) (p : Nat) (x : LigP) : (s.setLp p x).now = s.now := rfl
@[simp] theorem State.setLp_fields (s : State) (p : Nat) (x : LigP) : (s.setLp p x).fields = s.fields := rfl
@[simp] theorem State.setLp_fuse (s : State) (p : Nat) (x : LigP) : (s.setLp p x).fuse = s.fuse := rfl
@[simp] theorem State.setLp_split (s : State) (p : Nat) (x : LigP) : (s.setLp p x).split = s.split := rfl
@[simp] theorem State.setLp_mem (s : State) (p : Nat) (x : LigP) : (s.setLp p x).mem = s.mem := rfl
@[simp] theorem State.setLp_poison (s : State) (p : Nat) (x : LigP) : (s.setLp p x).poison = s.poison := rfl
@[simp] theorem State.setLp_host (s : State) (p : Nat) (x : LigP) : (s.setLp p x).host = s.host := rfl
@[simp] theorem State.setLp_ink (s : State) (p : Nat) (x : LigP) : (s.setLp p x).ink = s.ink := rfl
@[simp] theorem State.setLp_acc (s : State) (p : Nat) (x : LigP) : (s.setLp p x).acc = s.acc := rfl
@[simp] theorem State.setLp_blot (s : State) (p : Nat) (x : LigP) : (s.setLp p x).blot = s.blot := rfl
@[simp] theorem State.setLp_tiles (s : State) (p : Nat) (x : LigP) : (s.setLp p x).tiles = s.tiles := rfl
@[simp] theorem State.setLp_nw (s : State) (p : Nat) (x : LigP) : (s.setLp p x).nw = s.nw := rfl
@[simp] theorem State.setLp_sch (s : State) (p : Nat) (x : LigP) : (s.setLp p x).sch = s.sch := rfl
@[simp] theorem State.setLp_sq (s : State) (p : Nat) (x : LigP) : (s.setLp p x).sq = s.sq := rfl
@[simp] theorem State.setLp_pal (s : State) (p : Nat) (x : LigP) : (s.setLp p x).pal = s.pal := rfl
@[simp] theorem State.setLp_zt (s : State) (p : Nat) (x : LigP) : (s.setLp p x).zt = s.zt := rfl
@[simp] theorem State.setLp_eth (s : State) (p : Nat) (x : LigP) : (s.setLp p x).eth = s.eth := rfl
@[simp] theorem State.setLp_evt (s : State) (p : Nat) (x : LigP) : (s.setLp p x).evt = s.evt := rfl
@[simp] theorem State.setLp_fab (s : State) (p : Nat) (x : LigP) : (s.setLp p x).fab = s.fab := rfl
@[simp] theorem State.setLp_hbm (s : State) (p : Nat) (x : LigP) : (s.setLp p x).hbm = s.hbm := rfl
@[simp] theorem State.setLp_hif (s : State) (p : Nat) (x : LigP) : (s.setLp p x).hif = s.hif := rfl
@[simp] theorem State.setLp_clk (s : State) (p : Nat) (x : LigP) : (s.setLp p x).clk = s.clk := rfl
@[simp] theorem State.setLp_pwr (s : State) (p : Nat) (x : LigP) : (s.setLp p x).pwr = s.pwr := rfl
@[simp] theorem State.setLp_nv (s : State) (p : Nat) (x : LigP) : (s.setLp p x).nv = s.nv := rfl
@[simp] theorem State.setLp_led (s : State) (p : Nat) (x : LigP) : (s.setLp p x).led = s.led := rfl
@[simp] theorem State.setLp_sec (s : State) (p : Nat) (x : LigP) : (s.setLp p x).sec = s.sec := rfl
@[simp] theorem State.setLp_gen (s : State) (p : Nat) (x : LigP) : (s.setLp p x).gen = s.gen := rfl
@[simp] theorem State.setLp_out (s : State) (p : Nat) (x : LigP) : (s.setLp p x).out = s.out := rfl
@[simp] theorem State.setLp_freeN (s : State) (p : Nat) (x : LigP) : (s.setLp p x).freeN = s.freeN := rfl
@[simp] theorem State.setLp_pending (s : State) (p : Nat) (x : LigP) : (s.setLp p x).pending = s.pending := rfl

@[simp] theorem State.setPp_now (s : State) (p : Nat) (x : PalP) : (s.setPp p x).now = s.now := rfl
@[simp] theorem State.setPp_fields (s : State) (p : Nat) (x : PalP) : (s.setPp p x).fields = s.fields := rfl
@[simp] theorem State.setPp_fuse (s : State) (p : Nat) (x : PalP) : (s.setPp p x).fuse = s.fuse := rfl
@[simp] theorem State.setPp_split (s : State) (p : Nat) (x : PalP) : (s.setPp p x).split = s.split := rfl
@[simp] theorem State.setPp_mem (s : State) (p : Nat) (x : PalP) : (s.setPp p x).mem = s.mem := rfl
@[simp] theorem State.setPp_poison (s : State) (p : Nat) (x : PalP) : (s.setPp p x).poison = s.poison := rfl
@[simp] theorem State.setPp_host (s : State) (p : Nat) (x : PalP) : (s.setPp p x).host = s.host := rfl
@[simp] theorem State.setPp_ink (s : State) (p : Nat) (x : PalP) : (s.setPp p x).ink = s.ink := rfl
@[simp] theorem State.setPp_acc (s : State) (p : Nat) (x : PalP) : (s.setPp p x).acc = s.acc := rfl
@[simp] theorem State.setPp_blot (s : State) (p : Nat) (x : PalP) : (s.setPp p x).blot = s.blot := rfl
@[simp] theorem State.setPp_tiles (s : State) (p : Nat) (x : PalP) : (s.setPp p x).tiles = s.tiles := rfl
@[simp] theorem State.setPp_nw (s : State) (p : Nat) (x : PalP) : (s.setPp p x).nw = s.nw := rfl
@[simp] theorem State.setPp_sch (s : State) (p : Nat) (x : PalP) : (s.setPp p x).sch = s.sch := rfl
@[simp] theorem State.setPp_sq (s : State) (p : Nat) (x : PalP) : (s.setPp p x).sq = s.sq := rfl
@[simp] theorem State.setPp_lig (s : State) (p : Nat) (x : PalP) : (s.setPp p x).lig = s.lig := rfl
@[simp] theorem State.setPp_zt (s : State) (p : Nat) (x : PalP) : (s.setPp p x).zt = s.zt := rfl
@[simp] theorem State.setPp_eth (s : State) (p : Nat) (x : PalP) : (s.setPp p x).eth = s.eth := rfl
@[simp] theorem State.setPp_evt (s : State) (p : Nat) (x : PalP) : (s.setPp p x).evt = s.evt := rfl
@[simp] theorem State.setPp_fab (s : State) (p : Nat) (x : PalP) : (s.setPp p x).fab = s.fab := rfl
@[simp] theorem State.setPp_hbm (s : State) (p : Nat) (x : PalP) : (s.setPp p x).hbm = s.hbm := rfl
@[simp] theorem State.setPp_hif (s : State) (p : Nat) (x : PalP) : (s.setPp p x).hif = s.hif := rfl
@[simp] theorem State.setPp_clk (s : State) (p : Nat) (x : PalP) : (s.setPp p x).clk = s.clk := rfl
@[simp] theorem State.setPp_pwr (s : State) (p : Nat) (x : PalP) : (s.setPp p x).pwr = s.pwr := rfl
@[simp] theorem State.setPp_nv (s : State) (p : Nat) (x : PalP) : (s.setPp p x).nv = s.nv := rfl
@[simp] theorem State.setPp_led (s : State) (p : Nat) (x : PalP) : (s.setPp p x).led = s.led := rfl
@[simp] theorem State.setPp_sec (s : State) (p : Nat) (x : PalP) : (s.setPp p x).sec = s.sec := rfl
@[simp] theorem State.setPp_gen (s : State) (p : Nat) (x : PalP) : (s.setPp p x).gen = s.gen := rfl
@[simp] theorem State.setPp_out (s : State) (p : Nat) (x : PalP) : (s.setPp p x).out = s.out := rfl
@[simp] theorem State.setPp_freeN (s : State) (p : Nat) (x : PalP) : (s.setPp p x).freeN = s.freeN := rfl
@[simp] theorem State.setPp_pending (s : State) (p : Nat) (x : PalP) : (s.setPp p x).pending = s.pending := rfl

@[simp] theorem State.setHp_now (s : State) (p : Nat) (x : HifP) : (s.setHp p x).now = s.now := rfl
@[simp] theorem State.setHp_fields (s : State) (p : Nat) (x : HifP) : (s.setHp p x).fields = s.fields := rfl
@[simp] theorem State.setHp_fuse (s : State) (p : Nat) (x : HifP) : (s.setHp p x).fuse = s.fuse := rfl
@[simp] theorem State.setHp_split (s : State) (p : Nat) (x : HifP) : (s.setHp p x).split = s.split := rfl
@[simp] theorem State.setHp_mem (s : State) (p : Nat) (x : HifP) : (s.setHp p x).mem = s.mem := rfl
@[simp] theorem State.setHp_poison (s : State) (p : Nat) (x : HifP) : (s.setHp p x).poison = s.poison := rfl
@[simp] theorem State.setHp_host (s : State) (p : Nat) (x : HifP) : (s.setHp p x).host = s.host := rfl
@[simp] theorem State.setHp_ink (s : State) (p : Nat) (x : HifP) : (s.setHp p x).ink = s.ink := rfl
@[simp] theorem State.setHp_acc (s : State) (p : Nat) (x : HifP) : (s.setHp p x).acc = s.acc := rfl
@[simp] theorem State.setHp_blot (s : State) (p : Nat) (x : HifP) : (s.setHp p x).blot = s.blot := rfl
@[simp] theorem State.setHp_tiles (s : State) (p : Nat) (x : HifP) : (s.setHp p x).tiles = s.tiles := rfl
@[simp] theorem State.setHp_nw (s : State) (p : Nat) (x : HifP) : (s.setHp p x).nw = s.nw := rfl
@[simp] theorem State.setHp_sch (s : State) (p : Nat) (x : HifP) : (s.setHp p x).sch = s.sch := rfl
@[simp] theorem State.setHp_sq (s : State) (p : Nat) (x : HifP) : (s.setHp p x).sq = s.sq := rfl
@[simp] theorem State.setHp_lig (s : State) (p : Nat) (x : HifP) : (s.setHp p x).lig = s.lig := rfl
@[simp] theorem State.setHp_pal (s : State) (p : Nat) (x : HifP) : (s.setHp p x).pal = s.pal := rfl
@[simp] theorem State.setHp_zt (s : State) (p : Nat) (x : HifP) : (s.setHp p x).zt = s.zt := rfl
@[simp] theorem State.setHp_eth (s : State) (p : Nat) (x : HifP) : (s.setHp p x).eth = s.eth := rfl
@[simp] theorem State.setHp_evt (s : State) (p : Nat) (x : HifP) : (s.setHp p x).evt = s.evt := rfl
@[simp] theorem State.setHp_fab (s : State) (p : Nat) (x : HifP) : (s.setHp p x).fab = s.fab := rfl
@[simp] theorem State.setHp_hbm (s : State) (p : Nat) (x : HifP) : (s.setHp p x).hbm = s.hbm := rfl
@[simp] theorem State.setHp_clk (s : State) (p : Nat) (x : HifP) : (s.setHp p x).clk = s.clk := rfl
@[simp] theorem State.setHp_pwr (s : State) (p : Nat) (x : HifP) : (s.setHp p x).pwr = s.pwr := rfl
@[simp] theorem State.setHp_nv (s : State) (p : Nat) (x : HifP) : (s.setHp p x).nv = s.nv := rfl
@[simp] theorem State.setHp_led (s : State) (p : Nat) (x : HifP) : (s.setHp p x).led = s.led := rfl
@[simp] theorem State.setHp_sec (s : State) (p : Nat) (x : HifP) : (s.setHp p x).sec = s.sec := rfl
@[simp] theorem State.setHp_gen (s : State) (p : Nat) (x : HifP) : (s.setHp p x).gen = s.gen := rfl
@[simp] theorem State.setHp_out (s : State) (p : Nat) (x : HifP) : (s.setHp p x).out = s.out := rfl
@[simp] theorem State.setHp_freeN (s : State) (p : Nat) (x : HifP) : (s.setHp p x).freeN = s.freeN := rfl
@[simp] theorem State.setHp_pending (s : State) (p : Nat) (x : HifP) : (s.setHp p x).pending = s.pending := rfl

@[simp] theorem State.setChan_now (s : State) (c : Nat) (x : Chan) : (s.setChan c x).now = s.now := rfl
@[simp] theorem State.setChan_fields (s : State) (c : Nat) (x : Chan) : (s.setChan c x).fields = s.fields := rfl
@[simp] theorem State.setChan_fuse (s : State) (c : Nat) (x : Chan) : (s.setChan c x).fuse = s.fuse := rfl
@[simp] theorem State.setChan_split (s : State) (c : Nat) (x : Chan) : (s.setChan c x).split = s.split := rfl
@[simp] theorem State.setChan_mem (s : State) (c : Nat) (x : Chan) : (s.setChan c x).mem = s.mem := rfl
@[simp] theorem State.setChan_poison (s : State) (c : Nat) (x : Chan) : (s.setChan c x).poison = s.poison := rfl
@[simp] theorem State.setChan_host (s : State) (c : Nat) (x : Chan) : (s.setChan c x).host = s.host := rfl
@[simp] theorem State.setChan_ink (s : State) (c : Nat) (x : Chan) : (s.setChan c x).ink = s.ink := rfl
@[simp] theorem State.setChan_acc (s : State) (c : Nat) (x : Chan) : (s.setChan c x).acc = s.acc := rfl
@[simp] theorem State.setChan_blot (s : State) (c : Nat) (x : Chan) : (s.setChan c x).blot = s.blot := rfl
@[simp] theorem State.setChan_tiles (s : State) (c : Nat) (x : Chan) : (s.setChan c x).tiles = s.tiles := rfl
@[simp] theorem State.setChan_nw (s : State) (c : Nat) (x : Chan) : (s.setChan c x).nw = s.nw := rfl
@[simp] theorem State.setChan_sch (s : State) (c : Nat) (x : Chan) : (s.setChan c x).sch = s.sch := rfl
@[simp] theorem State.setChan_sq (s : State) (c : Nat) (x : Chan) : (s.setChan c x).sq = s.sq := rfl
@[simp] theorem State.setChan_lig (s : State) (c : Nat) (x : Chan) : (s.setChan c x).lig = s.lig := rfl
@[simp] theorem State.setChan_pal (s : State) (c : Nat) (x : Chan) : (s.setChan c x).pal = s.pal := rfl
@[simp] theorem State.setChan_zt (s : State) (c : Nat) (x : Chan) : (s.setChan c x).zt = s.zt := rfl
@[simp] theorem State.setChan_eth (s : State) (c : Nat) (x : Chan) : (s.setChan c x).eth = s.eth := rfl
@[simp] theorem State.setChan_evt (s : State) (c : Nat) (x : Chan) : (s.setChan c x).evt = s.evt := rfl
@[simp] theorem State.setChan_fab (s : State) (c : Nat) (x : Chan) : (s.setChan c x).fab = s.fab := rfl
@[simp] theorem State.setChan_hif (s : State) (c : Nat) (x : Chan) : (s.setChan c x).hif = s.hif := rfl
@[simp] theorem State.setChan_clk (s : State) (c : Nat) (x : Chan) : (s.setChan c x).clk = s.clk := rfl
@[simp] theorem State.setChan_pwr (s : State) (c : Nat) (x : Chan) : (s.setChan c x).pwr = s.pwr := rfl
@[simp] theorem State.setChan_nv (s : State) (c : Nat) (x : Chan) : (s.setChan c x).nv = s.nv := rfl
@[simp] theorem State.setChan_led (s : State) (c : Nat) (x : Chan) : (s.setChan c x).led = s.led := rfl
@[simp] theorem State.setChan_sec (s : State) (c : Nat) (x : Chan) : (s.setChan c x).sec = s.sec := rfl
@[simp] theorem State.setChan_gen (s : State) (c : Nat) (x : Chan) : (s.setChan c x).gen = s.gen := rfl
@[simp] theorem State.setChan_out (s : State) (c : Nat) (x : Chan) : (s.setChan c x).out = s.out := rfl
@[simp] theorem State.setChan_freeN (s : State) (c : Nat) (x : Chan) : (s.setChan c x).freeN = s.freeN := rfl
@[simp] theorem State.setChan_pending (s : State) (c : Nat) (x : Chan) : (s.setChan c x).pending = s.pending := rfl

@[simp] theorem State.setRole_now (s : State) (t role part : Nat) : (s.setRole t role part).now = s.now := rfl
@[simp] theorem State.setRole_fields (s : State) (t role part : Nat) : (s.setRole t role part).fields = s.fields := rfl
@[simp] theorem State.setRole_fuse (s : State) (t role part : Nat) : (s.setRole t role part).fuse = s.fuse := rfl
@[simp] theorem State.setRole_split (s : State) (t role part : Nat) : (s.setRole t role part).split = s.split := rfl
@[simp] theorem State.setRole_mem (s : State) (t role part : Nat) : (s.setRole t role part).mem = s.mem := rfl
@[simp] theorem State.setRole_poison (s : State) (t role part : Nat) : (s.setRole t role part).poison = s.poison := rfl
@[simp] theorem State.setRole_host (s : State) (t role part : Nat) : (s.setRole t role part).host = s.host := rfl
@[simp] theorem State.setRole_ink (s : State) (t role part : Nat) : (s.setRole t role part).ink = s.ink := rfl
@[simp] theorem State.setRole_acc (s : State) (t role part : Nat) : (s.setRole t role part).acc = s.acc := rfl
@[simp] theorem State.setRole_blot (s : State) (t role part : Nat) : (s.setRole t role part).blot = s.blot := rfl
@[simp] theorem State.setRole_tiles (s : State) (t role part : Nat) : (s.setRole t role part).tiles = s.tiles := rfl
@[simp] theorem State.setRole_nw (s : State) (t role part : Nat) : (s.setRole t role part).nw = s.nw := rfl
@[simp] theorem State.setRole_sch (s : State) (t role part : Nat) : (s.setRole t role part).sch = s.sch := rfl
@[simp] theorem State.setRole_sq (s : State) (t role part : Nat) : (s.setRole t role part).sq = s.sq := rfl
@[simp] theorem State.setRole_lig (s : State) (t role part : Nat) : (s.setRole t role part).lig = s.lig := rfl
@[simp] theorem State.setRole_pal (s : State) (t role part : Nat) : (s.setRole t role part).pal = s.pal := rfl
@[simp] theorem State.setRole_zt (s : State) (t role part : Nat) : (s.setRole t role part).zt = s.zt := rfl
@[simp] theorem State.setRole_eth (s : State) (t role part : Nat) : (s.setRole t role part).eth = s.eth := rfl
@[simp] theorem State.setRole_evt (s : State) (t role part : Nat) : (s.setRole t role part).evt = s.evt := rfl
@[simp] theorem State.setRole_hbm (s : State) (t role part : Nat) : (s.setRole t role part).hbm = s.hbm := rfl
@[simp] theorem State.setRole_hif (s : State) (t role part : Nat) : (s.setRole t role part).hif = s.hif := rfl
@[simp] theorem State.setRole_clk (s : State) (t role part : Nat) : (s.setRole t role part).clk = s.clk := rfl
@[simp] theorem State.setRole_pwr (s : State) (t role part : Nat) : (s.setRole t role part).pwr = s.pwr := rfl
@[simp] theorem State.setRole_nv (s : State) (t role part : Nat) : (s.setRole t role part).nv = s.nv := rfl
@[simp] theorem State.setRole_led (s : State) (t role part : Nat) : (s.setRole t role part).led = s.led := rfl
@[simp] theorem State.setRole_sec (s : State) (t role part : Nat) : (s.setRole t role part).sec = s.sec := rfl
@[simp] theorem State.setRole_gen (s : State) (t role part : Nat) : (s.setRole t role part).gen = s.gen := rfl
@[simp] theorem State.setRole_out (s : State) (t role part : Nat) : (s.setRole t role part).out = s.out := rfl
@[simp] theorem State.setRole_freeN (s : State) (t role part : Nat) : (s.setRole t role part).freeN = s.freeN := rfl
@[simp] theorem State.setRole_pending (s : State) (t role part : Nat) : (s.setRole t role part).pending = s.pending := rfl

@[simp] theorem State.countSev_now (s : State) (v : Nat) : (s.countSev v).now = s.now := by unfold State.countSev; simp
@[simp] theorem State.countSev_fuse (s : State) (v : Nat) : (s.countSev v).fuse = s.fuse := by unfold State.countSev; simp
@[simp] theorem State.countSev_split (s : State) (v : Nat) : (s.countSev v).split = s.split := by unfold State.countSev; simp
@[simp] theorem State.countSev_mem (s : State) (v : Nat) : (s.countSev v).mem = s.mem := by unfold State.countSev; simp
@[simp] theorem State.countSev_poison (s : State) (v : Nat) : (s.countSev v).poison = s.poison := by unfold State.countSev; simp
@[simp] theorem State.countSev_host (s : State) (v : Nat) : (s.countSev v).host = s.host := by unfold State.countSev; simp
@[simp] theorem State.countSev_ink (s : State) (v : Nat) : (s.countSev v).ink = s.ink := by unfold State.countSev; simp
@[simp] theorem State.countSev_acc (s : State) (v : Nat) : (s.countSev v).acc = s.acc := by unfold State.countSev; simp
@[simp] theorem State.countSev_blot (s : State) (v : Nat) : (s.countSev v).blot = s.blot := by unfold State.countSev; simp
@[simp] theorem State.countSev_tiles (s : State) (v : Nat) : (s.countSev v).tiles = s.tiles := by unfold State.countSev; simp
@[simp] theorem State.countSev_nw (s : State) (v : Nat) : (s.countSev v).nw = s.nw := by unfold State.countSev; simp
@[simp] theorem State.countSev_sch (s : State) (v : Nat) : (s.countSev v).sch = s.sch := by unfold State.countSev; simp
@[simp] theorem State.countSev_sq (s : State) (v : Nat) : (s.countSev v).sq = s.sq := by unfold State.countSev; simp
@[simp] theorem State.countSev_lig (s : State) (v : Nat) : (s.countSev v).lig = s.lig := by unfold State.countSev; simp
@[simp] theorem State.countSev_pal (s : State) (v : Nat) : (s.countSev v).pal = s.pal := by unfold State.countSev; simp
@[simp] theorem State.countSev_zt (s : State) (v : Nat) : (s.countSev v).zt = s.zt := by unfold State.countSev; simp
@[simp] theorem State.countSev_eth (s : State) (v : Nat) : (s.countSev v).eth = s.eth := by unfold State.countSev; simp
@[simp] theorem State.countSev_evt (s : State) (v : Nat) : (s.countSev v).evt = s.evt := by unfold State.countSev; simp
@[simp] theorem State.countSev_fab (s : State) (v : Nat) : (s.countSev v).fab = s.fab := by unfold State.countSev; simp
@[simp] theorem State.countSev_hbm (s : State) (v : Nat) : (s.countSev v).hbm = s.hbm := by unfold State.countSev; simp
@[simp] theorem State.countSev_hif (s : State) (v : Nat) : (s.countSev v).hif = s.hif := by unfold State.countSev; simp
@[simp] theorem State.countSev_clk (s : State) (v : Nat) : (s.countSev v).clk = s.clk := by unfold State.countSev; simp
@[simp] theorem State.countSev_pwr (s : State) (v : Nat) : (s.countSev v).pwr = s.pwr := by unfold State.countSev; simp
@[simp] theorem State.countSev_nv (s : State) (v : Nat) : (s.countSev v).nv = s.nv := by unfold State.countSev; simp
@[simp] theorem State.countSev_led (s : State) (v : Nat) : (s.countSev v).led = s.led := by unfold State.countSev; simp
@[simp] theorem State.countSev_sec (s : State) (v : Nat) : (s.countSev v).sec = s.sec := by unfold State.countSev; simp
@[simp] theorem State.countSev_gen (s : State) (v : Nat) : (s.countSev v).gen = s.gen := by unfold State.countSev; simp
@[simp] theorem State.countSev_out (s : State) (v : Nat) : (s.countSev v).out = s.out := by unfold State.countSev; simp
@[simp] theorem State.countSev_freeN (s : State) (v : Nat) : (s.countSev v).freeN = s.freeN := by unfold State.countSev; simp
@[simp] theorem State.countSev_pending (s : State) (v : Nat) : (s.countSev v).pending = s.pending := by unfold State.countSev; simp

@[simp] theorem State.pendEv_now (s : State) (e : Ev) : (s.pendEv e).now = s.now := rfl
@[simp] theorem State.pendEv_fields (s : State) (e : Ev) : (s.pendEv e).fields = s.fields := rfl
@[simp] theorem State.pendEv_fuse (s : State) (e : Ev) : (s.pendEv e).fuse = s.fuse := rfl
@[simp] theorem State.pendEv_split (s : State) (e : Ev) : (s.pendEv e).split = s.split := rfl
@[simp] theorem State.pendEv_mem (s : State) (e : Ev) : (s.pendEv e).mem = s.mem := rfl
@[simp] theorem State.pendEv_poison (s : State) (e : Ev) : (s.pendEv e).poison = s.poison := rfl
@[simp] theorem State.pendEv_host (s : State) (e : Ev) : (s.pendEv e).host = s.host := rfl
@[simp] theorem State.pendEv_ink (s : State) (e : Ev) : (s.pendEv e).ink = s.ink := rfl
@[simp] theorem State.pendEv_acc (s : State) (e : Ev) : (s.pendEv e).acc = s.acc := rfl
@[simp] theorem State.pendEv_blot (s : State) (e : Ev) : (s.pendEv e).blot = s.blot := rfl
@[simp] theorem State.pendEv_tiles (s : State) (e : Ev) : (s.pendEv e).tiles = s.tiles := rfl
@[simp] theorem State.pendEv_nw (s : State) (e : Ev) : (s.pendEv e).nw = s.nw := rfl
@[simp] theorem State.pendEv_sch (s : State) (e : Ev) : (s.pendEv e).sch = s.sch := rfl
@[simp] theorem State.pendEv_sq (s : State) (e : Ev) : (s.pendEv e).sq = s.sq := rfl
@[simp] theorem State.pendEv_lig (s : State) (e : Ev) : (s.pendEv e).lig = s.lig := rfl
@[simp] theorem State.pendEv_pal (s : State) (e : Ev) : (s.pendEv e).pal = s.pal := rfl
@[simp] theorem State.pendEv_zt (s : State) (e : Ev) : (s.pendEv e).zt = s.zt := rfl
@[simp] theorem State.pendEv_eth (s : State) (e : Ev) : (s.pendEv e).eth = s.eth := rfl
@[simp] theorem State.pendEv_fab (s : State) (e : Ev) : (s.pendEv e).fab = s.fab := rfl
@[simp] theorem State.pendEv_hbm (s : State) (e : Ev) : (s.pendEv e).hbm = s.hbm := rfl
@[simp] theorem State.pendEv_hif (s : State) (e : Ev) : (s.pendEv e).hif = s.hif := rfl
@[simp] theorem State.pendEv_clk (s : State) (e : Ev) : (s.pendEv e).clk = s.clk := rfl
@[simp] theorem State.pendEv_pwr (s : State) (e : Ev) : (s.pendEv e).pwr = s.pwr := rfl
@[simp] theorem State.pendEv_nv (s : State) (e : Ev) : (s.pendEv e).nv = s.nv := rfl
@[simp] theorem State.pendEv_led (s : State) (e : Ev) : (s.pendEv e).led = s.led := rfl
@[simp] theorem State.pendEv_sec (s : State) (e : Ev) : (s.pendEv e).sec = s.sec := rfl
@[simp] theorem State.pendEv_gen (s : State) (e : Ev) : (s.pendEv e).gen = s.gen := rfl
@[simp] theorem State.pendEv_out (s : State) (e : Ev) : (s.pendEv e).out = s.out := rfl
@[simp] theorem State.pendEv_freeN (s : State) (e : Ev) : (s.pendEv e).freeN = s.freeN := rfl
@[simp] theorem State.pendEv_pending (s : State) (e : Ev) : (s.pendEv e).pending = s.pending := rfl

@[simp] theorem State.raise_now (s : State) (e : Ev) : (s.raise e).now = s.now := by unfold State.raise; simp
@[simp] theorem State.raise_fuse (s : State) (e : Ev) : (s.raise e).fuse = s.fuse := by unfold State.raise; simp
@[simp] theorem State.raise_split (s : State) (e : Ev) : (s.raise e).split = s.split := by unfold State.raise; simp
@[simp] theorem State.raise_mem (s : State) (e : Ev) : (s.raise e).mem = s.mem := by unfold State.raise; simp
@[simp] theorem State.raise_poison (s : State) (e : Ev) : (s.raise e).poison = s.poison := by unfold State.raise; simp
@[simp] theorem State.raise_host (s : State) (e : Ev) : (s.raise e).host = s.host := by unfold State.raise; simp
@[simp] theorem State.raise_ink (s : State) (e : Ev) : (s.raise e).ink = s.ink := by unfold State.raise; simp
@[simp] theorem State.raise_acc (s : State) (e : Ev) : (s.raise e).acc = s.acc := by unfold State.raise; simp
@[simp] theorem State.raise_blot (s : State) (e : Ev) : (s.raise e).blot = s.blot := by unfold State.raise; simp
@[simp] theorem State.raise_tiles (s : State) (e : Ev) : (s.raise e).tiles = s.tiles := by unfold State.raise; simp
@[simp] theorem State.raise_nw (s : State) (e : Ev) : (s.raise e).nw = s.nw := by unfold State.raise; simp
@[simp] theorem State.raise_sch (s : State) (e : Ev) : (s.raise e).sch = s.sch := by unfold State.raise; simp
@[simp] theorem State.raise_sq (s : State) (e : Ev) : (s.raise e).sq = s.sq := by unfold State.raise; simp
@[simp] theorem State.raise_lig (s : State) (e : Ev) : (s.raise e).lig = s.lig := by unfold State.raise; simp
@[simp] theorem State.raise_pal (s : State) (e : Ev) : (s.raise e).pal = s.pal := by unfold State.raise; simp
@[simp] theorem State.raise_zt (s : State) (e : Ev) : (s.raise e).zt = s.zt := by unfold State.raise; simp
@[simp] theorem State.raise_eth (s : State) (e : Ev) : (s.raise e).eth = s.eth := by unfold State.raise; simp
@[simp] theorem State.raise_fab (s : State) (e : Ev) : (s.raise e).fab = s.fab := by unfold State.raise; simp
@[simp] theorem State.raise_hbm (s : State) (e : Ev) : (s.raise e).hbm = s.hbm := by unfold State.raise; simp
@[simp] theorem State.raise_hif (s : State) (e : Ev) : (s.raise e).hif = s.hif := by unfold State.raise; simp
@[simp] theorem State.raise_clk (s : State) (e : Ev) : (s.raise e).clk = s.clk := by unfold State.raise; simp
@[simp] theorem State.raise_pwr (s : State) (e : Ev) : (s.raise e).pwr = s.pwr := by unfold State.raise; simp
@[simp] theorem State.raise_nv (s : State) (e : Ev) : (s.raise e).nv = s.nv := by unfold State.raise; simp
@[simp] theorem State.raise_led (s : State) (e : Ev) : (s.raise e).led = s.led := by unfold State.raise; simp
@[simp] theorem State.raise_sec (s : State) (e : Ev) : (s.raise e).sec = s.sec := by unfold State.raise; simp
@[simp] theorem State.raise_gen (s : State) (e : Ev) : (s.raise e).gen = s.gen := by unfold State.raise; simp
@[simp] theorem State.raise_out (s : State) (e : Ev) : (s.raise e).out = s.out := by unfold State.raise; simp
@[simp] theorem State.raise_freeN (s : State) (e : Ev) : (s.raise e).freeN = s.freeN := by unfold State.raise; simp
@[simp] theorem State.raise_pending (s : State) (e : Ev) : (s.raise e).pending = s.pending := by unfold State.raise; simp

@[simp] theorem State.partEv_now (s : State) (typ sev p code detail : Nat) : (s.partEv typ sev p code detail).now = s.now := by unfold State.partEv; simp
@[simp] theorem State.partEv_fuse (s : State) (typ sev p code detail : Nat) : (s.partEv typ sev p code detail).fuse = s.fuse := by unfold State.partEv; simp
@[simp] theorem State.partEv_split (s : State) (typ sev p code detail : Nat) : (s.partEv typ sev p code detail).split = s.split := by unfold State.partEv; simp
@[simp] theorem State.partEv_mem (s : State) (typ sev p code detail : Nat) : (s.partEv typ sev p code detail).mem = s.mem := by unfold State.partEv; simp
@[simp] theorem State.partEv_poison (s : State) (typ sev p code detail : Nat) : (s.partEv typ sev p code detail).poison = s.poison := by unfold State.partEv; simp
@[simp] theorem State.partEv_host (s : State) (typ sev p code detail : Nat) : (s.partEv typ sev p code detail).host = s.host := by unfold State.partEv; simp
@[simp] theorem State.partEv_ink (s : State) (typ sev p code detail : Nat) : (s.partEv typ sev p code detail).ink = s.ink := by unfold State.partEv; simp
@[simp] theorem State.partEv_acc (s : State) (typ sev p code detail : Nat) : (s.partEv typ sev p code detail).acc = s.acc := by unfold State.partEv; simp
@[simp] theorem State.partEv_blot (s : State) (typ sev p code detail : Nat) : (s.partEv typ sev p code detail).blot = s.blot := by unfold State.partEv; simp
@[simp] theorem State.partEv_tiles (s : State) (typ sev p code detail : Nat) : (s.partEv typ sev p code detail).tiles = s.tiles := by unfold State.partEv; simp
@[simp] theorem State.partEv_nw (s : State) (typ sev p code detail : Nat) : (s.partEv typ sev p code detail).nw = s.nw := by unfold State.partEv; simp
@[simp] theorem State.partEv_sch (s : State) (typ sev p code detail : Nat) : (s.partEv typ sev p code detail).sch = s.sch := by unfold State.partEv; simp
@[simp] theorem State.partEv_sq (s : State) (typ sev p code detail : Nat) : (s.partEv typ sev p code detail).sq = s.sq := by unfold State.partEv; simp
@[simp] theorem State.partEv_lig (s : State) (typ sev p code detail : Nat) : (s.partEv typ sev p code detail).lig = s.lig := by unfold State.partEv; simp
@[simp] theorem State.partEv_pal (s : State) (typ sev p code detail : Nat) : (s.partEv typ sev p code detail).pal = s.pal := by unfold State.partEv; simp
@[simp] theorem State.partEv_zt (s : State) (typ sev p code detail : Nat) : (s.partEv typ sev p code detail).zt = s.zt := by unfold State.partEv; simp
@[simp] theorem State.partEv_eth (s : State) (typ sev p code detail : Nat) : (s.partEv typ sev p code detail).eth = s.eth := by unfold State.partEv; simp
@[simp] theorem State.partEv_fab (s : State) (typ sev p code detail : Nat) : (s.partEv typ sev p code detail).fab = s.fab := by unfold State.partEv; simp
@[simp] theorem State.partEv_hbm (s : State) (typ sev p code detail : Nat) : (s.partEv typ sev p code detail).hbm = s.hbm := by unfold State.partEv; simp
@[simp] theorem State.partEv_hif (s : State) (typ sev p code detail : Nat) : (s.partEv typ sev p code detail).hif = s.hif := by unfold State.partEv; simp
@[simp] theorem State.partEv_clk (s : State) (typ sev p code detail : Nat) : (s.partEv typ sev p code detail).clk = s.clk := by unfold State.partEv; simp
@[simp] theorem State.partEv_pwr (s : State) (typ sev p code detail : Nat) : (s.partEv typ sev p code detail).pwr = s.pwr := by unfold State.partEv; simp
@[simp] theorem State.partEv_nv (s : State) (typ sev p code detail : Nat) : (s.partEv typ sev p code detail).nv = s.nv := by unfold State.partEv; simp
@[simp] theorem State.partEv_led (s : State) (typ sev p code detail : Nat) : (s.partEv typ sev p code detail).led = s.led := by unfold State.partEv; simp
@[simp] theorem State.partEv_sec (s : State) (typ sev p code detail : Nat) : (s.partEv typ sev p code detail).sec = s.sec := by unfold State.partEv; simp
@[simp] theorem State.partEv_gen (s : State) (typ sev p code detail : Nat) : (s.partEv typ sev p code detail).gen = s.gen := by unfold State.partEv; simp
@[simp] theorem State.partEv_out (s : State) (typ sev p code detail : Nat) : (s.partEv typ sev p code detail).out = s.out := by unfold State.partEv; simp
@[simp] theorem State.partEv_freeN (s : State) (typ sev p code detail : Nat) : (s.partEv typ sev p code detail).freeN = s.freeN := by unfold State.partEv; simp
@[simp] theorem State.partEv_pending (s : State) (typ sev p code detail : Nat) : (s.partEv typ sev p code detail).pending = s.pending := by unfold State.partEv; simp

@[simp] theorem State.devEv_now (s : State) (typ sev code detail : Nat) : (s.devEv typ sev code detail).now = s.now := by unfold State.devEv; simp
@[simp] theorem State.devEv_fuse (s : State) (typ sev code detail : Nat) : (s.devEv typ sev code detail).fuse = s.fuse := by unfold State.devEv; simp
@[simp] theorem State.devEv_split (s : State) (typ sev code detail : Nat) : (s.devEv typ sev code detail).split = s.split := by unfold State.devEv; simp
@[simp] theorem State.devEv_mem (s : State) (typ sev code detail : Nat) : (s.devEv typ sev code detail).mem = s.mem := by unfold State.devEv; simp
@[simp] theorem State.devEv_poison (s : State) (typ sev code detail : Nat) : (s.devEv typ sev code detail).poison = s.poison := by unfold State.devEv; simp
@[simp] theorem State.devEv_host (s : State) (typ sev code detail : Nat) : (s.devEv typ sev code detail).host = s.host := by unfold State.devEv; simp
@[simp] theorem State.devEv_ink (s : State) (typ sev code detail : Nat) : (s.devEv typ sev code detail).ink = s.ink := by unfold State.devEv; simp
@[simp] theorem State.devEv_acc (s : State) (typ sev code detail : Nat) : (s.devEv typ sev code detail).acc = s.acc := by unfold State.devEv; simp
@[simp] theorem State.devEv_blot (s : State) (typ sev code detail : Nat) : (s.devEv typ sev code detail).blot = s.blot := by unfold State.devEv; simp
@[simp] theorem State.devEv_tiles (s : State) (typ sev code detail : Nat) : (s.devEv typ sev code detail).tiles = s.tiles := by unfold State.devEv; simp
@[simp] theorem State.devEv_nw (s : State) (typ sev code detail : Nat) : (s.devEv typ sev code detail).nw = s.nw := by unfold State.devEv; simp
@[simp] theorem State.devEv_sch (s : State) (typ sev code detail : Nat) : (s.devEv typ sev code detail).sch = s.sch := by unfold State.devEv; simp
@[simp] theorem State.devEv_sq (s : State) (typ sev code detail : Nat) : (s.devEv typ sev code detail).sq = s.sq := by unfold State.devEv; simp
@[simp] theorem State.devEv_lig (s : State) (typ sev code detail : Nat) : (s.devEv typ sev code detail).lig = s.lig := by unfold State.devEv; simp
@[simp] theorem State.devEv_pal (s : State) (typ sev code detail : Nat) : (s.devEv typ sev code detail).pal = s.pal := by unfold State.devEv; simp
@[simp] theorem State.devEv_zt (s : State) (typ sev code detail : Nat) : (s.devEv typ sev code detail).zt = s.zt := by unfold State.devEv; simp
@[simp] theorem State.devEv_eth (s : State) (typ sev code detail : Nat) : (s.devEv typ sev code detail).eth = s.eth := by unfold State.devEv; simp
@[simp] theorem State.devEv_fab (s : State) (typ sev code detail : Nat) : (s.devEv typ sev code detail).fab = s.fab := by unfold State.devEv; simp
@[simp] theorem State.devEv_hbm (s : State) (typ sev code detail : Nat) : (s.devEv typ sev code detail).hbm = s.hbm := by unfold State.devEv; simp
@[simp] theorem State.devEv_hif (s : State) (typ sev code detail : Nat) : (s.devEv typ sev code detail).hif = s.hif := by unfold State.devEv; simp
@[simp] theorem State.devEv_clk (s : State) (typ sev code detail : Nat) : (s.devEv typ sev code detail).clk = s.clk := by unfold State.devEv; simp
@[simp] theorem State.devEv_pwr (s : State) (typ sev code detail : Nat) : (s.devEv typ sev code detail).pwr = s.pwr := by unfold State.devEv; simp
@[simp] theorem State.devEv_nv (s : State) (typ sev code detail : Nat) : (s.devEv typ sev code detail).nv = s.nv := by unfold State.devEv; simp
@[simp] theorem State.devEv_led (s : State) (typ sev code detail : Nat) : (s.devEv typ sev code detail).led = s.led := by unfold State.devEv; simp
@[simp] theorem State.devEv_sec (s : State) (typ sev code detail : Nat) : (s.devEv typ sev code detail).sec = s.sec := by unfold State.devEv; simp
@[simp] theorem State.devEv_gen (s : State) (typ sev code detail : Nat) : (s.devEv typ sev code detail).gen = s.gen := by unfold State.devEv; simp
@[simp] theorem State.devEv_out (s : State) (typ sev code detail : Nat) : (s.devEv typ sev code detail).out = s.out := by unfold State.devEv; simp
@[simp] theorem State.devEv_freeN (s : State) (typ sev code detail : Nat) : (s.devEv typ sev code detail).freeN = s.freeN := by unfold State.devEv; simp
@[simp] theorem State.devEv_pending (s : State) (typ sev code detail : Nat) : (s.devEv typ sev code detail).pending = s.pending := by unfold State.devEv; simp

@[simp] theorem State.noteEv_now (s : State) (typ sev p detail : Nat) : (s.noteEv typ sev p detail).now = s.now := by unfold State.noteEv; simp
@[simp] theorem State.noteEv_fuse (s : State) (typ sev p detail : Nat) : (s.noteEv typ sev p detail).fuse = s.fuse := by unfold State.noteEv; simp
@[simp] theorem State.noteEv_split (s : State) (typ sev p detail : Nat) : (s.noteEv typ sev p detail).split = s.split := by unfold State.noteEv; simp
@[simp] theorem State.noteEv_mem (s : State) (typ sev p detail : Nat) : (s.noteEv typ sev p detail).mem = s.mem := by unfold State.noteEv; simp
@[simp] theorem State.noteEv_poison (s : State) (typ sev p detail : Nat) : (s.noteEv typ sev p detail).poison = s.poison := by unfold State.noteEv; simp
@[simp] theorem State.noteEv_host (s : State) (typ sev p detail : Nat) : (s.noteEv typ sev p detail).host = s.host := by unfold State.noteEv; simp
@[simp] theorem State.noteEv_ink (s : State) (typ sev p detail : Nat) : (s.noteEv typ sev p detail).ink = s.ink := by unfold State.noteEv; simp
@[simp] theorem State.noteEv_acc (s : State) (typ sev p detail : Nat) : (s.noteEv typ sev p detail).acc = s.acc := by unfold State.noteEv; simp
@[simp] theorem State.noteEv_blot (s : State) (typ sev p detail : Nat) : (s.noteEv typ sev p detail).blot = s.blot := by unfold State.noteEv; simp
@[simp] theorem State.noteEv_tiles (s : State) (typ sev p detail : Nat) : (s.noteEv typ sev p detail).tiles = s.tiles := by unfold State.noteEv; simp
@[simp] theorem State.noteEv_nw (s : State) (typ sev p detail : Nat) : (s.noteEv typ sev p detail).nw = s.nw := by unfold State.noteEv; simp
@[simp] theorem State.noteEv_sch (s : State) (typ sev p detail : Nat) : (s.noteEv typ sev p detail).sch = s.sch := by unfold State.noteEv; simp
@[simp] theorem State.noteEv_sq (s : State) (typ sev p detail : Nat) : (s.noteEv typ sev p detail).sq = s.sq := by unfold State.noteEv; simp
@[simp] theorem State.noteEv_lig (s : State) (typ sev p detail : Nat) : (s.noteEv typ sev p detail).lig = s.lig := by unfold State.noteEv; simp
@[simp] theorem State.noteEv_pal (s : State) (typ sev p detail : Nat) : (s.noteEv typ sev p detail).pal = s.pal := by unfold State.noteEv; simp
@[simp] theorem State.noteEv_zt (s : State) (typ sev p detail : Nat) : (s.noteEv typ sev p detail).zt = s.zt := by unfold State.noteEv; simp
@[simp] theorem State.noteEv_eth (s : State) (typ sev p detail : Nat) : (s.noteEv typ sev p detail).eth = s.eth := by unfold State.noteEv; simp
@[simp] theorem State.noteEv_fab (s : State) (typ sev p detail : Nat) : (s.noteEv typ sev p detail).fab = s.fab := by unfold State.noteEv; simp
@[simp] theorem State.noteEv_hbm (s : State) (typ sev p detail : Nat) : (s.noteEv typ sev p detail).hbm = s.hbm := by unfold State.noteEv; simp
@[simp] theorem State.noteEv_hif (s : State) (typ sev p detail : Nat) : (s.noteEv typ sev p detail).hif = s.hif := by unfold State.noteEv; simp
@[simp] theorem State.noteEv_clk (s : State) (typ sev p detail : Nat) : (s.noteEv typ sev p detail).clk = s.clk := by unfold State.noteEv; simp
@[simp] theorem State.noteEv_pwr (s : State) (typ sev p detail : Nat) : (s.noteEv typ sev p detail).pwr = s.pwr := by unfold State.noteEv; simp
@[simp] theorem State.noteEv_nv (s : State) (typ sev p detail : Nat) : (s.noteEv typ sev p detail).nv = s.nv := by unfold State.noteEv; simp
@[simp] theorem State.noteEv_led (s : State) (typ sev p detail : Nat) : (s.noteEv typ sev p detail).led = s.led := by unfold State.noteEv; simp
@[simp] theorem State.noteEv_sec (s : State) (typ sev p detail : Nat) : (s.noteEv typ sev p detail).sec = s.sec := by unfold State.noteEv; simp
@[simp] theorem State.noteEv_gen (s : State) (typ sev p detail : Nat) : (s.noteEv typ sev p detail).gen = s.gen := by unfold State.noteEv; simp
@[simp] theorem State.noteEv_out (s : State) (typ sev p detail : Nat) : (s.noteEv typ sev p detail).out = s.out := by unfold State.noteEv; simp
@[simp] theorem State.noteEv_freeN (s : State) (typ sev p detail : Nat) : (s.noteEv typ sev p detail).freeN = s.freeN := by unfold State.noteEv; simp
@[simp] theorem State.noteEv_pending (s : State) (typ sev p detail : Nat) : (s.noteEv typ sev p detail).pending = s.pending := by unfold State.noteEv; simp

@[simp] theorem State.allEv_now (s : State) (typ sev code detail : Nat) (nmi pen : Bool) : (s.allEv typ sev code detail nmi pen).now = s.now := by unfold State.allEv; simp
@[simp] theorem State.allEv_fuse (s : State) (typ sev code detail : Nat) (nmi pen : Bool) : (s.allEv typ sev code detail nmi pen).fuse = s.fuse := by unfold State.allEv; simp
@[simp] theorem State.allEv_split (s : State) (typ sev code detail : Nat) (nmi pen : Bool) : (s.allEv typ sev code detail nmi pen).split = s.split := by unfold State.allEv; simp
@[simp] theorem State.allEv_mem (s : State) (typ sev code detail : Nat) (nmi pen : Bool) : (s.allEv typ sev code detail nmi pen).mem = s.mem := by unfold State.allEv; simp
@[simp] theorem State.allEv_poison (s : State) (typ sev code detail : Nat) (nmi pen : Bool) : (s.allEv typ sev code detail nmi pen).poison = s.poison := by unfold State.allEv; simp
@[simp] theorem State.allEv_host (s : State) (typ sev code detail : Nat) (nmi pen : Bool) : (s.allEv typ sev code detail nmi pen).host = s.host := by unfold State.allEv; simp
@[simp] theorem State.allEv_ink (s : State) (typ sev code detail : Nat) (nmi pen : Bool) : (s.allEv typ sev code detail nmi pen).ink = s.ink := by unfold State.allEv; simp
@[simp] theorem State.allEv_acc (s : State) (typ sev code detail : Nat) (nmi pen : Bool) : (s.allEv typ sev code detail nmi pen).acc = s.acc := by unfold State.allEv; simp
@[simp] theorem State.allEv_blot (s : State) (typ sev code detail : Nat) (nmi pen : Bool) : (s.allEv typ sev code detail nmi pen).blot = s.blot := by unfold State.allEv; simp
@[simp] theorem State.allEv_tiles (s : State) (typ sev code detail : Nat) (nmi pen : Bool) : (s.allEv typ sev code detail nmi pen).tiles = s.tiles := by unfold State.allEv; simp
@[simp] theorem State.allEv_nw (s : State) (typ sev code detail : Nat) (nmi pen : Bool) : (s.allEv typ sev code detail nmi pen).nw = s.nw := by unfold State.allEv; simp
@[simp] theorem State.allEv_sch (s : State) (typ sev code detail : Nat) (nmi pen : Bool) : (s.allEv typ sev code detail nmi pen).sch = s.sch := by unfold State.allEv; simp
@[simp] theorem State.allEv_sq (s : State) (typ sev code detail : Nat) (nmi pen : Bool) : (s.allEv typ sev code detail nmi pen).sq = s.sq := by unfold State.allEv; simp
@[simp] theorem State.allEv_lig (s : State) (typ sev code detail : Nat) (nmi pen : Bool) : (s.allEv typ sev code detail nmi pen).lig = s.lig := by unfold State.allEv; simp
@[simp] theorem State.allEv_pal (s : State) (typ sev code detail : Nat) (nmi pen : Bool) : (s.allEv typ sev code detail nmi pen).pal = s.pal := by unfold State.allEv; simp
@[simp] theorem State.allEv_zt (s : State) (typ sev code detail : Nat) (nmi pen : Bool) : (s.allEv typ sev code detail nmi pen).zt = s.zt := by unfold State.allEv; simp
@[simp] theorem State.allEv_eth (s : State) (typ sev code detail : Nat) (nmi pen : Bool) : (s.allEv typ sev code detail nmi pen).eth = s.eth := by unfold State.allEv; simp
@[simp] theorem State.allEv_fab (s : State) (typ sev code detail : Nat) (nmi pen : Bool) : (s.allEv typ sev code detail nmi pen).fab = s.fab := by unfold State.allEv; simp
@[simp] theorem State.allEv_hbm (s : State) (typ sev code detail : Nat) (nmi pen : Bool) : (s.allEv typ sev code detail nmi pen).hbm = s.hbm := by unfold State.allEv; simp
@[simp] theorem State.allEv_hif (s : State) (typ sev code detail : Nat) (nmi pen : Bool) : (s.allEv typ sev code detail nmi pen).hif = s.hif := by unfold State.allEv; simp
@[simp] theorem State.allEv_clk (s : State) (typ sev code detail : Nat) (nmi pen : Bool) : (s.allEv typ sev code detail nmi pen).clk = s.clk := by unfold State.allEv; simp
@[simp] theorem State.allEv_pwr (s : State) (typ sev code detail : Nat) (nmi pen : Bool) : (s.allEv typ sev code detail nmi pen).pwr = s.pwr := by unfold State.allEv; simp
@[simp] theorem State.allEv_nv (s : State) (typ sev code detail : Nat) (nmi pen : Bool) : (s.allEv typ sev code detail nmi pen).nv = s.nv := by unfold State.allEv; simp
@[simp] theorem State.allEv_led (s : State) (typ sev code detail : Nat) (nmi pen : Bool) : (s.allEv typ sev code detail nmi pen).led = s.led := by unfold State.allEv; simp
@[simp] theorem State.allEv_sec (s : State) (typ sev code detail : Nat) (nmi pen : Bool) : (s.allEv typ sev code detail nmi pen).sec = s.sec := by unfold State.allEv; simp
@[simp] theorem State.allEv_gen (s : State) (typ sev code detail : Nat) (nmi pen : Bool) : (s.allEv typ sev code detail nmi pen).gen = s.gen := by unfold State.allEv; simp
@[simp] theorem State.allEv_out (s : State) (typ sev code detail : Nat) (nmi pen : Bool) : (s.allEv typ sev code detail nmi pen).out = s.out := by unfold State.allEv; simp
@[simp] theorem State.allEv_freeN (s : State) (typ sev code detail : Nat) (nmi pen : Bool) : (s.allEv typ sev code detail nmi pen).freeN = s.freeN := by unfold State.allEv; simp
@[simp] theorem State.allEv_pending (s : State) (typ sev code detail : Nat) (nmi pen : Bool) : (s.allEv typ sev code detail nmi pen).pending = s.pending := by unfold State.allEv; simp

@[simp] theorem State.recErr_now (s : State) (e : Err) : (s.recErr e).now = s.now := by
  unfold State.recErr
  dsimp only
  split
  · simp
  · cases e.ovf <;> dsimp only <;> repeat' split
    all_goals simp
@[simp] theorem State.recErr_fuse (s : State) (e : Err) : (s.recErr e).fuse = s.fuse := by
  unfold State.recErr
  dsimp only
  split
  · simp
  · cases e.ovf <;> dsimp only <;> repeat' split
    all_goals simp
@[simp] theorem State.recErr_split (s : State) (e : Err) : (s.recErr e).split = s.split := by
  unfold State.recErr
  dsimp only
  split
  · simp
  · cases e.ovf <;> dsimp only <;> repeat' split
    all_goals simp
@[simp] theorem State.recErr_mem (s : State) (e : Err) : (s.recErr e).mem = s.mem := by
  unfold State.recErr
  dsimp only
  split
  · simp
  · cases e.ovf <;> dsimp only <;> repeat' split
    all_goals simp
@[simp] theorem State.recErr_poison (s : State) (e : Err) : (s.recErr e).poison = s.poison := by
  unfold State.recErr
  dsimp only
  split
  · simp
  · cases e.ovf <;> dsimp only <;> repeat' split
    all_goals simp
@[simp] theorem State.recErr_host (s : State) (e : Err) : (s.recErr e).host = s.host := by
  unfold State.recErr
  dsimp only
  split
  · simp
  · cases e.ovf <;> dsimp only <;> repeat' split
    all_goals simp
@[simp] theorem State.recErr_ink (s : State) (e : Err) : (s.recErr e).ink = s.ink := by
  unfold State.recErr
  dsimp only
  split
  · simp
  · cases e.ovf <;> dsimp only <;> repeat' split
    all_goals simp
@[simp] theorem State.recErr_acc (s : State) (e : Err) : (s.recErr e).acc = s.acc := by
  unfold State.recErr
  dsimp only
  split
  · simp
  · cases e.ovf <;> dsimp only <;> repeat' split
    all_goals simp
@[simp] theorem State.recErr_blot (s : State) (e : Err) : (s.recErr e).blot = s.blot := by
  unfold State.recErr
  dsimp only
  split
  · simp
  · cases e.ovf <;> dsimp only <;> repeat' split
    all_goals simp
@[simp] theorem State.recErr_tiles (s : State) (e : Err) : (s.recErr e).tiles = s.tiles := by
  unfold State.recErr
  dsimp only
  split
  · simp
  · cases e.ovf <;> dsimp only <;> repeat' split
    all_goals simp
@[simp] theorem State.recErr_nw (s : State) (e : Err) : (s.recErr e).nw = s.nw := by
  unfold State.recErr
  dsimp only
  split
  · simp
  · cases e.ovf <;> dsimp only <;> repeat' split
    all_goals simp
@[simp] theorem State.recErr_sch (s : State) (e : Err) : (s.recErr e).sch = s.sch := by
  unfold State.recErr
  dsimp only
  split
  · simp
  · cases e.ovf <;> dsimp only <;> repeat' split
    all_goals simp
@[simp] theorem State.recErr_sq (s : State) (e : Err) : (s.recErr e).sq = s.sq := by
  unfold State.recErr
  dsimp only
  split
  · simp
  · cases e.ovf <;> dsimp only <;> repeat' split
    all_goals simp
@[simp] theorem State.recErr_lig (s : State) (e : Err) : (s.recErr e).lig = s.lig := by
  unfold State.recErr
  dsimp only
  split
  · simp
  · cases e.ovf <;> dsimp only <;> repeat' split
    all_goals simp
@[simp] theorem State.recErr_pal (s : State) (e : Err) : (s.recErr e).pal = s.pal := by
  unfold State.recErr
  dsimp only
  split
  · simp
  · cases e.ovf <;> dsimp only <;> repeat' split
    all_goals simp
@[simp] theorem State.recErr_zt (s : State) (e : Err) : (s.recErr e).zt = s.zt := by
  unfold State.recErr
  dsimp only
  split
  · simp
  · cases e.ovf <;> dsimp only <;> repeat' split
    all_goals simp
@[simp] theorem State.recErr_eth (s : State) (e : Err) : (s.recErr e).eth = s.eth := by
  unfold State.recErr
  dsimp only
  split
  · simp
  · cases e.ovf <;> dsimp only <;> repeat' split
    all_goals simp
@[simp] theorem State.recErr_fab (s : State) (e : Err) : (s.recErr e).fab = s.fab := by
  unfold State.recErr
  dsimp only
  split
  · simp
  · cases e.ovf <;> dsimp only <;> repeat' split
    all_goals simp
@[simp] theorem State.recErr_hbm (s : State) (e : Err) : (s.recErr e).hbm = s.hbm := by
  unfold State.recErr
  dsimp only
  split
  · simp
  · cases e.ovf <;> dsimp only <;> repeat' split
    all_goals simp
@[simp] theorem State.recErr_hif (s : State) (e : Err) : (s.recErr e).hif = s.hif := by
  unfold State.recErr
  dsimp only
  split
  · simp
  · cases e.ovf <;> dsimp only <;> repeat' split
    all_goals simp
@[simp] theorem State.recErr_clk (s : State) (e : Err) : (s.recErr e).clk = s.clk := by
  unfold State.recErr
  dsimp only
  split
  · simp
  · cases e.ovf <;> dsimp only <;> repeat' split
    all_goals simp
@[simp] theorem State.recErr_pwr (s : State) (e : Err) : (s.recErr e).pwr = s.pwr := by
  unfold State.recErr
  dsimp only
  split
  · simp
  · cases e.ovf <;> dsimp only <;> repeat' split
    all_goals simp
@[simp] theorem State.recErr_nv (s : State) (e : Err) : (s.recErr e).nv = s.nv := by
  unfold State.recErr
  dsimp only
  split
  · simp
  · cases e.ovf <;> dsimp only <;> repeat' split
    all_goals simp
@[simp] theorem State.recErr_led (s : State) (e : Err) : (s.recErr e).led = s.led := by
  unfold State.recErr
  dsimp only
  split
  · simp
  · cases e.ovf <;> dsimp only <;> repeat' split
    all_goals simp
@[simp] theorem State.recErr_sec (s : State) (e : Err) : (s.recErr e).sec = s.sec := by
  unfold State.recErr
  dsimp only
  split
  · simp
  · cases e.ovf <;> dsimp only <;> repeat' split
    all_goals simp
@[simp] theorem State.recErr_gen (s : State) (e : Err) : (s.recErr e).gen = s.gen := by
  unfold State.recErr
  dsimp only
  split
  · simp
  · cases e.ovf <;> dsimp only <;> repeat' split
    all_goals simp
@[simp] theorem State.recErr_out (s : State) (e : Err) : (s.recErr e).out = s.out := by
  unfold State.recErr
  dsimp only
  split
  · simp
  · cases e.ovf <;> dsimp only <;> repeat' split
    all_goals simp
@[simp] theorem State.recErr_freeN (s : State) (e : Err) : (s.recErr e).freeN = s.freeN := by
  unfold State.recErr
  dsimp only
  split
  · simp
  · cases e.ovf <;> dsimp only <;> repeat' split
    all_goals simp
@[simp] theorem State.recErr_pending (s : State) (e : Err) : (s.recErr e).pending = s.pending := by
  unfold State.recErr
  dsimp only
  split
  · simp
  · cases e.ovf <;> dsimp only <;> repeat' split
    all_goals simp

@[simp] theorem State.msix_now (s : State) (f v : Nat) : (s.msix f v).now = s.now := by
  unfold State.msix
  split
  · rfl
  · split <;> rfl
@[simp] theorem State.msix_fields (s : State) (f v : Nat) : (s.msix f v).fields = s.fields := by
  unfold State.msix
  split
  · rfl
  · split <;> rfl
@[simp] theorem State.msix_fuse (s : State) (f v : Nat) : (s.msix f v).fuse = s.fuse := by
  unfold State.msix
  split
  · rfl
  · split <;> rfl
@[simp] theorem State.msix_split (s : State) (f v : Nat) : (s.msix f v).split = s.split := by
  unfold State.msix
  split
  · rfl
  · split <;> rfl
@[simp] theorem State.msix_mem (s : State) (f v : Nat) : (s.msix f v).mem = s.mem := by
  unfold State.msix
  split
  · rfl
  · split <;> rfl
@[simp] theorem State.msix_poison (s : State) (f v : Nat) : (s.msix f v).poison = s.poison := by
  unfold State.msix
  split
  · rfl
  · split <;> rfl
@[simp] theorem State.msix_host (s : State) (f v : Nat) : (s.msix f v).host = s.host := by
  unfold State.msix
  split
  · rfl
  · split <;> rfl
@[simp] theorem State.msix_ink (s : State) (f v : Nat) : (s.msix f v).ink = s.ink := by
  unfold State.msix
  split
  · rfl
  · split <;> rfl
@[simp] theorem State.msix_acc (s : State) (f v : Nat) : (s.msix f v).acc = s.acc := by
  unfold State.msix
  split
  · rfl
  · split <;> rfl
@[simp] theorem State.msix_blot (s : State) (f v : Nat) : (s.msix f v).blot = s.blot := by
  unfold State.msix
  split
  · rfl
  · split <;> rfl
@[simp] theorem State.msix_tiles (s : State) (f v : Nat) : (s.msix f v).tiles = s.tiles := by
  unfold State.msix
  split
  · rfl
  · split <;> rfl
@[simp] theorem State.msix_nw (s : State) (f v : Nat) : (s.msix f v).nw = s.nw := by
  unfold State.msix
  split
  · rfl
  · split <;> rfl
@[simp] theorem State.msix_sch (s : State) (f v : Nat) : (s.msix f v).sch = s.sch := by
  unfold State.msix
  split
  · rfl
  · split <;> rfl
@[simp] theorem State.msix_sq (s : State) (f v : Nat) : (s.msix f v).sq = s.sq := by
  unfold State.msix
  split
  · rfl
  · split <;> rfl
@[simp] theorem State.msix_lig (s : State) (f v : Nat) : (s.msix f v).lig = s.lig := by
  unfold State.msix
  split
  · rfl
  · split <;> rfl
@[simp] theorem State.msix_pal (s : State) (f v : Nat) : (s.msix f v).pal = s.pal := by
  unfold State.msix
  split
  · rfl
  · split <;> rfl
@[simp] theorem State.msix_zt (s : State) (f v : Nat) : (s.msix f v).zt = s.zt := by
  unfold State.msix
  split
  · rfl
  · split <;> rfl
@[simp] theorem State.msix_eth (s : State) (f v : Nat) : (s.msix f v).eth = s.eth := by
  unfold State.msix
  split
  · rfl
  · split <;> rfl
@[simp] theorem State.msix_evt (s : State) (f v : Nat) : (s.msix f v).evt = s.evt := by
  unfold State.msix
  split
  · rfl
  · split <;> rfl
@[simp] theorem State.msix_fab (s : State) (f v : Nat) : (s.msix f v).fab = s.fab := by
  unfold State.msix
  split
  · rfl
  · split <;> rfl
@[simp] theorem State.msix_hbm (s : State) (f v : Nat) : (s.msix f v).hbm = s.hbm := by
  unfold State.msix
  split
  · rfl
  · split <;> rfl
@[simp] theorem State.msix_clk (s : State) (f v : Nat) : (s.msix f v).clk = s.clk := by
  unfold State.msix
  split
  · rfl
  · split <;> rfl
@[simp] theorem State.msix_pwr (s : State) (f v : Nat) : (s.msix f v).pwr = s.pwr := by
  unfold State.msix
  split
  · rfl
  · split <;> rfl
@[simp] theorem State.msix_nv (s : State) (f v : Nat) : (s.msix f v).nv = s.nv := by
  unfold State.msix
  split
  · rfl
  · split <;> rfl
@[simp] theorem State.msix_led (s : State) (f v : Nat) : (s.msix f v).led = s.led := by
  unfold State.msix
  split
  · rfl
  · split <;> rfl
@[simp] theorem State.msix_sec (s : State) (f v : Nat) : (s.msix f v).sec = s.sec := by
  unfold State.msix
  split
  · rfl
  · split <;> rfl
@[simp] theorem State.msix_gen (s : State) (f v : Nat) : (s.msix f v).gen = s.gen := by
  unfold State.msix
  split
  · rfl
  · split <;> rfl
@[simp] theorem State.msix_freeN (s : State) (f v : Nat) : (s.msix f v).freeN = s.freeN := by
  unfold State.msix
  split
  · rfl
  · split <;> rfl
@[simp] theorem State.msix_pending (s : State) (f v : Nat) : (s.msix f v).pending = s.pending := by
  unfold State.msix
  split
  · rfl
  · split <;> rfl

@[simp] theorem State.violate_now (s : State) (p kind source addr : Nat) : (s.violate p kind source addr).now = s.now := by unfold State.violate; simp
@[simp] theorem State.violate_fuse (s : State) (p kind source addr : Nat) : (s.violate p kind source addr).fuse = s.fuse := by unfold State.violate; simp
@[simp] theorem State.violate_split (s : State) (p kind source addr : Nat) : (s.violate p kind source addr).split = s.split := by unfold State.violate; simp
@[simp] theorem State.violate_mem (s : State) (p kind source addr : Nat) : (s.violate p kind source addr).mem = s.mem := by unfold State.violate; simp
@[simp] theorem State.violate_poison (s : State) (p kind source addr : Nat) : (s.violate p kind source addr).poison = s.poison := by unfold State.violate; simp
@[simp] theorem State.violate_host (s : State) (p kind source addr : Nat) : (s.violate p kind source addr).host = s.host := by unfold State.violate; simp
@[simp] theorem State.violate_ink (s : State) (p kind source addr : Nat) : (s.violate p kind source addr).ink = s.ink := by unfold State.violate; simp
@[simp] theorem State.violate_acc (s : State) (p kind source addr : Nat) : (s.violate p kind source addr).acc = s.acc := by unfold State.violate; simp
@[simp] theorem State.violate_blot (s : State) (p kind source addr : Nat) : (s.violate p kind source addr).blot = s.blot := by unfold State.violate; simp
@[simp] theorem State.violate_tiles (s : State) (p kind source addr : Nat) : (s.violate p kind source addr).tiles = s.tiles := by unfold State.violate; simp
@[simp] theorem State.violate_nw (s : State) (p kind source addr : Nat) : (s.violate p kind source addr).nw = s.nw := by unfold State.violate; simp
@[simp] theorem State.violate_sch (s : State) (p kind source addr : Nat) : (s.violate p kind source addr).sch = s.sch := by unfold State.violate; simp
@[simp] theorem State.violate_sq (s : State) (p kind source addr : Nat) : (s.violate p kind source addr).sq = s.sq := by unfold State.violate; simp
@[simp] theorem State.violate_lig (s : State) (p kind source addr : Nat) : (s.violate p kind source addr).lig = s.lig := by unfold State.violate; simp
@[simp] theorem State.violate_pal (s : State) (p kind source addr : Nat) : (s.violate p kind source addr).pal = s.pal := by unfold State.violate; simp
@[simp] theorem State.violate_zt (s : State) (p kind source addr : Nat) : (s.violate p kind source addr).zt = s.zt := by unfold State.violate; simp
@[simp] theorem State.violate_eth (s : State) (p kind source addr : Nat) : (s.violate p kind source addr).eth = s.eth := by unfold State.violate; simp
@[simp] theorem State.violate_fab (s : State) (p kind source addr : Nat) : (s.violate p kind source addr).fab = s.fab := by unfold State.violate; simp
@[simp] theorem State.violate_hbm (s : State) (p kind source addr : Nat) : (s.violate p kind source addr).hbm = s.hbm := by unfold State.violate; simp
@[simp] theorem State.violate_hif (s : State) (p kind source addr : Nat) : (s.violate p kind source addr).hif = s.hif := by unfold State.violate; simp
@[simp] theorem State.violate_clk (s : State) (p kind source addr : Nat) : (s.violate p kind source addr).clk = s.clk := by unfold State.violate; simp
@[simp] theorem State.violate_pwr (s : State) (p kind source addr : Nat) : (s.violate p kind source addr).pwr = s.pwr := by unfold State.violate; simp
@[simp] theorem State.violate_nv (s : State) (p kind source addr : Nat) : (s.violate p kind source addr).nv = s.nv := by unfold State.violate; simp
@[simp] theorem State.violate_led (s : State) (p kind source addr : Nat) : (s.violate p kind source addr).led = s.led := by unfold State.violate; simp
@[simp] theorem State.violate_sec (s : State) (p kind source addr : Nat) : (s.violate p kind source addr).sec = s.sec := by unfold State.violate; simp
@[simp] theorem State.violate_gen (s : State) (p kind source addr : Nat) : (s.violate p kind source addr).gen = s.gen := by unfold State.violate; simp
@[simp] theorem State.violate_out (s : State) (p kind source addr : Nat) : (s.violate p kind source addr).out = s.out := by unfold State.violate; simp
@[simp] theorem State.violate_freeN (s : State) (p kind source addr : Nat) : (s.violate p kind source addr).freeN = s.freeN := by unfold State.violate; simp
@[simp] theorem State.violate_pending (s : State) (p kind source addr : Nat) : (s.violate p kind source addr).pending = s.pending := by unfold State.violate; simp

end Sys2Proof.Machine
end

