-- ==== Sys2Proof/Laws/Fields.lean ====
section
/-!
SUPPORT. Reading after writing: a stored field and the entries of the per-unit tables, each once.
-/
namespace Sys2Proof.Machine

theorem State.fget_fset_same (s : State) (f : Fld) (v r : Nat) (h : f.src = .stored r) : (s.fset f v).fget f = v % 2 ^ f.width := by
  simp [State.fget, State.fset, State.raw, Fld.rst, h, mget_mset_same]

/-- A stored field's value lies within its bits. -/
theorem State.fget_lt (s : State) (f : Fld) (r : Nat) (h : f.src = .stored r) : s.fget f < 2 ^ f.width := by
  simp only [State.fget, h, State.raw]
  exact Nat.mod_lt _ (Nat.two_pow_pos _)

theorem State.fget_fset_ne (s : State) (f g : Fld) (v r : Nat) (h : g.src = .stored r) (hk : g.key ≠ f.key) : (s.fset f v).fget g = s.fget g := by
  unfold State.fset
  split
  · simp only [State.fget, h, State.raw]
    rw [mget_mset_ne' _ _ _ _ _ _ hk]
  · rfl

theorem State.raw_fset_ne (s : State) (f g : Fld) (v : Nat) (hk : g.key ≠ f.key) : (s.fset f v).raw g = s.raw g := by
  unfold State.fset
  split
  · simp only [State.raw]
    rw [mget_mset_ne' _ _ _ _ _ _ hk]
  · rfl

/-- A record update that leaves the stored fields alone leaves every stored field's value. -/
theorem State.fget_congr {s t : State} (h : s.fields = t.fields) (g : Fld) (r : Nat) (hg : g.src = .stored r) : s.fget g = t.fget g := by
  simp only [State.fget, hg, State.raw, h]

theorem State.fget_fsets_ne (l : List (Fld × Nat)) (s : State) (g : Fld) (r : Nat) (h : g.src = .stored r) (hk : ∀ e ∈ l, g.key ≠ e.1.key) :
    (s.fsets l).fget g = s.fget g := by
  unfold State.fsets
  induction l generalizing s with
  | nil => rfl
  | cons e l ih =>
    rw [List.foldl_cons, ih _ (fun x hx => hk x (List.mem_cons_of_mem _ hx)), State.fget_fset_ne _ _ _ _ r h (hk e List.mem_cons_self)]

theorem State.fget_finc_same (s : State) (f : Fld) (d r : Nat) (h : f.src = .stored r) : (s.finc f d).fget f = (s.fget f + d) % 2 ^ f.width :=
  State.fget_fset_same _ _ _ r h

theorem State.fget_finc_ne (s : State) (f g : Fld) (d r : Nat) (h : g.src = .stored r) (hk : g.key ≠ f.key) : (s.finc f d).fget g = s.fget g :=
  State.fget_fset_ne _ _ _ _ r h hk

theorem State.fget_fsat_same (s : State) (f : Fld) (d r : Nat) (h : f.src = .stored r) :
    (s.fsat f d).fget f = satAdd f.width (s.fget f) d % 2 ^ f.width := State.fget_fset_same _ _ _ r h

theorem State.fget_fsat_ne (s : State) (f g : Fld) (d r : Nat) (h : g.src = .stored r) (hk : g.key ≠ f.key) : (s.fsat f d).fget g = s.fget g :=
  State.fget_fset_ne _ _ _ _ r h hk

@[simp] theorem State.tile_setTile (s : State) (t : Nat) (x : Tile) : (s.setTile t x).tile t = x := mget_mset_same _ _ _ _
@[simp] theorem State.nwp_setNwp (s : State) (p : Nat) (x : NwP) : (s.setNwp p x).nwp p = x := mget_mset_same _ _ _ _
@[simp] theorem State.sp_setSp (s : State) (p : Nat) (x : SchP) : (s.setSp p x).sp p = x := mget_mset_same _ _ _ _
@[simp] theorem State.sqp_setSqp (s : State) (p : Nat) (x : SqP) : (s.setSqp p x).sqp p = x := mget_mset_same _ _ _ _
@[simp] theorem State.lp_setLp (s : State) (p : Nat) (x : LigP) : (s.setLp p x).lp p = x := mget_mset_same _ _ _ _
@[simp] theorem State.pp_setPp (s : State) (p : Nat) (x : PalP) : (s.setPp p x).pp p = x := mget_mset_same _ _ _ _
@[simp] theorem State.hp_setHp (s : State) (p : Nat) (x : HifP) : (s.setHp p x).hp p = x := mget_mset_same _ _ _ _
@[simp] theorem State.chan_setChan (s : State) (c : Nat) (x : Chan) : (s.setChan c x).chan c = x := mget_mset_same _ _ _ _

end Sys2Proof.Machine
end

