-- ==== Sys2Proof/Laws/Access.lean ====
section
/-!
SUPPORT. What a BAR0 access that is performed at once does: a 32-bit write of a 4-byte register is that register's write, a write of the low word of
a 64-bit register is held, one of its high word writes the register (R11).
-/
namespace Sys2Proof.Machine

theorem State.ready_src {s : State} {src : Src} {a : Nat} (h : s.ready src a = true) : srcOk src = true := by
  unfold State.ready at h; simp only [Bool.and_eq_true] at h; exact h.1.1.1.1

theorem State.takes_src {s : State} {src : Src} {a v : Nat} (h : s.takes src a v = true) : srcOk src = true := by
  unfold State.takes at h; simp only [Bool.and_eq_true] at h; exact State.ready_src h.1

theorem State.busOp_ready {s : State} {b : BusOp} (h : s.ready b.src b.off = true) : s.busOp b = s.accessNow b := by
  unfold State.ready at h
  simp only [Bool.and_eq_true] at h
  obtain ⟨⟨⟨⟨_, h1⟩, h2⟩, _⟩, h3⟩ := h
  have h2' : s.clk.divBusy = false := by simpa using h2
  unfold State.busOp
  cases hs : b.src with
  | host f =>
    rw [hs] at h1 h3
    simp only [Bool.and_eq_true] at h3
    have h4 : (decide (1 ≤ f) && (s.fnPart f).isNone) = false := by
      have := h3.1.1
      cases hx : (decide (1 ≤ f) && (s.fnPart f).isNone)
      · rfl
      · rw [hx] at this; exact absurd this (by decide)
    have h6 : s.hostWaits f = false := by simpa using h3.1.2
    cases hw : wakeless b.off with
    | true => simp [h1, h2', h4, h6]
    | false =>
      have h5 : s.fget PWR_FURL_STATE = 0 := by have := h3.2; simpa [hw] using this
      simp [h1, h2', h4, h6, State.hostOp, h5]
  | sess n => rw [hs] at h1; simp [h1, h2']
  | fw => rw [hs] at h1; simp [h1, h2']

/-- A write that is performed at once. -/
theorem State.put_ready {s : State} {src : Src} {a : Nat} (v : Nat) (h : s.ready src a = true) : s.put src a v = s.writeGo src a 4 v [] := by
  unfold State.put
  rw [State.busOp_ready (b := ⟨src, a, 4, v, true, []⟩) h]
  have hc : s.busCause a 4 = 0 := by unfold State.ready at h; simp only [Bool.and_eq_true] at h; simpa using h.1.2
  simp [State.accessNow, State.access, hc]

/-- A read that is performed at once. -/
theorem State.get_ready {s : State} {src : Src} {a : Nat} (h : s.ready src a = true) :
    s.get src a = (s.readGo src a 4).2.emit (.readData src (s.readGo src a 4).1) := by
  unfold State.get
  rw [State.busOp_ready (b := ⟨src, a, 4, 0, false, []⟩) h]
  have hc : s.busCause a 4 = 0 := by unfold State.ready at h; simp only [Bool.and_eq_true] at h; simpa using h.1.2
  simp [State.accessNow, State.access, hc]

/-- The source's split state after a 32-bit write that is not the low word of a 64-bit register. -/
def State.unheld (s : State) (src : Src) : State := s.setSplit src { s.splitOf src with held := none }

theorem State.unheld_fields (s : State) (src : Src) : (s.unheld src).fields = s.fields := rfl

theorem State.put_reg {s : State} {src : Src} {a v : Nat} {r : Reg} (h : s.takes src a v = true) (hr : regAt a = some r) (hb : r.bytes = 4)
    (ho : r.off = a) (hv : v < 2 ^ 32) : s.put src a v = State.regWrite src [] (s.unheld src) ⟨r, 0, v, false⟩ := by
  have h1 : s.ready src a = true := by unfold State.takes at h; simp only [Bool.and_eq_true] at h; exact h.1
  rw [State.put_ready v h1]
  have h8 : ¬ r.bytes = 8 := by omega
  have hw : wideAt a = none := by simp [wideAt, hr, h8]
  have h0 : (a - r.off) / 4 = 0 := by rw [ho]; simp
  simp [State.writeGo, State.plan, State.plan32, hw, hr, h0, Nat.mod_eq_of_lt hv, Nat.mod_eq_of_lt (show v < 4294967296 from hv), State.unheld]

theorem State.busWrites_unheld (s : State) (src src' : Src) (a v : Nat) : (s.unheld src').busWrites src a v = s.busWrites src a v := rfl

theorem State.takes_writes {s : State} {src : Src} {a v : Nat} (h : s.takes src a v = true) : s.busWrites src a v = true := by
  unfold State.takes at h; simp only [Bool.and_eq_true] at h; exact h.2

theorem State.putGen {s : State} {src : Src} {a v : Nat} {r : Reg} (h : s.takes src a v = true) (hr : regAt a = some r) (hb : r.bytes = 4)
    (ho : r.off = a) (hv : v < 2 ^ 32) (ha : a < 0x10000) : s.put src a v = (s.unheld src).plainWrite ⟨r, 0, v, false⟩ := by
  rw [State.put_reg h hr hb ho hv]
  have hw := State.takes_writes h
  have h16 : ¬ r.bytes = 16 := by omega
  simp only [State.regWrite, ho, h16, if_false, Nat.add_zero, State.busWrites_unheld, hw, Bool.not_true, Bool.false_eq_true]
  repeat (first | rw [if_pos (by omega)] | rw [if_neg (by omega)])

theorem State.putClk {s : State} {src : Src} {a v : Nat} {r : Reg} (h : s.takes src a v = true) (hr : regAt a = some r) (hb : r.bytes = 4)
    (ho : r.off = a) (hv : v < 2 ^ 32) (ha : 0x10000 ≤ a ∧ a < 0x20000) : s.put src a v = (s.unheld src).writeClk src ⟨r, 0, v, false⟩ := by
  rw [State.put_reg h hr hb ho hv]
  have hw := State.takes_writes h
  have h16 : ¬ r.bytes = 16 := by omega
  simp only [State.regWrite, ho, h16, if_false, Nat.add_zero, State.busWrites_unheld, hw, Bool.not_true, Bool.false_eq_true]
  repeat (first | rw [if_pos (by omega)] | rw [if_neg (by omega)])

theorem State.putPwr {s : State} {src : Src} {a v : Nat} {r : Reg} (h : s.takes src a v = true) (hr : regAt a = some r) (hb : r.bytes = 4)
    (ho : r.off = a) (hv : v < 2 ^ 32) (ha : 0x20000 ≤ a ∧ a < 0x30000) : s.put src a v = (s.unheld src).writePwr ⟨r, 0, v, false⟩ := by
  rw [State.put_reg h hr hb ho hv]
  have hw := State.takes_writes h
  have h16 : ¬ r.bytes = 16 := by omega
  simp only [State.regWrite, ho, h16, if_false, Nat.add_zero, State.busWrites_unheld, hw, Bool.not_true, Bool.false_eq_true]
  repeat (first | rw [if_pos (by omega)] | rw [if_neg (by omega)])

theorem State.putEvt {s : State} {src : Src} {a v : Nat} {r : Reg} (h : s.takes src a v = true) (hr : regAt a = some r) (hb : r.bytes = 4)
    (ho : r.off = a) (hv : v < 2 ^ 32) (ha : 0x30000 ≤ a ∧ a < 0x60000) : s.put src a v = (s.unheld src).writeEvt ⟨r, 0, v, false⟩ := by
  rw [State.put_reg h hr hb ho hv]
  have hw := State.takes_writes h
  have h16 : ¬ r.bytes = 16 := by omega
  simp only [State.regWrite, ho, h16, if_false, Nat.add_zero, State.busWrites_unheld, hw, Bool.not_true, Bool.false_eq_true]
  repeat (first | rw [if_pos (by omega)] | rw [if_neg (by omega)])

theorem State.putFab {s : State} {src : Src} {a v : Nat} {r : Reg} (h : s.takes src a v = true) (hr : regAt a = some r) (hb : r.bytes = 4)
    (ho : r.off = a) (hv : v < 2 ^ 32) (ha : 0x60000 ≤ a ∧ a < 0x100000) : s.put src a v = (s.unheld src).plainWrite ⟨r, 0, v, false⟩ := by
  rw [State.put_reg h hr hb ho hv]
  have hw := State.takes_writes h
  have h16 : ¬ r.bytes = 16 := by omega
  simp only [State.regWrite, ho, h16, if_false, Nat.add_zero, State.busWrites_unheld, hw, Bool.not_true, Bool.false_eq_true]
  repeat (first | rw [if_pos (by omega)] | rw [if_neg (by omega)])

theorem State.putSch {s : State} {src : Src} {a v : Nat} {r : Reg} (h : s.takes src a v = true) (hr : regAt a = some r) (hb : r.bytes = 4)
    (ho : r.off = a) (hv : v < 2 ^ 32) (ha : 0x100000 ≤ a ∧ a < 0x200000) : s.put src a v = (s.unheld src).writeSch ⟨r, 0, v, false⟩ := by
  rw [State.put_reg h hr hb ho hv]
  have hw := State.takes_writes h
  have h16 : ¬ r.bytes = 16 := by omega
  simp only [State.regWrite, ho, h16, if_false, Nat.add_zero, State.busWrites_unheld, hw, Bool.not_true, Bool.false_eq_true]
  repeat (first | rw [if_pos (by omega)] | rw [if_neg (by omega)])

theorem State.putHbm {s : State} {src : Src} {a v : Nat} {r : Reg} (h : s.takes src a v = true) (hr : regAt a = some r) (hb : r.bytes = 4)
    (ho : r.off = a) (hv : v < 2 ^ 32) (ha : 0x200000 ≤ a ∧ a < 0x300000 ∧ a ≠ 0x280004 ∧ a ≠ 0x280010) : s.put src a v = (s.unheld src).plainWrite ⟨r, 0, v, false⟩ := by
  rw [State.put_reg h hr hb ho hv]
  have hw := State.takes_writes h
  have h16 : ¬ r.bytes = 16 := by omega
  simp only [State.regWrite, ho, h16, if_false, Nat.add_zero, State.busWrites_unheld, hw, Bool.not_true, Bool.false_eq_true]
  repeat (first | rw [if_pos (by omega)] | rw [if_neg (by omega)])

theorem State.putLig {s : State} {src : Src} {a v : Nat} {r : Reg} (h : s.takes src a v = true) (hr : regAt a = some r) (hb : r.bytes = 4)
    (ho : r.off = a) (hv : v < 2 ^ 32) (ha : 0x300000 ≤ a ∧ a < 0x400000) : s.put src a v = (s.unheld src).writeLig ⟨r, 0, v, false⟩ := by
  rw [State.put_reg h hr hb ho hv]
  have hw := State.takes_writes h
  have h16 : ¬ r.bytes = 16 := by omega
  simp only [State.regWrite, ho, h16, if_false, Nat.add_zero, State.busWrites_unheld, hw, Bool.not_true, Bool.false_eq_true]
  repeat (first | rw [if_pos (by omega)] | rw [if_neg (by omega)])

theorem State.putPal {s : State} {src : Src} {a v : Nat} {r : Reg} (h : s.takes src a v = true) (hr : regAt a = some r) (hb : r.bytes = 4)
    (ho : r.off = a) (hv : v < 2 ^ 32) (ha : 0x400000 ≤ a ∧ a < 0x800000) : s.put src a v = (s.unheld src).writePal ⟨r, 0, v, false⟩ := by
  rw [State.put_reg h hr hb ho hv]
  have hw := State.takes_writes h
  have h16 : ¬ r.bytes = 16 := by omega
  simp only [State.regWrite, ho, h16, if_false, Nat.add_zero, State.busWrites_unheld, hw, Bool.not_true, Bool.false_eq_true]
  repeat (first | rw [if_pos (by omega)] | rw [if_neg (by omega)])

theorem State.putEth {s : State} {src : Src} {a v : Nat} {r : Reg} (h : s.takes src a v = true) (hr : regAt a = some r) (hb : r.bytes = 4)
    (ho : r.off = a) (hv : v < 2 ^ 32) (ha : 0x800000 ≤ a ∧ a < 0x900000) : s.put src a v = (s.unheld src).writeEth src ⟨r, 0, v, false⟩ := by
  rw [State.put_reg h hr hb ho hv]
  have hw := State.takes_writes h
  have h16 : ¬ r.bytes = 16 := by omega
  simp only [State.regWrite, ho, h16, if_false, Nat.add_zero, State.busWrites_unheld, hw, Bool.not_true, Bool.false_eq_true]
  repeat (first | rw [if_pos (by omega)] | rw [if_neg (by omega)])

theorem State.putZtx {s : State} {src : Src} {a v : Nat} {r : Reg} (h : s.takes src a v = true) (hr : regAt a = some r) (hb : r.bytes = 4)
    (ho : r.off = a) (hv : v < 2 ^ 32) (ha : 0x900000 ≤ a ∧ a < 0xA00000) : s.put src a v = (s.unheld src).writeZtx ⟨r, 0, v, false⟩ := by
  rw [State.put_reg h hr hb ho hv]
  have hw := State.takes_writes h
  have h16 : ¬ r.bytes = 16 := by omega
  simp only [State.regWrite, ho, h16, if_false, Nat.add_zero, State.busWrites_unheld, hw, Bool.not_true, Bool.false_eq_true]
  repeat (first | rw [if_pos (by omega)] | rw [if_neg (by omega)])

theorem State.putHif {s : State} {src : Src} {a v : Nat} {r : Reg} (h : s.takes src a v = true) (hr : regAt a = some r) (hb : r.bytes = 4)
    (ho : r.off = a) (hv : v < 2 ^ 32) (ha : 0xA00000 ≤ a ∧ a < 0x1000000) : s.put src a v = (s.unheld src).writeHif ⟨r, 0, v, false⟩ [] := by
  rw [State.put_reg h hr hb ho hv]
  have hw := State.takes_writes h
  have h16 : ¬ r.bytes = 16 := by omega
  simp only [State.regWrite, ho, h16, if_false, Nat.add_zero, State.busWrites_unheld, hw, Bool.not_true, Bool.false_eq_true]
  repeat (first | rw [if_pos (by omega)] | rw [if_neg (by omega)])

theorem State.putTil {s : State} {src : Src} {a v : Nat} {r : Reg} (h : s.takes src a v = true) (hr : regAt a = some r) (hb : r.bytes = 4)
    (ho : r.off = a) (hv : v < 2 ^ 32) (ha : 0x1000000 ≤ a) : s.put src a v = (s.unheld src).writeTil ⟨r, 0, v, false⟩ := by
  rw [State.put_reg h hr hb ho hv]
  have hw := State.takes_writes h
  have h16 : ¬ r.bytes = 16 := by omega
  simp only [State.regWrite, ho, h16, if_false, Nat.add_zero, State.busWrites_unheld, hw, Bool.not_true, Bool.false_eq_true]
  repeat (first | rw [if_pos (by omega)] | rw [if_neg (by omega)])

-- The registers of the rows that write one register -----------------------------------------------------------------------------------------------

theorem within_some {base st n i o : Nat} (hi : i < n) (ho : o < st) : within (base + st * i + o) base st n = some (i, o) := by
  have h1 : st * i + o < st * n := by
    have : st * (i + 1) ≤ st * n := Nat.mul_le_mul_left st hi
    rw [Nat.mul_add, Nat.mul_one] at this
    omega
  have h2 : base + st * i + o - base = st * i + o := by omega
  have h3 : (st * i + o) / st = i := by rw [Nat.mul_add_div (by omega), Nat.div_eq_of_lt ho]; rfl
  have h4 : (st * i + o) % st = o := by rw [Nat.mul_add_mod, Nat.mod_eq_of_lt ho]
  simp only [within, h2, h3, h4]
  rw [if_pos (by omega)]

theorem within_at {a base st n i o : Nat} (hi : i < n) (ho : o < st) (h : a = base + st * i + o) : within a base st n = some (i, o) := by
  rw [h]; exact within_some hi ho

theorem within_none {a base st n : Nat} (h : a < base ∨ base + st * n ≤ a) : within a base st n = none := by
  unfold within
  rw [if_neg (by omega)]

theorem State.fget_unheld (s : State) (src : Src) (f : Fld) : (s.unheld src).fget f = s.fget f := by
  unfold State.fget
  cases f.src with
  | stored r => rfl
  | view v => cases v <;> rfl

theorem State.fbit_unheld (s : State) (src : Src) (f : Fld) : (s.unheld src).fbit f = s.fbit f := by
  unfold State.fbit; rw [State.fget_unheld]

/-- The registers CTRL and TAIL of a tile ring. -/
def TU.ctrlReg (t : Nat) : TU → Reg | .mx => TIL_MX_CTRL t | .nb => TIL_NB_CTRL t | .sm n => TIL_SM_CTRL t n
def TU.tailReg (t : Nat) : TU → Reg | .mx => TIL_MX_TAIL t | .nb => TIL_NB_TAIL t | .sm n => TIL_SM_TAIL t n

theorem TU.ofCode_lt {u : Nat} {w : TU} (hu : TU.ofCode u = some w) : u < 4 := by
  unfold TU.ofCode at hu; split at hu <;> first | omega | cases hu

theorem regAt_ring_all : ∀ t < 152, ∀ u < 4, (TU.ofCode u).map (fun w => decide (
    regAt (ringOff t u 0) = some (w.ctrlReg t) ∧ regAt (ringOff t u 0xC) = some (w.tailReg t) ∧ (w.ctrlReg t).off = ringOff t u 0 ∧
      (w.tailReg t).off = ringOff t u 0xC)) = some true := by
  decide +kernel

theorem regAt_ring {t u : Nat} {w : TU} (ht : t < 152) (hu : TU.ofCode u = some w) :
    regAt (ringOff t u 0) = some (w.ctrlReg t) ∧ regAt (ringOff t u 0xC) = some (w.tailReg t) ∧ (w.ctrlReg t).off = ringOff t u 0 ∧
      (w.tailReg t).off = ringOff t u 0xC := by
  have := regAt_ring_all t ht u (TU.ofCode_lt hu)
  rw [hu] at this; simpa using this

theorem State.writeTil_ctrl (s : State) {t u : Nat} {w : TU} (v : Nat) (ht : t < 152) (hu : TU.ofCode u = some w) {r : Reg}
    (hr : r.off = ringOff t u 0) : s.writeTil ⟨r, 0, v, false⟩ = s.ringCtrl t w (v % 8) := by
  unfold TU.ofCode at hu
  split at hu <;> cases hu <;> (
    simp only [State.writeTil, hr, ringOff]
    rw [Nat.add_assoc, within_some ht (by omega)]
    simp [State.writeRing])

theorem State.writeTil_tail (s : State) {t u : Nat} {w : TU} (v : Nat) (ht : t < 152) (hu : TU.ofCode u = some w) {r : Reg}
    (hr : r.off = ringOff t u 0xC) : s.writeTil ⟨r, 0, v, false⟩ = s.ringTail t w v := by
  unfold TU.ofCode at hu
  split at hu <;> cases hu <;> (
    simp only [State.writeTil, hr, ringOff]
    rw [Nat.add_assoc, within_some ht (by omega)]
    simp [State.writeRing])

theorem State.put_ringCtrl {s : State} {src : Src} {t u v : Nat} {w : TU} (h : s.takes src (ringOff t u 0) v = true) (ht : t < 152)
    (hu : TU.ofCode u = some w) (hv : v < 2 ^ 32) : s.put src (ringOff t u 0) v = (s.unheld src).ringCtrl t w (v % 8) := by
  have hu' := TU.ofCode_lt hu
  rw [State.putTil h (regAt_ring ht hu).1 (by cases w <;> rfl) (regAt_ring ht hu).2.2.1 hv (by unfold ringOff; omega),
    State.writeTil_ctrl _ _ ht hu (regAt_ring ht hu).2.2.1]

theorem State.put_ringTail {s : State} {src : Src} {t u v : Nat} {w : TU} (h : s.takes src (ringOff t u 0xC) v = true) (ht : t < 152)
    (hu : TU.ofCode u = some w) (hv : v < 2 ^ 32) : s.put src (ringOff t u 0xC) v = (s.unheld src).ringTail t w v := by
  have hu' := TU.ofCode_lt hu
  rw [State.putTil h (regAt_ring ht hu).2.1 (by cases w <;> rfl) (regAt_ring ht hu).2.2.2 hv (by unfold ringOff; omega),
    State.writeTil_tail _ _ ht hu (regAt_ring ht hu).2.2.2]

theorem regAt_sig {p n : Nat} (hp : p < 16) (hn : n < 256) : regAt (SCH_SIG p n).off = some (SCH_SIG p n) := by
  show regAt (0x101000 + 0x400 * p + 0x4 * n) = _
  unfold regAt
  repeat (first | rw [if_neg (by omega)] | rw [if_pos (by omega)])
  simp only [locsSch, List.findSome?, id, loc1, loc2]
  repeat (first | rw [if_neg (by omega)] | rw [if_pos (by omega)])
  have e1 : (0x101000 + 0x400 * p + 0x4 * n - 0x101000) / 0x400 = p := by omega
  have e2 : (0x101000 + 0x400 * p + 0x4 * n - (0x101000 + p * 0x400)) / 4 = n := by omega
  simp only [e1, e2]

theorem regAt_filter {j e : Nat} (hj : j < 16) (he : e < 64) : regAt (ETH_FILTER j e).off = some (ETH_FILTER j e) := by
  show regAt (0x801000 + 0x10000 * j + 0x10 * e) = _
  unfold regAt
  repeat (first | rw [if_neg (by omega)] | rw [if_pos (by omega)])
  simp only [locsNet, List.findSome?, id, loc0, loc1, loc2, loc3]
  repeat (first | rw [if_neg (by omega)] | rw [if_pos (by omega)])
  have e1 : (0x801000 + 0x10000 * j + 0x10 * e - 0x801000) / 0x10000 = j := by omega
  have e2 : (0x801000 + 0x10000 * j + 0x10 * e - (0x801000 + j * 0x10000)) / 0x10 = e := by omega
  simp only [e1, e2]

theorem regAt_buserr : regAt GEN_BUSERR_STATUS.off = some GEN_BUSERR_STATUS := by
  decide

theorem State.put_buserr {s : State} {src : Src} {v : Nat} (h : s.takes src GEN_BUSERR_STATUS.off v = true) (hv : v < 2 ^ 32) :
    s.put src GEN_BUSERR_STATUS.off v = (s.unheld src).plainWrite ⟨GEN_BUSERR_STATUS, 0, v, false⟩ := by
  rw [State.putGen h regAt_buserr rfl rfl hv (by decide)]

theorem regAt_mgmtCfg : regAt EVT_MGMT_CFG.off = some EVT_MGMT_CFG := by
  decide

theorem State.put_mgmtCfg {s : State} {src : Src} {v : Nat} (h : s.takes src EVT_MGMT_CFG.off v = true) (hv : v < 2 ^ 32) :
    s.put src EVT_MGMT_CFG.off v = (s.unheld src).plainWrite ⟨EVT_MGMT_CFG, 0, v, false⟩ := by
  rw [State.putEvt h regAt_mgmtCfg rfl rfl hv (by decide)]
  rfl

theorem regAt_clkEn : ∀ n < 2, regAt (CLK_EN n).off = some (CLK_EN n) := by
  decide +kernel

theorem State.put_clkEn {s : State} {src : Src} {v : Nat} {n : Nat} (h : s.takes src (CLK_EN n).off v = true) (hn : n < 2) (hv : v < 2 ^ 32) :
    s.put src (CLK_EN n).off v = (s.unheld src).gateWrite n v := by
  rw [State.putClk h (regAt_clkEn n hn) rfl rfl hv (by show _ ∧ _; simp only [CLK_EN]; omega)]
  have e : (0x10020 + 0x4 * n - 0x10020) / 4 = n := by omega
  simp only [State.writeClk, CLK_EN, e]
  repeat (first | rw [if_neg (by omega)] | rw [if_pos (by omega)])

theorem regAt_clkDiv : regAt CLK_DIV.off = some CLK_DIV := by
  decide

theorem State.put_clkDiv {s : State} {src : Src} {v : Nat} (h : s.takes src CLK_DIV.off v = true) (hv : v < 2 ^ 32) :
    s.put src CLK_DIV.off v = (s.unheld src).writeClk src ⟨CLK_DIV, 0, v, false⟩ := by
  rw [State.putClk h regAt_clkDiv rfl rfl hv (by decide)]

theorem regAt_arithLimit : regAt CLK_ARITH_LIMIT.off = some CLK_ARITH_LIMIT := by
  decide

theorem State.put_arithLimit {s : State} {src : Src} {v : Nat} (h : s.takes src CLK_ARITH_LIMIT.off v = true) (hv : v < 2 ^ 32) :
    s.put src CLK_ARITH_LIMIT.off v = (s.unheld src).arithLimit v := by
  rw [State.putClk h regAt_arithLimit rfl rfl hv (by decide)]
  rfl

theorem regAt_cap : regAt PWR_CAP.off = some PWR_CAP := by
  decide

theorem State.put_cap {s : State} {src : Src} {v : Nat} (h : s.takes src PWR_CAP.off v = true) (hv : v < 2 ^ 32) :
    s.put src PWR_CAP.off v = (s.unheld src).capWrite (v % 2 ^ 16) := by
  rw [State.putPwr h regAt_cap rfl rfl hv (by decide)]
  rfl

theorem regAt_furl : regAt PWR_FURL.off = some PWR_FURL := by
  decide

theorem State.put_furl {s : State} {src : Src} {v : Nat} (h : s.takes src PWR_FURL.off v = true) (hv : v < 2 ^ 32) :
    s.put src PWR_FURL.off v = (s.unheld src).writePwr ⟨PWR_FURL, 0, v, false⟩ := by
  rw [State.putPwr h regAt_furl rfl rfl hv (by decide)]

theorem regAt_ldg : regAt LDG_CTRL.off = some LDG_CTRL := by
  decide

theorem State.put_ldg {s : State} {src : Src} {v : Nat} (h : s.takes src LDG_CTRL.off v = true) (hv : v < 2 ^ 32) :
    s.put src LDG_CTRL.off v = (s.unheld src).writeEvt ⟨LDG_CTRL, 0, v, false⟩ := by
  rw [State.putEvt h regAt_ldg rfl rfl hv (by decide)]

theorem regAt_adminTile : ∀ n < 5, regAt (EVT_ADMIN_TILE n).off = some (EVT_ADMIN_TILE n) := by
  decide +kernel

theorem State.put_adminTile {s : State} {src : Src} {v : Nat} {n : Nat} (h : s.takes src (EVT_ADMIN_TILE n).off v = true) (hn : n < 5) (hv : v < 2 ^ 32) :
    s.put src (EVT_ADMIN_TILE n).off v = (s.unheld src).adminTile n v := by
  rw [State.putEvt h (regAt_adminTile n hn) rfl rfl hv (by show _ ∧ _; simp only [EVT_ADMIN_TILE]; omega)]
  have h1 : ¬ 0x40040 + 0x4 * n = 0x50004 := by omega
  have h2 : ¬ 0x40040 + 0x4 * n = 0x40054 := by omega
  simp only [State.writeEvt, EVT_ADMIN_TILE, h1, h2, if_false]
  rw [within_at (i := n) (o := 0) hn (by omega) (by omega)]

theorem regAt_adminUnit : regAt EVT_ADMIN_UNIT.off = some EVT_ADMIN_UNIT := by
  decide

theorem State.put_adminUnit {s : State} {src : Src} {v : Nat} (h : s.takes src EVT_ADMIN_UNIT.off v = true) (hv : v < 2 ^ 32) :
    s.put src EVT_ADMIN_UNIT.off v = (s.unheld src).writeEvt ⟨EVT_ADMIN_UNIT, 0, v, false⟩ := by
  rw [State.putEvt h regAt_adminUnit rfl rfl hv (by decide)]

theorem regAt_nwCtrl : ∀ p < 16, regAt (SCH_NW_PCTRL p).off = some (SCH_NW_PCTRL p) := by
  decide +kernel

theorem State.put_nwCtrl {s : State} {src : Src} {v : Nat} {p : Nat} (h : s.takes src (SCH_NW_PCTRL p).off v = true) (hp : p < 16) (hv : v < 2 ^ 32) :
    s.put src (SCH_NW_PCTRL p).off v = (s.unheld src).writeNw p 0 ⟨SCH_NW_PCTRL p, 0, v, false⟩ := by
  rw [State.putSch h (regAt_nwCtrl p hp) rfl rfl hv (by show _ ∧ _; simp only [SCH_NW_PCTRL]; omega)]
  simp only [State.writeSch, SCH_NW_PCTRL]
  rw [within_none (by omega), within_none (by omega), within_none (by omega), within_at (i := p) (o := 0) hp (by omega) (by omega)]

theorem regAt_sqCtrl : ∀ p < 16, regAt (SCH_SQ_CTRL p).off = some (SCH_SQ_CTRL p) := by
  decide +kernel

theorem State.put_sqCtrl {s : State} {src : Src} {v : Nat} {p : Nat} (h : s.takes src (SCH_SQ_CTRL p).off v = true) (hp : p < 16) (hv : v < 2 ^ 32) :
    s.put src (SCH_SQ_CTRL p).off v = (s.unheld src).sqCtrl p v := by
  rw [State.putSch h (regAt_sqCtrl p hp) rfl rfl hv (by show _ ∧ _; simp only [SCH_SQ_CTRL]; omega)]
  simp only [State.writeSch, SCH_SQ_CTRL]
  rw [within_none (by omega), within_none (by omega), within_at (i := p) (o := 0) hp (by omega) (by omega)]
  rfl

theorem regAt_sqNext : ∀ p < 16, regAt (SCH_SQ_NEXT p).off = some (SCH_SQ_NEXT p) := by
  decide +kernel

theorem State.put_sqNext {s : State} {src : Src} {v : Nat} {p : Nat} (h : s.takes src (SCH_SQ_NEXT p).off v = true) (hp : p < 16) (hv : v < 2 ^ 32) :
    s.put src (SCH_SQ_NEXT p).off v = (s.unheld src).epochRequest p v := by
  rw [State.putSch h (regAt_sqNext p hp) rfl rfl hv (by show _ ∧ _; simp only [SCH_SQ_NEXT]; omega)]
  simp only [State.writeSch, SCH_SQ_NEXT]
  rw [within_none (by omega), within_none (by omega), within_at (i := p) (o := 0x30) hp (by omega) (by omega)]
  rfl

theorem regAt_palCtrl : ∀ p < 16, regAt (PAL_CTRL p).off = some (PAL_CTRL p) := by
  decide +kernel

theorem State.put_palCtrl {s : State} {src : Src} {v : Nat} {p : Nat} (h : s.takes src (PAL_CTRL p).off v = true) (hp : p < 16) (hv : v < 2 ^ 32) :
    s.put src (PAL_CTRL p).off v = (s.unheld src).writePal ⟨PAL_CTRL p, 0, v, false⟩ := by
  rw [State.putPal h (regAt_palCtrl p hp) rfl rfl hv (by show _ ∧ _; simp only [PAL_CTRL]; omega)]

theorem regAt_txPtr : ∀ j < 16, ∀ k < 4, regAt (ETH_TX_PTR j k).off = some (ETH_TX_PTR j k) := by
  decide +kernel

theorem State.put_txPtr {s : State} {src : Src} {v : Nat} {j : Nat} {k : Nat} (h : s.takes src (ETH_TX_PTR j k).off v = true) (hj : j < 16) (hk : k < 4) (hv : v < 2 ^ 32) :
    s.put src (ETH_TX_PTR j k).off v = ((s.unheld src).plainWrite ⟨ETH_TX_PTR j k, 0, v, false⟩).txStart j k := by
  rw [State.putEth h (regAt_txPtr j hj k hk) rfl rfl hv (by show _ ∧ _; simp only [ETH_TX_PTR]; omega)]
  simp only [State.writeEth, ETH_TX_PTR]
  rw [within_at (i := j) (o := 0x610 + 0x20 * k) hj (by omega) (by omega)]
  simp only []
  have e1 : (0x610 + 0x20 * k - 0x600) / 0x20 = k := by omega
  repeat (first | rw [if_neg (by omega)] | rw [if_pos (by omega)])
  rw [e1]

theorem regAt_qCfg : ∀ j < 16, ∀ q < 32, regAt (ETH_Q_CFG j q).off = some (ETH_Q_CFG j q) := by
  decide +kernel

theorem State.put_qCfg {s : State} {src : Src} {v : Nat} {j : Nat} {q : Nat} (h : s.takes src (ETH_Q_CFG j q).off v = true) (hj : j < 16) (hq : q < 32) (hv : v < 2 ^ 32) :
    s.put src (ETH_Q_CFG j q).off v = (s.unheld src).writeEth src ⟨ETH_Q_CFG j q, 0, v, false⟩ := by
  rw [State.putEth h (regAt_qCfg j hj q hq) rfl rfl hv (by show _ ∧ _; simp only [ETH_Q_CFG]; omega)]

theorem regAt_zOp : ∀ p < 16, regAt (ZTX_P_OP p).off = some (ZTX_P_OP p) := by
  decide +kernel

theorem State.put_zOp {s : State} {src : Src} {v : Nat} {p : Nat} (h : s.takes src (ZTX_P_OP p).off v = true) (hp : p < 16) (hv : v < 2 ^ 32) :
    s.put src (ZTX_P_OP p).off v = (s.unheld src).zOp p (bitsAt v 28 4) := by
  rw [State.putZtx h (regAt_zOp p hp) rfl rfl hv (by show _ ∧ _; simp only [ZTX_P_OP]; omega)]
  have h1 : ¬ 0x901038 + 0x100 * p = 0x900008 := by omega
  simp only [State.writeZtx, ZTX_P_OP, h1, if_false]
  rw [within_at (i := p) (o := 0x38) hp (by omega) (by omega)]
  rfl

theorem regAt_crDb : ∀ p < 16, ∀ r < 8, regAt (HIF_P_CR_DB p r).off = some (HIF_P_CR_DB p r) := by
  decide +kernel

theorem State.put_crDb {s : State} {src : Src} {v : Nat} {p : Nat} {r : Nat} (h : s.takes src (HIF_P_CR_DB p r).off v = true) (hp : p < 16) (hr : r < 8) (hv : v < 2 ^ 32) :
    s.put src (HIF_P_CR_DB p r).off v = (s.unheld src).crDoorbell p r (v % 2 ^ 16) := by
  rw [State.putHif h (regAt_crDb p hp r hr) rfl rfl hv (by show _ ∧ _; simp only [HIF_P_CR_DB]; omega)]
  simp only [State.writeHif, HIF_P_CR_DB]
  rw [if_neg (by omega), within_at (i := p) (o := 0x10C + 0x20 * r) hp (by omega) (by omega)]
  have e1 : (0x10C + 0x20 * r - 0x100) / 0x20 = r := by omega
  have e2 : (0x10C + 0x20 * r) % 0x20 = 0xC := by omega
  simp only [e1, e2]
  rw [if_pos (by omega)]
  rfl

theorem regAt_crCfg : ∀ p < 16, ∀ r < 8, regAt (HIF_P_CR_CFG p r).off = some (HIF_P_CR_CFG p r) := by
  decide +kernel

theorem State.put_crCfg {s : State} {src : Src} {v : Nat} {p : Nat} {r : Nat} (h : s.takes src (HIF_P_CR_CFG p r).off v = true) (hp : p < 16) (hr : r < 8) (hv : v < 2 ^ 32) :
    s.put src (HIF_P_CR_CFG p r).off v = (s.unheld src).writeCr p r 8 ⟨HIF_P_CR_CFG p r, 0, v, false⟩ := by
  rw [State.putHif h (regAt_crCfg p hp r hr) rfl rfl hv (by show _ ∧ _; simp only [HIF_P_CR_CFG]; omega)]
  simp only [State.writeHif, HIF_P_CR_CFG]
  rw [if_neg (by omega), within_at (i := p) (o := 0x108 + 0x20 * r) hp (by omega) (by omega)]
  have e1 : (0x108 + 0x20 * r - 0x100) / 0x20 = r := by omega
  have e2 : (0x108 + 0x20 * r) % 0x20 = 8 := by omega
  simp only [e1, e2]
  rw [if_pos (by omega)]


theorem regAt_hifCtrl : ∀ p < 16, regAt (HIF_P_CTRL p).off = some (HIF_P_CTRL p) := by
  decide +kernel

theorem State.put_hifCtrl {s : State} {src : Src} {v : Nat} {p : Nat} (h : s.takes src (HIF_P_CTRL p).off v = true) (hp : p < 16) (hv : v < 2 ^ 32) :
    s.put src (HIF_P_CTRL p).off v = (s.unheld src).writeHif ⟨HIF_P_CTRL p, 0, v, false⟩ [] := by
  rw [State.putHif h (regAt_hifCtrl p hp) rfl rfl hv (by show _ ∧ _; simp only [HIF_P_CTRL]; omega)]

theorem State.put_sig {s : State} {src : Src} {v p n : Nat} (h : s.takes src (SCH_SIG p n).off v = true) (hp : p < 16) (hn : n < 256)
    (hv : v < 2 ^ 32) : s.put src (SCH_SIG p n).off v = (s.unheld src).sigWrite p n v 0 := by
  rw [State.putSch h (regAt_sig hp hn) rfl rfl hv (by simp only [SCH_SIG]; omega)]
  have e : 4 * n / 4 = n := by omega
  simp only [State.writeSch, SCH_SIG]
  rw [within_none (by omega), within_at (i := p) (o := 4 * n) hp (by omega) (by omega)]
  simp only [e, Nat.mod_eq_of_lt hv]

theorem State.put_mapout {s : State} {src : Src} {v : Nat} (h : s.takes src HBM_MAPOUT.off v = true) (hv : v < 2 ^ 32) :
    s.put src HBM_MAPOUT.off v = (s.unheld src).hbmMapout v := by
  rw [State.put_reg h (r := HBM_MAPOUT) (by decide) rfl rfl hv]
  have hw := State.takes_writes h
  simp only [HBM_MAPOUT] at hw
  simp [State.regWrite, HBM_MAPOUT, State.busWrites_unheld, hw]

theorem State.put_filter {s : State} {src : Src} {v j e : Nat} (h : s.takes src (ETH_FILTER j e).off v = true) (hj : j < 16) (he : e < 64)
    (hv : v < 2 ^ 32) : s.put src (ETH_FILTER j e).off v = (s.unheld src).filterWrite j e 0 v := by
  have h1 : s.ready src (ETH_FILTER j e).off = true := by unfold State.takes at h; simp only [Bool.and_eq_true] at h; exact h.1
  have hw := State.takes_writes h
  have ha : (ETH_FILTER j e).off = 0x801000 + 0x10000 * j + 0x10 * e := rfl
  have hp : s.put src (ETH_FILTER j e).off v = State.regWrite src [] (s.unheld src) ⟨ETH_FILTER j e, 0, v, false⟩ := by
    rw [State.put_ready v h1]
    have hr := regAt_filter hj he
    have hn : wideAt (ETH_FILTER j e).off = none := by simp only [wideAt, hr]; rfl
    simp [State.writeGo, State.plan, State.plan32, hn, hr, Nat.mod_eq_of_lt hv, Nat.mod_eq_of_lt (show v < 4294967296 from hv), State.unheld]
  have e1 : (0x1000 + 0x10 * e - 0x1000) / 0x10 = e := by omega
  have h16 : (ETH_FILTER j e).bytes = 16 := rfl
  rw [hp]
  rw [ha] at hw
  simp only [State.regWrite, h16, if_true, Nat.mul_zero, Nat.add_zero, State.busWrites_unheld, hw, Bool.not_true, Bool.false_eq_true, if_false, ha]
  repeat (first | rw [if_neg (by omega)] | rw [if_pos (by omega)])
  simp only [State.writeEth, ha]
  rw [within_at (i := j) (o := 0x1000 + 0x10 * e) hj (by omega) (by omega)]
  simp only [e1]
  repeat (first | rw [if_neg (by omega)] | rw [if_pos (by omega)])

end Sys2Proof.Machine
end

