-- ==== Sys2Proof/Laws/Kept.lean ====
section
/-!
SUPPORT. What no command changes or breaks: the fuses, the queue, and the canonical form of the memories. Kept z s says so of a state s that a
command has made of z, and is proved once for each operation, in the files Laws/Kept….lean, from the operations that it calls.
-/
namespace Sys2Proof.Machine

/-- `s` has the fuses and the queue of `z`, and its memories are canonical if those of `z` are. -/
structure Kept (z s : State) : Prop where
  fuse : s.fuse = z.fuse
  pending : s.pending = z.pending
  wf : z.wf = true → s.wf = true

theorem Kept.refl (z : State) : Kept z z := ⟨rfl, rfl, id⟩

/-- Kept of a state that is given by its fields. -/
def KeptMk (z s : State) : Prop := Kept z s

theorem kept_mk (z : State) {n f fu sp me po ho ik ac bl ti nw sc sq li pa zt et ev fa hb hi cl pw nv le se ge ou fr pe} :
    Kept z (State.mk n f fu sp me po ho ik ac bl ti nw sc sq li pa zt et ev fa hb hi cl pw nv le se ge ou fr pe) =
      KeptMk z (State.mk n f fu sp me po ho ik ac bl ti nw sc sq li pa zt et ev fa hb hi cl pw nv le se ge ou fr pe) := rfl

/-- A record update that leaves the fuses, the queue and the memories alone. -/
theorem Kept.upd {z s : State} (h : Kept z s) {n f sp po ti nw sc sq li pa zt et ev fa hb hi cl pw nv le se ge ou fr} :
    KeptMk z (State.mk n f s.fuse sp s.mem po s.host s.ink s.acc s.blot ti nw sc sq li pa zt et ev fa hb hi cl pw nv le se ge ou fr s.pending) :=
  ⟨h.fuse, h.pending, h.wf⟩

/-- A state made anew: its fuses and queue are those of `s`, its memories empty or those of `s`. -/
theorem Kept.of {z s t : State} (h : Kept z s) (e : t.fuse = s.fuse ∧ t.pending = s.pending) (w : s.wf = true → t.wf = true) : Kept z t :=
  ⟨e.1.trans h.fuse, e.2.trans h.pending, fun hz => w (h.wf hz)⟩

theorem Kept.ite {z a b : State} {c : Prop} [Decidable c] (ha : Kept z a) (hb : Kept z b) : Kept z (if c then a else b) := by
  split
  · exact ha
  · exact hb

theorem Kept.ite1 {α : Type} {z : State} {a b : State × α} {c : Prop} [Decidable c] (ha : Kept z a.1) (hb : Kept z b.1) :
    Kept z (if c then a else b).1 := by
  split
  · exact ha
  · exact hb

theorem Kept.ite2 {α : Type} {z : State} {a b : α × State} {c : Prop} [Decidable c] (ha : Kept z a.2) (hb : Kept z b.2) :
    Kept z (if c then a else b).2 := by
  split
  · exact ha
  · exact hb

theorem Kept.ofFst {α : Type} {z s : State} {a : α} {e : State × α} (he : e = (s, a)) (h : Kept z e.1) : Kept z s := by rw [he] at h; exact h

theorem Kept.ofSnd {α : Type} {z s : State} {a : α} {e : α × State} (he : e = (a, s)) (h : Kept z e.2) : Kept z s := by rw [he] at h; exact h

theorem Kept.getD {z s : State} {o : Option State} (h : Kept z s) (ho : ∀ t, o = some t → Kept z t) : Kept z (o.getD s) := by
  cases o with
  | none => exact h
  | some t => exact ho t rfl

theorem Kept.mapD {α : Type} {z s : State} {o : Option α} {f : α → State} (h : Kept z s) (hf : ∀ a, o = some a → Kept z (f a)) :
    Kept z ((o.map f).getD s) := by
  cases o with
  | none => exact h
  | some a => exact hf a rfl

theorem Kept.elim {α : Type} {z s : State} {o : Option α} {f : α → State} (h : Kept z s) (hf : ∀ a, o = some a → Kept z (f a)) :
    Kept z (o.elim s f) := by
  cases o with
  | none => exact h
  | some a => exact hf a rfl

theorem Kept.foldl {α : Type} {z s : State} {f : State → α → State} (h : Kept z s) (hf : ∀ s a, Kept z s → Kept z (f s a)) (l : List α) :
    Kept z (l.foldl f s) := by
  induction l generalizing s with
  | nil => exact h
  | cons a l ih => exact ih (hf s a h)

theorem Kept.foldl1 {α β : Type} {z : State} {x : State × β} {f : State × β → α → State × β} (h : Kept z x.1)
    (hf : ∀ x a, Kept z x.1 → Kept z (f x a).1) (l : List α) : Kept z (l.foldl f x).1 := by
  induction l generalizing x with
  | nil => exact h
  | cons a l ih => exact ih (hf x a h)

-- The memories --------------------------------------------------------------------------------------------------------------------------------

theorem mwf_nil {β : Type} [DecidableEq β] (d : β) : mwf d ([] : NMap β) = true := rfl

theorem mwf_mupd {β : Type} [DecidableEq β] (d : β) (m : NMap β) (k : Nat) (f : β → β) (h : mwf d m = true) : mwf d (mupd d m k f) = true :=
  mwf_mset d m k _ h

theorem mwf_putBytes (m : NMap Byte) (g : Nat → Nat) (i : Nat) (bs : List Byte) (h : mwf 0 m = true) : mwf 0 (putBytes m g i bs) = true := by
  induction bs generalizing m i with
  | nil => exact h
  | cons b bs ih => exact ih _ _ (mwf_mset 0 m _ b h)

theorem mwf_foldl {α β : Type} [DecidableEq β] (d : β) (f : NMap β → α → NMap β) (hf : ∀ m a, mwf d m = true → mwf d (f m a) = true)
    (l : List α) (m : NMap β) (h : mwf d m = true) : mwf d (l.foldl f m) = true := by
  induction l generalizing m with
  | nil => exact h
  | cons a l ih => exact ih _ (hf m a h)

/-- A record update that leaves the fuses and the queue alone, and the memories canonical. -/
theorem Kept.mems {z s : State} (h : Kept z s) {n f sp po ti nw sc sq li pa zt et ev fa hb hi cl pw nv le se ge ou fr me ho ik ac bl}
    (w : s.wf = true → mwf 0 me = true ∧ mwf 0 ho = true ∧ mwf 0 ik = true ∧ mwf 0 ac = true ∧ mwf 0 bl = true) :
    KeptMk z (State.mk n f s.fuse sp me po ho ik ac bl ti nw sc sq li pa zt et ev fa hb hi cl pw nv le se ge ou fr s.pending) :=
  ⟨h.fuse, h.pending, fun hz => by
    obtain ⟨a, b, c, d, e⟩ := w (h.wf hz)
    simp only [State.wf, Bool.and_eq_true]
    exact ⟨⟨⟨⟨a, b⟩, c⟩, d⟩, e⟩⟩

theorem State.wf_all {s : State} (h : s.wf = true) :
    mwf 0 s.mem = true ∧ mwf 0 s.host = true ∧ mwf 0 s.ink = true ∧ mwf 0 s.acc = true ∧ mwf 0 s.blot = true := by
  simp only [State.wf, Bool.and_eq_true] at h
  exact ⟨h.1.1.1.1, h.1.1.1.2, h.1.1.2, h.1.2, h.2⟩

end Sys2Proof.Machine
end

