-- ==== Sys2Proof/Laws/KeptViews.lean ====
section
/-!
SUPPORT. The operations of Machine/Views.lean keep the fuses, the queue and the canonical form of the memories.
-/
namespace Sys2Proof.Machine

theorem State.fset_kept {z s : State} (h : Kept z s) (f : Fld) (v : Nat) :
    Kept z (State.fset s f v) := by
  unfold State.fset
  try dsimp only
  repeat' first
    | (with_reducible assumption) | (simp only [kept_mk]; with_reducible apply Kept.upd) | split

theorem State.finc_kept {z s : State} (h : Kept z s) (f : Fld) (d : Nat) :
    Kept z (State.finc s f d) := by
  unfold State.finc
  repeat' first
    | (with_reducible assumption) | (with_reducible apply State.fset_kept)

theorem State.fsat_kept {z s : State} (h : Kept z s) (f : Fld) (d : Nat) :
    Kept z (State.fsat s f d) := by
  unfold State.fsat
  repeat' first
    | (with_reducible assumption) | (with_reducible apply State.fset_kept)

theorem State.fsets_kept {z s : State} (h : Kept z s) (l : List (Fld × Nat)) :
    Kept z (State.fsets s l) := by
  unfold State.fsets
  try dsimp only
  repeat' first
    | (with_reducible assumption) | (intro _) | (with_reducible apply State.fset_kept)
    | (with_reducible refine Kept.foldl ?_ (fun _ _ _ => ?_) _) | (with_reducible refine Kept.foldl1 ?_ (fun _ _ _ => ?_) _)

end Sys2Proof.Machine
end

