-- ==== Sys2Proof/Laws/KeptOps.lean ====
section
/-!
SUPPORT. The operations of Machine/Ops.lean keep the fuses, the queue and the canonical form of the memories.
-/
namespace Sys2Proof.Machine

theorem State.emit_kept {z s : State} (h : Kept z s) (o : Out) :
    Kept z (State.emit s o) := by
  unfold State.emit
  try dsimp only
  repeat' first
    | (with_reducible assumption) | (simp only [kept_mk]; with_reducible apply Kept.upd)

theorem State.free_kept {z s : State} (h : Kept z s) (w : Nat) :
    Kept z (State.free s w).2 := by
  unfold State.free
  try dsimp only
  repeat' first
    | (with_reducible assumption) | (simp only [kept_mk]; with_reducible apply Kept.upd) | (dsimp only)
    | (refine Kept.ofFst (by assumption) ?_) | (refine Kept.ofSnd (by assumption) ?_)

theorem State.freeBytes_kept {z s : State} (h : Kept z s) (n : Nat) : Kept z (State.freeBytes s n).2 := by
  induction n generalizing s with
  | zero => exact h
  | succ n ih => exact ih (State.free_kept h 8)

theorem State.setTile_kept {z s : State} (h : Kept z s) (t : Nat) (x : Tile) :
    Kept z (State.setTile s t x) := by
  unfold State.setTile
  try dsimp only
  repeat' first
    | (with_reducible assumption) | (simp only [kept_mk]; with_reducible apply Kept.upd)

theorem State.setNwp_kept {z s : State} (h : Kept z s) (p : Nat) (x : NwP) :
    Kept z (State.setNwp s p x) := by
  unfold State.setNwp
  try dsimp only
  repeat' first
    | (with_reducible assumption) | (simp only [kept_mk]; with_reducible apply Kept.upd)

theorem State.setSp_kept {z s : State} (h : Kept z s) (p : Nat) (x : SchP) :
    Kept z (State.setSp s p x) := by
  unfold State.setSp
  try dsimp only
  repeat' first
    | (with_reducible assumption) | (simp only [kept_mk]; with_reducible apply Kept.upd)

theorem State.setSqp_kept {z s : State} (h : Kept z s) (p : Nat) (x : SqP) :
    Kept z (State.setSqp s p x) := by
  unfold State.setSqp
  try dsimp only
  repeat' first
    | (with_reducible assumption) | (simp only [kept_mk]; with_reducible apply Kept.upd)

theorem State.nonfinite_kept {z s : State} (h : Kept z s) (p : Nat) :
    Kept z (State.nonfinite s p) := by
  unfold State.nonfinite
  try dsimp only
  repeat' first
    | (with_reducible assumption) | (simp only [kept_mk]; with_reducible apply Kept.upd) | (with_reducible apply State.setSqp_kept)

theorem State.setLp_kept {z s : State} (h : Kept z s) (p : Nat) (x : LigP) :
    Kept z (State.setLp s p x) := by
  unfold State.setLp
  try dsimp only
  repeat' first
    | (with_reducible assumption) | (simp only [kept_mk]; with_reducible apply Kept.upd)

theorem State.setPp_kept {z s : State} (h : Kept z s) (p : Nat) (x : PalP) :
    Kept z (State.setPp s p x) := by
  unfold State.setPp
  try dsimp only
  repeat' first
    | (with_reducible assumption) | (simp only [kept_mk]; with_reducible apply Kept.upd)

theorem State.setHp_kept {z s : State} (h : Kept z s) (p : Nat) (x : HifP) :
    Kept z (State.setHp s p x) := by
  unfold State.setHp
  try dsimp only
  repeat' first
    | (with_reducible assumption) | (simp only [kept_mk]; with_reducible apply Kept.upd)

theorem State.setChan_kept {z s : State} (h : Kept z s) (c : Nat) (x : Chan) :
    Kept z (State.setChan s c x) := by
  unfold State.setChan
  try dsimp only
  repeat' first
    | (with_reducible assumption) | (simp only [kept_mk]; with_reducible apply Kept.upd)

theorem State.setRole_kept {z s : State} (h : Kept z s) (t role part : Nat) :
    Kept z (State.setRole s t role part) := by
  unfold State.setRole
  try dsimp only
  repeat' first
    | (with_reducible assumption) | (simp only [kept_mk]; with_reducible apply Kept.upd)

theorem State.countSev_kept {z s : State} (h : Kept z s) (sev : Nat) :
    Kept z (State.countSev s sev) := by
  unfold State.countSev
  repeat' first
    | (with_reducible assumption) | (with_reducible apply State.fsat_kept)

theorem State.pendEv_kept {z s : State} (h : Kept z s) (e : Ev) :
    Kept z (State.pendEv s e) := by
  unfold State.pendEv
  try dsimp only
  repeat' first
    | (with_reducible assumption) | (simp only [kept_mk]; with_reducible apply Kept.upd)

theorem State.raise_kept {z s : State} (h : Kept z s) (e : Ev) :
    Kept z (State.raise s e) := by
  unfold State.raise
  repeat' first
    | (with_reducible assumption) | (with_reducible apply State.countSev_kept) | (with_reducible apply State.pendEv_kept)

theorem State.partEv_kept {z s : State} (h : Kept z s) (typ sev p code detail : Nat) :
    Kept z (State.partEv s typ sev p code detail) := by
  unfold State.partEv
  repeat' first
    | (with_reducible assumption) | (with_reducible apply State.raise_kept)

theorem State.devEv_kept {z s : State} (h : Kept z s) (typ sev code detail : Nat) :
    Kept z (State.devEv s typ sev code detail) := by
  unfold State.devEv
  repeat' first
    | (with_reducible assumption) | (with_reducible apply State.raise_kept)

theorem State.noteEv_kept {z s : State} (h : Kept z s) (typ sev p detail : Nat) :
    Kept z (State.noteEv s typ sev p detail) := by
  unfold State.noteEv
  repeat' first
    | (with_reducible assumption) | (with_reducible apply State.partEv_kept)

theorem State.allEv_kept {z s : State} (h : Kept z s) (typ sev code detail : Nat) (nmi pennant : Bool) :
    Kept z (State.allEv s typ sev code detail nmi pennant) := by
  unfold State.allEv
  try dsimp only
  repeat' first
    | (with_reducible assumption) | (intro _) | (simp only [kept_mk]; with_reducible apply Kept.upd)
    | (with_reducible apply State.raise_kept)

theorem State.recErr_kept {z s : State} (h : Kept z s) (e : Err) :
    Kept z (State.recErr s e) := by
  unfold State.recErr
  try dsimp only
  repeat' first
    | (with_reducible assumption) | (intro _) | (simp only [kept_mk]; with_reducible apply Kept.upd)
    | (with_reducible apply State.fset_kept) | (with_reducible apply State.fsat_kept) | (with_reducible apply State.fsets_kept)
    | (with_reducible apply State.countSev_kept) | (with_reducible apply State.pendEv_kept) | (with_reducible apply Kept.ite)
    | (dsimp only) | split | (refine Kept.ofFst (by assumption) ?_) | (refine Kept.ofSnd (by assumption) ?_)

theorem State.msix_kept {z s : State} (h : Kept z s) (f v : Nat) :
    Kept z (State.msix s f v) := by
  unfold State.msix
  try dsimp only
  repeat' first
    | (with_reducible assumption) | (simp only [kept_mk]; with_reducible apply Kept.upd) | (with_reducible apply State.emit_kept)
    | (with_reducible apply Kept.ite) | split

theorem State.violate_kept {z s : State} (h : Kept z s) (p kind source addr : Nat) :
    Kept z (State.violate s p kind source addr) := by
  unfold State.violate
  try dsimp only
  repeat' first
    | (with_reducible assumption) | (with_reducible apply State.recErr_kept)

theorem State.inkWrite_kept {z s : State} (h : Kept z s) (t a : Nat) (bs : List Byte) : Kept z (State.inkWrite s t a bs) := by
  unfold State.inkWrite
  split
  · exact h
  · dsimp only
    simp only [kept_mk]
    refine Kept.mems (State.setTile_kept h t _) (fun w => ?_)
    obtain ⟨a, b, c, d, e⟩ := State.wf_all w
    exact ⟨a, b, mwf_putBytes _ _ _ _ c, d, e⟩

end Sys2Proof.Machine
end

