-- ==== Sys2Proof/Laws/KeptMem.lean ====
section
/-!
SUPPORT. The operations of Machine/Mem.lean keep the fuses, the queue and the canonical form of the memories.
-/
namespace Sys2Proof.Machine

theorem State.lineGood_kept {z s : State} (h : Kept z s) (o a d : Nat) :
    Kept z (State.lineGood s o a d) := by
  unfold State.lineGood
  try dsimp only
  repeat' first
    | (with_reducible assumption) | (simp only [kept_mk]; with_reducible apply Kept.upd) | (with_reducible apply Kept.ite) | split

theorem State.setPoison_kept {z s : State} (h : Kept z s) (line : Nat) :
    Kept z (State.setPoison s line) := by
  unfold State.setPoison
  try dsimp only
  repeat' first
    | (with_reducible assumption) | (simp only [kept_mk]; with_reducible apply Kept.upd)

theorem State.setLlc_kept {z s : State} (h : Kept z s) (k : Nat) (l : List LlcLine) :
    Kept z (State.setLlc s k l) := by
  unfold State.setLlc
  try dsimp only
  repeat' first
    | (with_reducible assumption) | (simp only [kept_mk]; with_reducible apply Kept.upd)

theorem State.llcTouch_kept {z s : State} (h : Kept z s) (p line : Nat) (r : MReq) (write : Bool) :
    Kept z (State.llcTouch s p line r write) := by
  unfold State.llcTouch
  try dsimp only
  repeat' first
    | (with_reducible assumption) | (intro _) | (simp only [kept_mk]; with_reducible apply Kept.upd)
    | (with_reducible apply State.finc_kept) | (with_reducible apply State.setLlc_kept) | (with_reducible apply Kept.ite) | split

theorem State.llcDrop_kept {z s : State} (h : Kept z s) (line : Nat) :
    Kept z (State.llcDrop s line) := by
  unfold State.llcDrop
  try dsimp only
  repeat' first
    | (with_reducible assumption) | (intro _) | (with_reducible apply State.setLlc_kept)

theorem State.hbmErr_kept {z s : State} (h : Kept z s) (kind d : Nat) (ev : Ev) :
    Kept z (State.hbmErr s kind d ev) := by
  unfold State.hbmErr
  try dsimp only
  repeat' first
    | (with_reducible assumption) | (simp only [kept_mk]; with_reducible apply Kept.upd) | (with_reducible apply State.fsat_kept)
    | (with_reducible apply State.fsets_kept) | (with_reducible apply State.countSev_kept) | (with_reducible apply State.pendEv_kept)
    | (with_reducible apply Kept.ite) | split

theorem State.uncorrectable_kept {z s : State} (h : Kept z s) (line kind : Nat) :
    Kept z (State.uncorrectable s line kind) := by
  unfold State.uncorrectable
  try dsimp only
  repeat' first
    | (with_reducible assumption) | (simp only [kept_mk]; with_reducible apply Kept.upd) | (with_reducible apply State.fsat_kept)
    | (with_reducible apply State.setPoison_kept) | (with_reducible apply State.hbmErr_kept)

theorem State.corrected_kept {z s : State} (h : Kept z s) (line : Nat) :
    Kept z (State.corrected s line) := by
  unfold State.corrected
  try dsimp only
  repeat' first
    | (with_reducible assumption) | (simp only [kept_mk]; with_reducible apply Kept.upd) | (with_reducible apply State.fsat_kept)

theorem State.llcDouble_kept {z s : State} (h : Kept z s) (p line : Nat) :
    Kept z (State.llcDouble s p line) := by
  unfold State.llcDouble
  try dsimp only
  repeat' first
    | (with_reducible assumption) | (intro _) | (with_reducible apply State.fsat_kept) | (with_reducible apply State.setLlc_kept)
    | (with_reducible apply State.uncorrectable_kept) | (with_reducible apply Kept.ite) | (dsimp only) | split
    | (refine Kept.ofFst (by assumption) ?_) | (refine Kept.ofSnd (by assumption) ?_)

theorem State.lineErr_kept {z s : State} (h : Kept z s) (p : Nat) (e : Nat × Nat) :
    Kept z (State.lineErr p s e) := by
  unfold State.lineErr
  try dsimp only
  repeat' first
    | (with_reducible assumption) | (simp only [kept_mk]; with_reducible apply Kept.upd) | (with_reducible apply State.fsat_kept)
    | (with_reducible apply State.uncorrectable_kept) | (with_reducible apply State.corrected_kept)
    | (with_reducible apply State.llcDouble_kept) | (with_reducible apply Kept.ite) | split

theorem State.snoop_kept {z s : State} (h : Kept z s) (o a d : Nat) (write : Bool) :
    Kept z (State.snoop s o a d write) := by
  unfold State.snoop
  repeat' first
    | (with_reducible assumption) | (with_reducible apply State.emit_kept) | (with_reducible apply Kept.ite) | split

theorem State.stray_kept {z s : State} (h : Kept z s) (p src a : Nat) :
    Kept z (State.stray s p src a) := by
  unfold State.stray
  repeat' first
    | (with_reducible assumption) | (with_reducible apply State.violate_kept)

theorem State.readEntry_kept {z s : State} (h : Kept z s) (p a : Nat) :
    Kept z (State.readEntry s p a) := by
  unfold State.readEntry
  try dsimp only
  repeat' first
    | (with_reducible assumption) | (simp only [kept_mk]; with_reducible apply Kept.upd) | (with_reducible apply State.llcTouch_kept)
    | (with_reducible apply State.snoop_kept) | (with_reducible apply State.stray_kept) | (with_reducible apply Kept.ite) | split

theorem State.useFrame_kept {z s : State} (h : Kept z s) (p a : Nat) :
    Kept z (State.useFrame s p a) := by
  unfold State.useFrame
  try dsimp only
  repeat' first
    | (with_reducible assumption) | (with_reducible apply State.setSp_kept) | (with_reducible apply Kept.ite) | split

theorem State.readPiece_kept {z : State} (p : Nat) (req : MReq) (dev : Bool) {acc : State × MRes} (pc : Nat × Nat) (h : Kept z acc.1) :
    Kept z (State.readPiece p req dev acc pc).1 := by
  unfold State.readPiece
  try dsimp only
  repeat' first
    | (with_reducible assumption) | (intro _) | (simp only [kept_mk]; with_reducible apply Kept.upd)
    | (with_reducible apply State.llcTouch_kept) | (with_reducible apply State.snoop_kept)
    | (with_reducible apply State.readEntry_kept) | (with_reducible apply State.useFrame_kept) | (with_reducible apply Kept.ite)
    | (with_reducible apply Kept.ite1) | (with_reducible apply Kept.ite2) | (dsimp only) | split
    | (refine Kept.ofFst (by assumption) ?_) | (refine Kept.ofSnd (by assumption) ?_)

theorem State.memRead_kept {z s : State} (h : Kept z s) (p a n : Nat) (req : MReq) (dev : Bool) :
    Kept z (State.memRead s p a n req dev).1 := by
  unfold State.memRead
  repeat' first
    | (with_reducible assumption) | (with_reducible apply State.readPiece_kept)
    | (with_reducible refine Kept.foldl ?_ (fun _ _ _ => ?_) _) | (with_reducible refine Kept.foldl1 ?_ (fun _ _ _ => ?_) _)
    | (dsimp only) | (refine Kept.ofFst (by assumption) ?_) | (refine Kept.ofSnd (by assumption) ?_)

theorem State.markDirty_kept {z s : State} (h : Kept z s) (p a : Nat) :
    Kept z (State.markDirty s p a) := by
  unfold State.markDirty
  try dsimp only
  repeat' first
    | (with_reducible assumption) | (simp only [kept_mk]; with_reducible apply Kept.upd)
    | (simp only [kept_mk]; with_reducible refine Kept.mems ?_ (fun w => by
        obtain ⟨_, _, _, _, _⟩ := State.wf_all w
        refine ⟨?_, ?_, ?_, ?_, ?_⟩ <;> repeat' first
          | with_reducible assumption | exact mwf_nil _ | apply mwf_putBytes | apply mwf_mset | apply mwf_mupd | apply mwf_filter | refine mwf_foldl _ _ (fun _ _ _ => ?_) _ _ ?_ | split | (simp at *; assumption)))
    | (with_reducible apply State.llcTouch_kept) | (with_reducible apply State.snoop_kept) | (with_reducible apply Kept.ite) | split

theorem State.partPoison_kept {z s : State} (h : Kept z s) (p d : Nat) :
    Kept z (State.partPoison s p d) := by
  unfold State.partPoison
  repeat' first
    | (with_reducible assumption) | (with_reducible apply State.llcTouch_kept) | (with_reducible apply State.hbmErr_kept)

theorem State.lateWrite_kept {z s : State} (h : Kept z s) (p o a d at_ : Nat) (bs : List Byte) (r : MRes) :
    Kept z (State.lateWrite s p o a d at_ bs r).1 := by
  unfold State.lateWrite
  try dsimp only
  repeat' first
    | (with_reducible assumption) | (intro _) | (simp only [kept_mk]; with_reducible apply Kept.upd)
    | (with_reducible apply State.partPoison_kept) | (with_reducible apply Kept.ite) | (with_reducible apply Kept.ite1)
    | (with_reducible apply Kept.ite2) | (dsimp only) | split | (refine Kept.ofFst (by assumption) ?_)
    | (refine Kept.ofSnd (by assumption) ?_)

theorem State.writePiece_kept {z : State} (p : Nat) (req : MReq) (dev : Bool) {acc : State × MRes} (pc : Nat × List Byte) (h : Kept z acc.1) :
    Kept z (State.writePiece p req dev acc pc).1 := by
  unfold State.writePiece
  try dsimp only
  repeat' first
    | (with_reducible assumption) | (intro _) | (simp only [kept_mk]; with_reducible apply Kept.upd)
    | (simp only [kept_mk]; with_reducible refine Kept.mems ?_ (fun w => by
        obtain ⟨_, _, _, _, _⟩ := State.wf_all w
        refine ⟨?_, ?_, ?_, ?_, ?_⟩ <;> repeat' first
          | with_reducible assumption | exact mwf_nil _ | apply mwf_putBytes | apply mwf_mset | apply mwf_mupd | apply mwf_filter | refine mwf_foldl _ _ (fun _ _ _ => ?_) _ _ ?_ | split | (simp at *; assumption)))
    | (with_reducible apply State.lineGood_kept) | (with_reducible apply State.llcTouch_kept)
    | (with_reducible apply State.llcDrop_kept) | (with_reducible apply State.snoop_kept)
    | (with_reducible apply State.readEntry_kept) | (with_reducible apply State.useFrame_kept)
    | (with_reducible apply State.markDirty_kept) | (with_reducible apply State.partPoison_kept)
    | (with_reducible apply State.lateWrite_kept) | (with_reducible apply Kept.ite) | (with_reducible apply Kept.ite1)
    | (with_reducible apply Kept.ite2) | (dsimp only) | split | (refine Kept.ofFst (by assumption) ?_)
    | (refine Kept.ofSnd (by assumption) ?_)

theorem State.memWrite_kept {z s : State} (h : Kept z s) (p a : Nat) (bs : List Byte) (req : MReq) (dev : Bool) :
    Kept z (State.memWrite s p a bs req dev).1 := by
  unfold State.memWrite
  try dsimp only
  repeat' first
    | (with_reducible assumption) | (intro _) | (with_reducible apply State.writePiece_kept)
    | (with_reducible refine Kept.foldl ?_ (fun _ _ _ => ?_) _) | (with_reducible refine Kept.foldl1 ?_ (fun _ _ _ => ?_) _)
    | (dsimp only) | (refine Kept.ofFst (by assumption) ?_) | (refine Kept.ofSnd (by assumption) ?_)

theorem State.broke_kept {z s : State} (h : Kept z s) (p src : Nat) (r : MRes) :
    Kept z (State.broke s p src r) := by
  unfold State.broke
  try dsimp only
  repeat' first
    | (with_reducible assumption) | (intro _) | (with_reducible apply State.violate_kept) | (with_reducible apply State.stray_kept)
    | (with_reducible refine Kept.foldl ?_ (fun _ _ _ => ?_) _) | (with_reducible refine Kept.foldl1 ?_ (fun _ _ _ => ?_) _)

theorem State.memPut_kept {z s : State} (h : Kept z s) (p src a : Nat) (bs : List Byte) (req : MReq) :
    Kept z (State.memPut s p src a bs req) := by
  unfold State.memPut
  try dsimp only
  repeat' first
    | (with_reducible assumption) | (with_reducible apply State.memWrite_kept) | (with_reducible apply State.broke_kept)
    | (dsimp only) | split | (refine Kept.ofFst (by assumption) ?_) | (refine Kept.ofSnd (by assumption) ?_)

theorem State.memSee_kept {z s : State} (h : Kept z s) (p src a n : Nat) (req : MReq) :
    Kept z (State.memSee s p src a n req) := by
  unfold State.memSee
  try dsimp only
  repeat' first
    | (with_reducible assumption) | (with_reducible apply State.memRead_kept) | (with_reducible apply State.broke_kept) | (dsimp only)
    | split | (refine Kept.ofFst (by assumption) ?_) | (refine Kept.ofSnd (by assumption) ?_)

theorem State.memPoison_kept {z s : State} (h : Kept z s) (p src a : Nat) :
    Kept z (State.memPoison s p src a) := by
  unfold State.memPoison
  try dsimp only
  repeat' first
    | (with_reducible assumption) | (simp only [kept_mk]; with_reducible apply Kept.upd) | (with_reducible apply State.setPoison_kept)
    | (with_reducible apply State.memWrite_kept) | (with_reducible apply State.broke_kept) | (with_reducible apply Kept.ite)
    | (dsimp only) | split | (refine Kept.ofFst (by assumption) ?_) | (refine Kept.ofSnd (by assumption) ?_)

theorem State.zeroChannel_kept {z s : State} (h : Kept z s) (c tag : Nat) :
    Kept z (State.zeroChannel s c tag) := by
  unfold State.zeroChannel
  try dsimp only
  repeat' first
    | (with_reducible assumption) | (intro _) | (simp only [kept_mk]; with_reducible apply Kept.upd)
    | (simp only [kept_mk]; with_reducible refine Kept.mems ?_ (fun w => by
        obtain ⟨_, _, _, _, _⟩ := State.wf_all w
        refine ⟨?_, ?_, ?_, ?_, ?_⟩ <;> repeat' first
          | with_reducible assumption | exact mwf_nil _ | apply mwf_putBytes | apply mwf_mset | apply mwf_mupd | apply mwf_filter | refine mwf_foldl _ _ (fun _ _ _ => ?_) _ _ ?_ | split | (simp at *; assumption)))
    | (with_reducible apply State.setChan_kept) | (with_reducible apply Kept.ite) | split

theorem State.hostWrite_kept {z s : State} (h : Kept z s) (a : Nat) (bs : List Byte) :
    Kept z (State.hostWrite s a bs) := by
  unfold State.hostWrite
  try dsimp only
  repeat' first
    | (with_reducible assumption) | (intro _) | (simp only [kept_mk]; with_reducible apply Kept.upd)
    | (simp only [kept_mk]; with_reducible refine Kept.mems ?_ (fun w => by
        obtain ⟨_, _, _, _, _⟩ := State.wf_all w
        refine ⟨?_, ?_, ?_, ?_, ?_⟩ <;> repeat' first
          | with_reducible assumption | exact mwf_nil _ | apply mwf_putBytes | apply mwf_mset | apply mwf_mupd | apply mwf_filter | refine mwf_foldl _ _ (fun _ _ _ => ?_) _ _ ?_ | split | (simp at *; assumption)))

theorem State.hostStores_kept {z s : State} (h : Kept z s) (l : HostStores) :
    Kept z (State.hostStores s l) := by
  unfold State.hostStores
  try dsimp only
  repeat' first
    | (with_reducible assumption) | (intro _) | (with_reducible apply State.hostWrite_kept)
    | (with_reducible refine Kept.foldl ?_ (fun _ _ _ => ?_) _) | (with_reducible refine Kept.foldl1 ?_ (fun _ _ _ => ?_) _)

end Sys2Proof.Machine
end

