-- ==== Sys2Proof/Laws/KeptLinks.lean ====
section
/-!
SUPPORT. The operations of Machine/Links.lean keep the fuses, the queue and the canonical form of the memories.
-/
namespace Sys2Proof.Machine

theorem State.sigAdd_kept {z s : State} (h : Kept z s) (p n d : Nat) :
    Kept z (State.sigAdd s p n d) := by
  unfold State.sigAdd
  repeat' first
    | (with_reducible assumption) | (with_reducible apply State.finc_kept) | (with_reducible apply Kept.ite) | split

theorem State.buntPut_kept {z s : State} (h : Kept z s) (p off : Nat) (bs : List Byte) :
    Kept z (State.buntPut s p off bs) := by
  unfold State.buntPut
  try dsimp only
  repeat' first
    | (with_reducible assumption) | (simp only [kept_mk]; with_reducible apply Kept.upd) | (with_reducible apply State.setSqp_kept)
    | (with_reducible apply State.memPut_kept) | (with_reducible apply Kept.ite) | split

theorem State.setMember_kept {z s : State} (h : Kept z s) (p i off : Nat) (bs : List Byte) :
    Kept z (State.setMember s p i off bs) := by
  unfold State.setMember
  repeat' first
    | (with_reducible assumption) | (with_reducible apply State.buntPut_kept)

theorem State.buntKeep_kept {z s : State} (h : Kept z s) (p n : Nat) :
    Kept z (State.buntKeep s p n) := by
  unfold State.buntKeep
  try dsimp only
  repeat' first
    | (with_reducible assumption) | (simp only [kept_mk]; with_reducible apply Kept.upd) | (with_reducible apply State.setSqp_kept)
    | split

theorem State.zSend_kept {z s : State} (h : Kept z s) (r : ZReq) :
    Kept z (State.zSend s r) := by
  unfold State.zSend
  try dsimp only
  repeat' first
    | (with_reducible assumption) | (simp only [kept_mk]; with_reducible apply Kept.upd)

theorem State.toMember_kept {z s : State} (h : Kept z s) (p client i : Nat) (remote : Option Nat) (sig : Option Nat) (data : List Byte) :
    Kept z (State.toMember s p client i remote sig data) := by
  unfold State.toMember
  try dsimp only
  repeat' first
    | (with_reducible assumption) | (simp only [kept_mk]; with_reducible apply Kept.upd) | (with_reducible apply State.memPut_kept)
    | (with_reducible apply State.sigAdd_kept) | (with_reducible apply State.zSend_kept) | (with_reducible apply Kept.ite) | split

theorem State.sqEntryDone_kept {z s : State} (h : Kept z s) (p i : Nat) :
    Kept z (State.sqEntryDone s p i) := by
  unfold State.sqEntryDone
  try dsimp only
  repeat' first
    | (with_reducible assumption) | (simp only [kept_mk]; with_reducible apply Kept.upd) | (with_reducible apply State.fset_kept)
    | (with_reducible apply State.setSqp_kept) | (with_reducible apply State.sigAdd_kept) | (with_reducible apply Kept.ite) | split

theorem State.sqBlDone_kept {z s : State} (h : Kept z s) (p t op r : Nat) :
    Kept z (State.sqBlDone s p t op r) := by
  unfold State.sqBlDone
  try dsimp only
  repeat' first
    | (with_reducible assumption) | (intro _) | (simp only [kept_mk]; with_reducible apply Kept.upd)
    | (with_reducible apply State.setSqp_kept) | (with_reducible apply State.sqEntryDone_kept) | (with_reducible apply Kept.ite)
    | split

theorem State.forceSkip_kept {z s : State} (h : Kept z s) (p : Nat) :
    Kept z (State.forceSkip s p) := by
  unfold State.forceSkip
  try dsimp only
  repeat' first
    | (with_reducible assumption) | (simp only [kept_mk]; with_reducible apply Kept.upd) | (with_reducible apply State.fset_kept)
    | (with_reducible apply State.fsat_kept) | (with_reducible apply State.setSqp_kept) | (with_reducible apply State.noteEv_kept)
    | (with_reducible apply Kept.ite) | split

theorem State.hlqPut_kept {z s : State} (h : Kept z s) (p : Nat) (rec : List Byte) :
    Kept z (State.hlqPut s p rec) := by
  unfold State.hlqPut
  repeat' first
    | (with_reducible assumption) | (with_reducible apply State.memPut_kept)

theorem State.cplPut_kept {z s : State} (h : Kept z s) (p : Nat) (rec : List Byte) :
    Kept z (State.cplPut s p rec) := by
  unfold State.cplPut
  try dsimp only
  repeat' first
    | (with_reducible assumption) | (simp only [kept_mk]; with_reducible apply Kept.upd) | (with_reducible apply State.setHp_kept)
    | (with_reducible apply State.hlqPut_kept)

theorem State.setDirty_kept {z s : State} (h : Kept z s) (p b : Nat) (v : Bool) :
    Kept z (State.setDirty s p b v) := by
  unfold State.setDirty
  try dsimp only
  repeat' first
    | (with_reducible assumption) | (simp only [kept_mk]; with_reducible apply Kept.upd) | (with_reducible apply State.memPut_kept)
    | (with_reducible apply Kept.ite) | split

theorem State.palLine_kept {z s : State} (h : Kept z s) (p t l : Nat) (old new : List Byte) :
    Kept z (State.palLine s p t l old new) := by
  unfold State.palLine
  try dsimp only
  repeat' first
    | (with_reducible assumption) | (simp only [kept_mk]; with_reducible apply Kept.upd) | (with_reducible apply State.memPut_kept)
    | (with_reducible apply State.setDirty_kept) | (with_reducible apply Kept.ite) | split

theorem State.palRead_kept {z s : State} (h : Kept z s) (p a : Nat) :
    Kept z (State.palRead s p a).1 := by
  unfold State.palRead
  try dsimp only
  repeat' first
    | (with_reducible assumption) | (simp only [kept_mk]; with_reducible apply Kept.upd) | (with_reducible apply State.memRead_kept)
    | (with_reducible apply Kept.ite) | (with_reducible apply Kept.ite1) | (with_reducible apply Kept.ite2) | (dsimp only) | split
    | (refine Kept.ofFst (by assumption) ?_) | (refine Kept.ofSnd (by assumption) ?_)

theorem State.shardDigest_kept {z s : State} (h : Kept z s) (p : Nat) (e : List Byte) :
    Kept z (State.shardDigest s p e).1 := by
  unfold State.shardDigest
  try dsimp only
  repeat' first
    | (with_reducible assumption) | (intro _) | (simp only [kept_mk]; with_reducible apply Kept.upd)
    | (with_reducible apply State.palRead_kept) | (with_reducible refine Kept.foldl ?_ (fun _ _ _ => ?_) _)
    | (with_reducible refine Kept.foldl1 ?_ (fun _ _ _ => ?_) _) | (dsimp only) | split | (refine Kept.ofFst (by assumption) ?_)
    | (refine Kept.ofSnd (by assumption) ?_)

theorem State.reform_kept {z s : State} (h : Kept z s) (p t : Nat) (e : List Byte) :
    Kept z (State.reform s p t e) := by
  unfold State.reform
  try dsimp only
  repeat' first
    | (with_reducible assumption) | (simp only [kept_mk]; with_reducible apply Kept.upd) | (with_reducible apply State.memPut_kept)
    | (with_reducible apply State.shardDigest_kept) | (dsimp only) | split | (refine Kept.ofFst (by assumption) ?_)
    | (refine Kept.ofSnd (by assumption) ?_)

theorem State.palSide_kept {z s : State} (h : Kept z s) (p t l : Nat) (e : List Byte) (old : Option (List Byte)) (new : List Byte) :
    Kept z (State.palSide s p t l e old new) := by
  unfold State.palSide
  try dsimp only
  repeat' first
    | (with_reducible assumption) | (simp only [kept_mk]; with_reducible apply Kept.upd) | (with_reducible apply State.setDirty_kept)
    | (with_reducible apply State.palLine_kept) | (with_reducible apply State.reform_kept) | (with_reducible apply Kept.ite) | split

end Sys2Proof.Machine
end

