-- ==== Sys2Proof/Laws/KeptRings.lean ====
section
/-!
SUPPORT. The operations of Machine/Rings.lean keep the fuses, the queue and the canonical form of the memories.
-/
namespace Sys2Proof.Machine

theorem State.setHalted_kept {z s : State} (h : Kept z s) (t : Nat) (u : TU) (h : Bool) :
    Kept z (State.setHalted s t u h) := by
  unfold State.setHalted
  try dsimp only
  repeat' first
    | (with_reducible assumption) | (simp only [kept_mk]; with_reducible apply Kept.upd) | (with_reducible apply State.fset_kept)
    | (with_reducible apply State.setTile_kept) | (with_reducible apply Kept.ite) | split

theorem State.onTileTask_kept {z s : State} (h : Kept z s) (t : Nat) (f : Task → Task) :
    Kept z (State.onTileTask s t f) := by
  unfold State.onTileTask
  try dsimp only
  repeat' first
    | (with_reducible assumption) | (intro _) | (simp only [kept_mk]; with_reducible apply Kept.upd)
    | (with_reducible apply State.setSp_kept) | (with_reducible apply Kept.ite) | split

theorem State.ringFault_kept {z s : State} (h : Kept z s) (t : Nat) (u : TU) (code : Nat) :
    Kept z (State.ringFault s t u code) := by
  unfold State.ringFault
  try dsimp only
  repeat' first
    | (with_reducible assumption) | (intro _) | (simp only [kept_mk]; with_reducible apply Kept.upd)
    | (with_reducible apply State.recErr_kept) | (with_reducible apply State.setHalted_kept)
    | (with_reducible apply State.onTileTask_kept) | (with_reducible apply Kept.ite) | split

theorem State.ringDone_kept {z s : State} (h : Kept z s) (t : Nat) (u : TU) :
    Kept z (State.ringDone s t u) := by
  unfold State.ringDone
  repeat' first
    | (with_reducible assumption) | (with_reducible apply State.finc_kept)

theorem State.ringTail_kept {z s : State} (h : Kept z s) (t : Nat) (u : TU) (v : Nat) :
    Kept z (State.ringTail s t u v) := by
  unfold State.ringTail
  try dsimp only
  repeat' first
    | (with_reducible assumption) | (with_reducible apply State.fset_kept) | (with_reducible apply State.ringFault_kept)
    | (with_reducible apply Kept.ite) | split

theorem State.ringAbort_kept {z s : State} (h : Kept z s) (t : Nat) (u : TU) :
    Kept z (State.ringAbort s t u) := by
  unfold State.ringAbort
  try dsimp only
  repeat' first
    | (with_reducible assumption) | (intro _) | (simp only [kept_mk]; with_reducible apply Kept.upd)
    | (simp only [kept_mk]; with_reducible refine Kept.mems ?_ (fun w => by
        obtain ⟨_, _, _, _, _⟩ := State.wf_all w
        refine ⟨?_, ?_, ?_, ?_, ?_⟩ <;> repeat' first
          | with_reducible assumption | exact mwf_nil _ | apply mwf_putBytes | apply mwf_mset | apply mwf_mupd | apply mwf_filter | refine mwf_foldl _ _ (fun _ _ _ => ?_) _ _ ?_ | split | (simp at *; assumption)))
    | (with_reducible apply State.fset_kept) | (with_reducible apply State.setTile_kept) | (with_reducible apply State.setHalted_kept)
    | split

theorem State.ringResume_kept {z s : State} (h : Kept z s) (t : Nat) (u : TU) :
    Kept z (State.ringResume s t u) := by
  unfold State.ringResume
  repeat' first
    | (with_reducible assumption) | (with_reducible apply State.setHalted_kept) | (with_reducible apply Kept.ite) | split

theorem State.ringCtrl_kept {z s : State} (h : Kept z s) (t : Nat) (u : TU) (v : Nat) :
    Kept z (State.ringCtrl s t u v) := by
  unfold State.ringCtrl
  try dsimp only
  repeat' first
    | (with_reducible assumption) | (intro _) | (simp only [kept_mk]; with_reducible apply Kept.upd)
    | (with_reducible apply State.fset_kept) | (with_reducible apply State.onTileTask_kept)
    | (with_reducible apply State.ringAbort_kept) | (with_reducible apply State.ringResume_kept) | (with_reducible apply Kept.ite)
    | split

theorem State.sendSummary_kept {z s : State} (h : Kept z s) (p tag : Nat) (m : Summary) :
    Kept z (State.sendSummary s p tag m) := by
  unfold State.sendSummary
  try dsimp only
  repeat' first
    | (with_reducible assumption) | (simp only [kept_mk]; with_reducible apply Kept.upd) | (with_reducible apply State.fsat_kept)
    | (with_reducible apply State.setNwp_kept) | (with_reducible apply Kept.ite) | split

theorem State.tileSummary_kept {z s : State} (h : Kept z s) (t tag : Nat) (m : Summary) :
    Kept z (State.tileSummary s t tag m) := by
  unfold State.tileSummary
  try dsimp only
  repeat' first
    | (with_reducible assumption) | (simp only [kept_mk]; with_reducible apply Kept.upd)
    | (with_reducible apply State.sendSummary_kept) | split

end Sys2Proof.Machine
end

