-- ==== Sys2Proof/Laws/KeptMatrix.lean ====
section
/-!
SUPPORT. The operations of Machine/Matrix.lean keep the fuses, the queue and the canonical form of the memories.
-/
namespace Sys2Proof.Machine

theorem State.newBank_kept {z s : State} (h : Kept z s) (t : Nat) :
    Kept z (State.newBank s t) := by
  unfold State.newBank
  try dsimp only
  repeat' first
    | (with_reducible assumption) | (intro _) | (simp only [kept_mk]; with_reducible apply Kept.upd)
    | (simp only [kept_mk]; with_reducible refine Kept.mems ?_ (fun w => by
        obtain ⟨_, _, _, _, _⟩ := State.wf_all w
        refine ⟨?_, ?_, ?_, ?_, ?_⟩ <;> repeat' first
          | with_reducible assumption | exact mwf_nil _ | apply mwf_putBytes | apply mwf_mset | apply mwf_mupd | apply mwf_filter | refine mwf_foldl _ _ (fun _ _ _ => ?_) _ _ ?_ | split | (simp at *; assumption)))
    | (with_reducible apply State.fset_kept)

theorem State.mmaAcc_kept {z s : State} (h : Kept z s) (t : Nat) (d : MxD) (fa fb : Fmt) :
    Kept z (State.mmaAcc s t d fa fb) := by
  unfold State.mmaAcc
  try dsimp only
  repeat' first
    | (with_reducible assumption) | (intro _) | (simp only [kept_mk]; with_reducible apply Kept.upd)
    | (simp only [kept_mk]; with_reducible refine Kept.mems ?_ (fun w => by
        obtain ⟨_, _, _, _, _⟩ := State.wf_all w
        refine ⟨?_, ?_, ?_, ?_, ?_⟩ <;> repeat' first
          | with_reducible assumption | exact mwf_nil _ | apply mwf_putBytes | apply mwf_mset | apply mwf_mupd | apply mwf_filter | refine mwf_foldl _ _ (fun _ _ _ => ?_) _ _ ?_ | split | (simp at *; assumption)))
    | (with_reducible apply State.finc_kept) | (with_reducible apply State.setTile_kept) | (with_reducible apply State.newBank_kept)
    | (with_reducible refine Kept.foldl ?_ (fun _ _ _ => ?_) _) | (with_reducible refine Kept.foldl1 ?_ (fun _ _ _ => ?_) _)
    | (with_reducible apply Kept.ite) | split

theorem State.blotPut_kept {z s : State} (h : Kept z s) (t row col : Nat) (add : Bool) (v : Num) :
    Kept z (State.blotPut s t row col add v).1 := by
  unfold State.blotPut
  try dsimp only
  repeat' first
    | (with_reducible assumption) | (simp only [kept_mk]; with_reducible apply Kept.upd)
    | (simp only [kept_mk]; with_reducible refine Kept.mems ?_ (fun w => by
        obtain ⟨_, _, _, _, _⟩ := State.wf_all w
        refine ⟨?_, ?_, ?_, ?_, ?_⟩ <;> repeat' first
          | with_reducible assumption | exact mwf_nil _ | apply mwf_putBytes | apply mwf_mset | apply mwf_mupd | apply mwf_filter | refine mwf_foldl _ _ (fun _ _ _ => ?_) _ _ ?_ | split | (simp at *; assumption)))
    | (with_reducible apply Kept.ite) | (with_reducible apply Kept.ite1) | (with_reducible apply Kept.ite2) | (dsimp only) | split
    | (refine Kept.ofFst (by assumption) ?_) | (refine Kept.ofSnd (by assumption) ?_)

theorem State.mxDrain_kept {z s : State} (h : Kept z s) (t : Nat) (d : MxD) :
    Kept z (State.mxDrain s t d).1 := by
  unfold State.mxDrain
  try dsimp only
  repeat' first
    | (with_reducible assumption) | (intro _) | (simp only [kept_mk]; with_reducible apply Kept.upd)
    | (with_reducible apply State.fset_kept) | (with_reducible apply State.raise_kept) | (with_reducible apply State.inkWrite_kept)
    | (with_reducible apply State.blotPut_kept) | (with_reducible refine Kept.foldl ?_ (fun _ _ _ => ?_) _)
    | (with_reducible refine Kept.foldl1 ?_ (fun _ _ _ => ?_) _) | (with_reducible apply Kept.ite) | (with_reducible apply Kept.ite1)
    | (with_reducible apply Kept.ite2) | (dsimp only) | split | (refine Kept.ofFst (by assumption) ?_)
    | (refine Kept.ofSnd (by assumption) ?_)

theorem State.mxRun_kept {z s : State} (h : Kept z s) (t op : Nat) (go : State → MxD → List Byte → State) (hgo : ∀ s a0 a1, Kept z s → Kept z (go s a0 a1)) :
    Kept z (State.mxRun s t op go) := by
  unfold State.mxRun
  try dsimp only
  repeat' first
    | (with_reducible assumption) | (with_reducible apply hgo) | (with_reducible apply State.ringFault_kept)
    | (with_reducible apply Kept.ite) | split

theorem State.mxNopGo_kept {z s : State} (h : Kept z s) (t : Nat) (y1 : MxD) (y2 : List Byte) :
    Kept z (State.mxNopGo t s y1 y2) := by
  unfold State.mxNopGo
  repeat' first
    | (with_reducible assumption) | (with_reducible apply State.ringDone_kept)

theorem State.mxMmaGo_kept {z s : State} (h : Kept z s) (t : Nat) (d : MxD) (raw : List Byte) :
    Kept z (State.mxMmaGo t s d raw) := by
  unfold State.mxMmaGo
  try dsimp only
  repeat' first
    | (with_reducible assumption) | (simp only [kept_mk]; with_reducible apply Kept.upd) | (with_reducible apply State.fset_kept)
    | (with_reducible apply State.setTile_kept) | (with_reducible apply State.ringDone_kept)
    | (with_reducible apply State.tileSummary_kept) | (with_reducible apply State.mmaAcc_kept)
    | (with_reducible apply State.mxDrain_kept) | (with_reducible apply Kept.ite) | (dsimp only) | split
    | (refine Kept.ofFst (by assumption) ?_) | (refine Kept.ofSnd (by assumption) ?_)

theorem State.mxDrainGo_kept {z s : State} (h : Kept z s) (t : Nat) (d : MxD) (y3 : List Byte) :
    Kept z (State.mxDrainGo t s d y3) := by
  unfold State.mxDrainGo
  try dsimp only
  repeat' first
    | (with_reducible assumption) | (with_reducible apply State.ringDone_kept) | (with_reducible apply State.tileSummary_kept)
    | (with_reducible apply State.mxDrain_kept) | (dsimp only) | split | (refine Kept.ofFst (by assumption) ?_)
    | (refine Kept.ofSnd (by assumption) ?_)

theorem State.mxLoadGo_kept {z s : State} (h : Kept z s) (t : Nat) (d : MxD) (y4 : List Byte) :
    Kept z (State.mxLoadGo t s d y4) := by
  unfold State.mxLoadGo
  try dsimp only
  repeat' first
    | (with_reducible assumption) | (intro _) | (simp only [kept_mk]; with_reducible apply Kept.upd)
    | (simp only [kept_mk]; with_reducible refine Kept.mems ?_ (fun w => by
        obtain ⟨_, _, _, _, _⟩ := State.wf_all w
        refine ⟨?_, ?_, ?_, ?_, ?_⟩ <;> repeat' first
          | with_reducible assumption | exact mwf_nil _ | apply mwf_putBytes | apply mwf_mset | apply mwf_mupd | apply mwf_filter | refine mwf_foldl _ _ (fun _ _ _ => ?_) _ _ ?_ | split | (simp at *; assumption)))
    | (with_reducible apply State.fset_kept) | (with_reducible apply State.setTile_kept) | (with_reducible apply State.ringDone_kept)
    | (with_reducible refine Kept.foldl ?_ (fun _ _ _ => ?_) _) | (with_reducible refine Kept.foldl1 ?_ (fun _ _ _ => ?_) _)
    | (with_reducible apply Kept.ite) | split

theorem State.shadowDone_kept {z s : State} (h : Kept z s) (t : Nat) :
    Kept z (State.shadowDone s t) := by
  unfold State.shadowDone
  try dsimp only
  repeat' first
    | (with_reducible assumption) | (intro _) | (simp only [kept_mk]; with_reducible apply Kept.upd)
    | (with_reducible apply State.fset_kept) | (with_reducible apply State.free_kept) | (with_reducible apply State.setTile_kept)
    | (with_reducible apply State.ringDone_kept) | (with_reducible apply State.tileSummary_kept)
    | (with_reducible refine Kept.foldl ?_ (fun _ _ _ => ?_) _) | (with_reducible refine Kept.foldl1 ?_ (fun _ _ _ => ?_) _)
    | (dsimp only) | split | (refine Kept.ofFst (by assumption) ?_) | (refine Kept.ofSnd (by assumption) ?_)

end Sys2Proof.Machine
end

