-- ==== Sys2Proof/Laws/KeptStreams.lean ====
section
/-!
SUPPORT. The operations of Machine/Streams.lean keep the fuses, the queue and the canonical form of the memories.
-/
namespace Sys2Proof.Machine

theorem State.inkRowPut_kept {z s : State} (h : Kept z s) (t : Nat) (x : Strm) (r : Nat × Nat) (es : List Nat) :
    Kept z (State.inkRowPut s t x r es) := by
  unfold State.inkRowPut
  try dsimp only
  repeat' first
    | (with_reducible assumption) | (intro _) | (with_reducible apply State.inkWrite_kept)
    | (with_reducible refine Kept.foldl ?_ (fun _ _ _ => ?_) _) | (with_reducible refine Kept.foldl1 ?_ (fun _ _ _ => ?_) _)
    | (with_reducible apply Kept.ite) | split

theorem State.inkStreamPut_kept {z s : State} (h : Kept z s) (t : Nat) (x : Strm) (rows : List (List Nat)) :
    Kept z (State.inkStreamPut s t x rows) := by
  unfold State.inkStreamPut
  try dsimp only
  repeat' first
    | (with_reducible assumption) | (intro _) | (with_reducible apply State.inkRowPut_kept)
    | (with_reducible refine Kept.foldl ?_ (fun _ _ _ => ?_) _) | (with_reducible refine Kept.foldl1 ?_ (fun _ _ _ => ?_) _)

end Sys2Proof.Machine
end

