-- ==== Sys2Proof/Laws/KeptNib.lean ====
section
/-!
SUPPORT. The operations of Machine/Nib.lean keep the fuses, the queue and the canonical form of the memories.
-/
namespace Sys2Proof.Machine

theorem State.et5Step_kept {z s : State} (h : Kept z s) (t win w : Nat) :
    Kept z (State.et5Step s t win w) := by
  unfold State.et5Step
  try dsimp only
  repeat' first
    | (with_reducible assumption) | (intro _) | (with_reducible apply State.inkWrite_kept) | (with_reducible apply Kept.ite) | split

theorem State.et5Run_kept {z s : State} (h : Kept z s) (t win : Nat) (l : List Nat) : Kept z (State.et5Run t win s l) := by
  induction l generalizing s with
  | nil => exact h
  | cons w ws ih =>
    unfold State.et5Run
    exact Kept.ite h (ih (State.et5Step_kept h t win w))

theorem State.nbRun_kept {z s : State} (h : Kept z s) (t op : Nat) (go : State → NbX → State) (hgo : ∀ s a0, Kept z s → Kept z (go s a0)) :
    Kept z (State.nbRun s t op go) := by
  unfold State.nbRun
  try dsimp only
  repeat' first
    | (with_reducible assumption) | (with_reducible apply hgo) | (with_reducible apply State.ringFault_kept)
    | (with_reducible apply Kept.ite) | split

theorem State.nbFinish_kept {z s : State} (h : Kept z s) (t : Nat) (x : NbX) (outs : List (List (List Nat))) (status : List Byte) (m : Summary) :
    Kept z (State.nbFinish s t x outs status m) := by
  unfold State.nbFinish
  try dsimp only
  repeat' first
    | (with_reducible assumption) | (intro _) | (with_reducible apply State.inkWrite_kept)
    | (with_reducible apply State.ringDone_kept) | (with_reducible apply State.tileSummary_kept)
    | (with_reducible apply State.inkStreamPut_kept) | (with_reducible refine Kept.foldl ?_ (fun _ _ _ => ?_) _)
    | (with_reducible refine Kept.foldl1 ?_ (fun _ _ _ => ?_) _) | (with_reducible apply Kept.ite) | split

theorem State.nbWrite_kept {z s : State} (h : Kept z s) (t : Nat) (x : NbX) (rows : List (List Num)) (status : List Byte) :
    Kept z (State.nbWrite s t x rows status) := by
  unfold State.nbWrite
  try dsimp only
  repeat' first
    | (with_reducible assumption) | (simp only [kept_mk]; with_reducible apply Kept.upd) | (with_reducible apply State.nbFinish_kept)
    | (dsimp only) | split | (refine Kept.ofFst (by assumption) ?_) | (refine Kept.ofSnd (by assumption) ?_)

theorem State.nbNop_kept {z s : State} (h : Kept z s) (t : Nat) (y5 : NbX) :
    Kept z (State.nbNop t s y5) := by
  unfold State.nbNop
  repeat' first
    | (with_reducible assumption) | (with_reducible apply State.ringDone_kept)

theorem State.nbMap_kept {z s : State} (h : Kept z s) (t : Nat) (x : NbX) :
    Kept z (State.nbMap t s x) := by
  unfold State.nbMap
  try dsimp only
  repeat' first
    | (with_reducible assumption) | (intro _) | (simp only [kept_mk]; with_reducible apply Kept.upd)
    | (with_reducible apply State.nbFinish_kept) | (dsimp only) | split | (refine Kept.ofFst (by assumption) ?_)
    | (refine Kept.ofSnd (by assumption) ?_)

theorem State.nbReduce_kept {z s : State} (h : Kept z s) (t : Nat) (x : NbX) :
    Kept z (State.nbReduce t s x) := by
  unfold State.nbReduce
  try dsimp only
  repeat' first
    | (with_reducible assumption) | (simp only [kept_mk]; with_reducible apply Kept.upd) | (with_reducible apply State.nbWrite_kept)
    | split

theorem State.nbSoftmax_kept {z s : State} (h : Kept z s) (t : Nat) (x : NbX) :
    Kept z (State.nbSoftmax t s x) := by
  unfold State.nbSoftmax
  try dsimp only
  repeat' first
    | (with_reducible assumption) | (intro _) | (simp only [kept_mk]; with_reducible apply Kept.upd)
    | (with_reducible apply State.nbWrite_kept) | split

theorem State.nbCompress_kept {z s : State} (h : Kept z s) (t : Nat) (x : NbX) :
    Kept z (State.nbCompress t s x) := by
  unfold State.nbCompress
  try dsimp only
  repeat' first
    | (with_reducible assumption) | (intro _) | (simp only [kept_mk]; with_reducible apply Kept.upd)
    | (with_reducible apply State.nbFinish_kept) | (dsimp only) | split | (refine Kept.ofFst (by assumption) ?_)
    | (refine Kept.ofSnd (by assumption) ?_)

theorem State.nbExpand_kept {z s : State} (h : Kept z s) (t : Nat) (x : NbX) :
    Kept z (State.nbExpand t s x) := by
  unfold State.nbExpand
  try dsimp only
  repeat' first
    | (with_reducible assumption) | (intro _) | (simp only [kept_mk]; with_reducible apply Kept.upd)
    | (with_reducible apply State.nbWrite_kept) | split

theorem State.nbMxpack_kept {z s : State} (h : Kept z s) (t : Nat) (x : NbX) :
    Kept z (State.nbMxpack t s x) := by
  unfold State.nbMxpack
  try dsimp only
  repeat' first
    | (with_reducible assumption) | (intro _) | (simp only [kept_mk]; with_reducible apply Kept.upd)
    | (with_reducible apply State.nbFinish_kept) | (with_reducible refine Kept.foldl ?_ (fun _ _ _ => ?_) _)
    | (with_reducible refine Kept.foldl1 ?_ (fun _ _ _ => ?_) _) | split

theorem State.nbMxunpack_kept {z s : State} (h : Kept z s) (t : Nat) (x : NbX) :
    Kept z (State.nbMxunpack t s x) := by
  unfold State.nbMxunpack
  try dsimp only
  repeat' first
    | (with_reducible assumption) | (intro _) | (simp only [kept_mk]; with_reducible apply Kept.upd)
    | (with_reducible apply State.nbWrite_kept) | split

theorem State.nbEt5_kept {z s : State} (h : Kept z s) (t : Nat) (x : NbX) :
    Kept z (State.nbEt5 t s x) := by
  unfold State.nbEt5
  repeat' first
    | (with_reducible assumption) | (with_reducible apply State.ringDone_kept) | (with_reducible apply State.et5Run_kept)

theorem State.nbWaitGo_kept {z s : State} (h : Kept z s) (t : Nat) (x : NbX) :
    Kept z (State.nbWaitGo t s x) := by
  unfold State.nbWaitGo
  try dsimp only
  repeat' first
    | (with_reducible assumption) | (simp only [kept_mk]; with_reducible apply Kept.upd) | (with_reducible apply State.fset_kept)
    | (with_reducible apply State.setTile_kept) | (with_reducible apply State.ringDone_kept) | (with_reducible apply Kept.ite)
    | split

theorem State.nbWaitMet_kept {z s : State} (h : Kept z s) (t : Nat) :
    Kept z (State.nbWaitMet s t) := by
  unfold State.nbWaitMet
  try dsimp only
  repeat' first
    | (with_reducible assumption) | (simp only [kept_mk]; with_reducible apply Kept.upd) | (with_reducible apply State.fset_kept)
    | (with_reducible apply State.setTile_kept) | (with_reducible apply State.ringDone_kept) | (with_reducible apply Kept.ite)
    | split

theorem State.nbPost_kept {z s : State} (h : Kept z s) (t : Nat) (x : NbX) :
    Kept z (State.nbPost t s x) := by
  unfold State.nbPost
  try dsimp only
  repeat' first
    | (with_reducible assumption) | (simp only [kept_mk]; with_reducible apply Kept.upd) | (with_reducible apply State.ringDone_kept)
    | (with_reducible apply State.ringTail_kept) | split

end Sys2Proof.Machine
end

