-- ==== Sys2Proof/Laws/KeptMover.lean ====
section
/-!
SUPPORT. The operations of Machine/Mover.lean keep the fuses, the queue and the canonical form of the memories.
-/
namespace Sys2Proof.Machine

theorem State.prefetchLine_kept {z s : State} (h : Kept z s) (p : Nat) (a : Nat) :
    Kept z (State.prefetchLine p s a) := by
  unfold State.prefetchLine
  try dsimp only
  repeat' first
    | (with_reducible assumption) | (simp only [kept_mk]; with_reducible apply Kept.upd) | (with_reducible apply State.readPiece_kept)
    | (dsimp only) | split | (refine Kept.ofFst (by assumption) ?_) | (refine Kept.ofSnd (by assumption) ?_)

theorem State.prefetch_kept {z s : State} (h : Kept z s) (p n : Nat) (q : List Nat × Nat) :
    Kept z (State.prefetch s p n q).1 := by
  unfold State.prefetch
  try dsimp only
  repeat' first
    | (with_reducible assumption) | (with_reducible apply State.prefetchLine_kept)
    | (with_reducible refine Kept.foldl ?_ (fun _ _ _ => ?_) _) | (with_reducible refine Kept.foldl1 ?_ (fun _ _ _ => ?_) _)
    | (dsimp only) | (refine Kept.ofFst (by assumption) ?_) | (refine Kept.ofSnd (by assumption) ?_)

theorem State.memStream_kept {z s : State} (h : Kept z s) (p : Nat) (x : Strm) :
    Kept z (State.memStream s p x).1 := by
  unfold State.memStream
  try dsimp only
  repeat' first
    | (with_reducible assumption) | (intro _) | (with_reducible apply State.memRead_kept) | (with_reducible apply State.prefetch_kept)
    | (with_reducible refine Kept.foldl ?_ (fun _ _ _ => ?_) _) | (with_reducible refine Kept.foldl1 ?_ (fun _ _ _ => ?_) _)
    | (dsimp only) | split | (refine Kept.ofFst (by assumption) ?_) | (refine Kept.ofSnd (by assumption) ?_)

theorem State.memStreamPut_kept {z s : State} (h : Kept z s) (p : Nat) (x : Strm) (rows : List (List Nat)) :
    Kept z (State.memStreamPut s p x rows).1 := by
  unfold State.memStreamPut
  try dsimp only
  repeat' first
    | (with_reducible assumption) | (intro _) | (with_reducible apply State.memWrite_kept)
    | (with_reducible refine Kept.foldl ?_ (fun _ _ _ => ?_) _) | (with_reducible refine Kept.foldl1 ?_ (fun _ _ _ => ?_) _)
    | (dsimp only) | split | (refine Kept.ofFst (by assumption) ?_) | (refine Kept.ofSnd (by assumption) ?_)

theorem State.demand_kept {z s : State} (h : Kept z s) (p t : Nat) (pages : List Nat) :
    Kept z (State.demand s p t pages) := by
  unfold State.demand
  try dsimp only
  repeat' first
    | (with_reducible assumption) | (intro _) | (simp only [kept_mk]; with_reducible apply Kept.upd)
    | (with_reducible apply State.setSp_kept) | (with_reducible refine Kept.foldl ?_ (fun _ _ _ => ?_) _)
    | (with_reducible refine Kept.foldl1 ?_ (fun _ _ _ => ?_) _) | (with_reducible apply Kept.ite) | split

theorem State.taskPoison_kept {z s : State} (h : Kept z s) (t a : Nat) :
    Kept z (State.taskPoison s t a) := by
  unfold State.taskPoison
  try dsimp only
  repeat' first
    | (with_reducible assumption) | (intro _) | (simp only [kept_mk]; with_reducible apply Kept.upd)
    | (with_reducible apply State.onTileTask_kept) | (with_reducible apply Kept.ite) | split

theorem State.smRun_kept {z s : State} (h : Kept z s) (t n op : Nat) (go : State → SmD → State) (hgo : ∀ s a0, Kept z s → Kept z (go s a0)) :
    Kept z (State.smRun s t n op go) := by
  unfold State.smRun
  try dsimp only
  repeat' first
    | (with_reducible assumption) | (with_reducible apply hgo) | (with_reducible apply State.ringFault_kept)
    | (with_reducible apply Kept.ite) | split

theorem State.smCopy_kept {z s : State} (h : Kept z s) (t n : Nat) (errs : List (Nat × Nat)) (d : SmD) :
    Kept z (State.smCopy t n errs s d) := by
  unfold State.smCopy
  try dsimp only
  repeat' first
    | (with_reducible assumption) | (intro _) | (with_reducible apply State.lineErr_kept) | (with_reducible apply State.broke_kept)
    | (with_reducible apply State.ringDone_kept) | (with_reducible apply State.inkStreamPut_kept)
    | (with_reducible apply State.prefetchLine_kept) | (with_reducible apply State.memStream_kept)
    | (with_reducible apply State.memStreamPut_kept) | (with_reducible apply State.demand_kept)
    | (with_reducible apply State.taskPoison_kept) | (with_reducible refine Kept.foldl ?_ (fun _ _ _ => ?_) _)
    | (with_reducible refine Kept.foldl1 ?_ (fun _ _ _ => ?_) _) | (with_reducible apply Kept.ite) | (dsimp only) | split
    | (refine Kept.ofFst (by assumption) ?_) | (refine Kept.ofSnd (by assumption) ?_)

theorem State.smNop_kept {z s : State} (h : Kept z s) (t n : Nat) (y6 : SmD) :
    Kept z (State.smNop t n s y6) := by
  unfold State.smNop
  repeat' first
    | (with_reducible assumption) | (with_reducible apply State.ringDone_kept)

theorem State.smWaitGo_kept {z s : State} (h : Kept z s) (t n : Nat) (d : SmD) :
    Kept z (State.smWaitGo t n s d) := by
  unfold State.smWaitGo
  try dsimp only
  repeat' first
    | (with_reducible assumption) | (simp only [kept_mk]; with_reducible apply Kept.upd) | (with_reducible apply State.setTile_kept)
    | (with_reducible apply State.ringDone_kept) | (with_reducible apply Kept.ite) | split

theorem State.smWaitMet_kept {z s : State} (h : Kept z s) (t n : Nat) :
    Kept z (State.smWaitMet s t n) := by
  unfold State.smWaitMet
  try dsimp only
  repeat' first
    | (with_reducible assumption) | (simp only [kept_mk]; with_reducible apply Kept.upd) | (with_reducible apply State.setTile_kept)
    | (with_reducible apply State.ringDone_kept) | (with_reducible apply Kept.ite) | split

end Sys2Proof.Machine
end

