-- ==== Sys2Proof/Laws/KeptBlotter.lean ====
section
/-!
SUPPORT. The operations of Machine/Blotter.lean keep the fuses, the queue and the canonical form of the memories.
-/
namespace Sys2Proof.Machine

theorem State.blSlots_kept {z s : State} (h : Kept z s) (t : Nat) :
    Kept z (State.blSlots s t) := by
  unfold State.blSlots
  try dsimp only
  repeat' first
    | (with_reducible assumption) | (intro _) | (simp only [kept_mk]; with_reducible apply Kept.upd)
    | (with_reducible apply State.fset_kept) | (with_reducible refine Kept.foldl ?_ (fun _ _ _ => ?_) _)
    | (with_reducible refine Kept.foldl1 ?_ (fun _ _ _ => ?_) _) | (with_reducible apply Kept.ite) | split

theorem State.setRegion_kept {z s : State} (h : Kept z s) (t r : Nat) (g : Region) :
    Kept z (State.setRegion s t r g) := by
  unfold State.setRegion
  try dsimp only
  repeat' first
    | (with_reducible assumption) | (simp only [kept_mk]; with_reducible apply Kept.upd) | (with_reducible apply State.setTile_kept)
    | (with_reducible apply State.blSlots_kept)

theorem State.blShow_kept {z s : State} (h : Kept z s) (t : Nat) (g : Region) :
    Kept z (State.blShow s t g) := by
  unfold State.blShow
  try dsimp only
  repeat' first
    | (with_reducible assumption) | (intro _) | (with_reducible apply State.fset_kept)
    | (with_reducible refine Kept.foldl ?_ (fun _ _ _ => ?_) _) | (with_reducible refine Kept.foldl1 ?_ (fun _ _ _ => ?_) _)

theorem State.blRelease_kept {z s : State} (h : Kept z s) (t r st : Nat) :
    Kept z (State.blRelease s t r st) := by
  unfold State.blRelease
  try dsimp only
  repeat' first
    | (with_reducible assumption) | (intro _) | (simp only [kept_mk]; with_reducible apply Kept.upd)
    | (with_reducible apply State.fset_kept) | (with_reducible apply State.setRegion_kept)
    | (with_reducible refine Kept.foldl ?_ (fun _ _ _ => ?_) _) | (with_reducible refine Kept.foldl1 ?_ (fun _ _ _ => ?_) _)
    | (with_reducible apply Kept.ite) | split

theorem State.blZero_kept {z s : State} (h : Kept z s) (t b : Nat) :
    Kept z (State.blZero s t b) := by
  unfold State.blZero
  try dsimp only
  repeat' first
    | (with_reducible assumption) | (intro _) | (simp only [kept_mk]; with_reducible apply Kept.upd)
    | (simp only [kept_mk]; with_reducible refine Kept.mems ?_ (fun w => by
        obtain ⟨_, _, _, _, _⟩ := State.wf_all w
        refine ⟨?_, ?_, ?_, ?_, ?_⟩ <;> repeat' first
          | with_reducible assumption | exact mwf_nil _ | apply mwf_putBytes | apply mwf_mset | apply mwf_mupd | apply mwf_filter | refine mwf_foldl _ _ (fun _ _ _ => ?_) _ _ ?_ | split | (simp at *; assumption)))

theorem State.blAlloc_kept {z s : State} (h : Kept z s) (p t r : Nat) (d : RegD) :
    Kept z (State.blAlloc s p t r d) := by
  unfold State.blAlloc
  try dsimp only
  repeat' first
    | (with_reducible assumption) | (intro _) | (with_reducible apply State.setRegion_kept) | (with_reducible apply State.blShow_kept)
    | (with_reducible apply State.blRelease_kept) | (with_reducible apply State.blZero_kept)
    | (with_reducible refine Kept.foldl ?_ (fun _ _ _ => ?_) _) | (with_reducible refine Kept.foldl1 ?_ (fun _ _ _ => ?_) _)

theorem State.blFill_kept {z s : State} (h : Kept z s) (t b : Nat) (bs : List Byte) :
    Kept z (State.blFill s t b bs) := by
  unfold State.blFill
  try dsimp only
  repeat' first
    | (with_reducible assumption) | (intro _) | (simp only [kept_mk]; with_reducible apply Kept.upd)
    | (simp only [kept_mk]; with_reducible refine Kept.mems ?_ (fun w => by
        obtain ⟨_, _, _, _, _⟩ := State.wf_all w
        refine ⟨?_, ?_, ?_, ?_, ?_⟩ <;> repeat' first
          | with_reducible assumption | exact mwf_nil _ | apply mwf_putBytes | apply mwf_mset | apply mwf_mupd | apply mwf_filter | refine mwf_foldl _ _ (fun _ _ _ => ?_) _ _ ?_ | split | (simp at *; assumption)))
    | (with_reducible apply State.blZero_kept) | (with_reducible refine Kept.foldl ?_ (fun _ _ _ => ?_) _)
    | (with_reducible refine Kept.foldl1 ?_ (fun _ _ _ => ?_) _)

theorem State.backBlock_kept {z : State} (p : Nat) (d : RegD) {a : State × NMap Nat × Nat × Bool} (i : Nat) (h : Kept z a.1) :
    Kept z (State.backBlock p d a i).1 := by
  unfold State.backBlock
  try dsimp only
  repeat' first
    | (with_reducible assumption) | (with_reducible apply State.memRead_kept) | (with_reducible apply Kept.ite)
    | (with_reducible apply Kept.ite1) | (with_reducible apply Kept.ite2) | (dsimp only) | split
    | (refine Kept.ofFst (by assumption) ?_) | (refine Kept.ofSnd (by assumption) ?_)

theorem State.backRead_kept {z s : State} (h : Kept z s) (p : Nat) (d : RegD) :
    Kept z (State.backRead s p d).1 := by
  unfold State.backRead
  repeat' first
    | (with_reducible assumption) | (with_reducible apply State.backBlock_kept)
    | (with_reducible refine Kept.foldl ?_ (fun _ _ _ => ?_) _) | (with_reducible refine Kept.foldl1 ?_ (fun _ _ _ => ?_) _)
    | (dsimp only) | (refine Kept.ofFst (by assumption) ?_) | (refine Kept.ofSnd (by assumption) ?_)

theorem State.foldInto_kept {z s : State} (h : Kept z s) (t : Nat) (g : Region) (src : NMap Nat) :
    Kept z (State.foldInto s t g src) := by
  unfold State.foldInto
  try dsimp only
  repeat' first
    | (with_reducible assumption) | (intro _) | (simp only [kept_mk]; with_reducible apply Kept.upd)
    | (simp only [kept_mk]; with_reducible refine Kept.mems ?_ (fun w => by
        obtain ⟨_, _, _, _, _⟩ := State.wf_all w
        refine ⟨?_, ?_, ?_, ?_, ?_⟩ <;> repeat' first
          | with_reducible assumption | exact mwf_nil _ | apply mwf_putBytes | apply mwf_mset | apply mwf_mupd | apply mwf_filter | refine mwf_foldl _ _ (fun _ _ _ => ?_) _ _ ?_ | split | (simp at *; assumption)))
    | (with_reducible refine Kept.foldl ?_ (fun _ _ _ => ?_) _) | (with_reducible refine Kept.foldl1 ?_ (fun _ _ _ => ?_) _)

theorem State.blFault_kept {z s : State} (h : Kept z s) (p t r code : Nat) (need : Bool) :
    Kept z (State.blFault s p t r code need) := by
  unfold State.blFault
  try dsimp only
  repeat' first
    | (with_reducible assumption) | (intro _) | (simp only [kept_mk]; with_reducible apply Kept.upd)
    | (with_reducible apply State.recErr_kept) | (with_reducible apply State.onTileTask_kept)
    | (with_reducible apply State.forceSkip_kept) | (with_reducible apply Kept.ite) | split

theorem State.blSpillGo_kept {z s : State} (h : Kept z s) (p t r : Nat) (d : RegD) (g : Region) :
    Kept z (State.blSpillGo s p t r d g) := by
  unfold State.blSpillGo
  try dsimp only
  repeat' first
    | (with_reducible assumption) | (intro _) | (with_reducible apply State.finc_kept) | (with_reducible apply State.memPut_kept)
    | (with_reducible apply State.blRelease_kept) | (with_reducible refine Kept.foldl ?_ (fun _ _ _ => ?_) _)
    | (with_reducible refine Kept.foldl1 ?_ (fun _ _ _ => ?_) _)

theorem State.blFillGo_kept {z s : State} (h : Kept z s) (p t r : Nat) (d : RegD) :
    Kept z (State.blFillGo s p t r d).1 := by
  unfold State.blFillGo
  try dsimp only
  repeat' first
    | (with_reducible assumption) | (intro _) | (simp only [kept_mk]; with_reducible apply Kept.upd)
    | (simp only [kept_mk]; with_reducible refine Kept.mems ?_ (fun w => by
        obtain ⟨_, _, _, _, _⟩ := State.wf_all w
        refine ⟨?_, ?_, ?_, ?_, ?_⟩ <;> repeat' first
          | with_reducible assumption | exact mwf_nil _ | apply mwf_putBytes | apply mwf_mset | apply mwf_mupd | apply mwf_filter | refine mwf_foldl _ _ (fun _ _ _ => ?_) _ _ ?_ | split | (simp at *; assumption)))
    | (with_reducible apply State.finc_kept) | (with_reducible apply State.setRegion_kept) | (with_reducible apply State.blAlloc_kept)
    | (with_reducible apply State.backRead_kept) | (with_reducible refine Kept.foldl ?_ (fun _ _ _ => ?_) _)
    | (with_reducible refine Kept.foldl1 ?_ (fun _ _ _ => ?_) _) | (dsimp only) | split | (refine Kept.ofFst (by assumption) ?_)
    | (refine Kept.ofSnd (by assumption) ?_)

theorem State.blFoldGo_kept {z s : State} (h : Kept z s) (p t r : Nat) (d : RegD) :
    Kept z (State.blFoldGo s p t r d).1 := by
  unfold State.blFoldGo
  try dsimp only
  repeat' first
    | (with_reducible assumption) | (intro _) | (simp only [kept_mk]; with_reducible apply Kept.upd)
    | (with_reducible apply State.setRegion_kept) | (with_reducible apply State.blRelease_kept)
    | (with_reducible apply State.backRead_kept) | (with_reducible apply State.foldInto_kept)
    | (with_reducible refine Kept.foldl ?_ (fun _ _ _ => ?_) _) | (with_reducible refine Kept.foldl1 ?_ (fun _ _ _ => ?_) _)
    | (with_reducible apply Kept.ite) | (with_reducible apply Kept.ite1) | (with_reducible apply Kept.ite2) | (dsimp only) | split
    | (refine Kept.ofFst (by assumption) ?_) | (refine Kept.ofSnd (by assumption) ?_)

theorem State.blDrainGo_kept {z s : State} (h : Kept z s) (p t r : Nat) (d : RegD) (g : Region) :
    Kept z (State.blDrainGo s p t r d g) := by
  unfold State.blDrainGo
  try dsimp only
  repeat' first
    | (with_reducible assumption) | (with_reducible apply State.fset_kept) | (with_reducible apply State.nonfinite_kept)
    | (with_reducible apply State.memPut_kept) | (with_reducible apply State.blRelease_kept) | (with_reducible apply Kept.ite)
    | split

theorem State.blLook_kept {z s : State} (h : Kept z s) (p t : Nat) (o : BlOp) (d : RegD) :
    Kept z (State.blLook s p t o d) := by
  unfold State.blLook
  try dsimp only
  repeat' first
    | (with_reducible assumption) | (intro _) | (with_reducible apply State.memSee_kept)
    | (with_reducible refine Kept.foldl ?_ (fun _ _ _ => ?_) _) | (with_reducible refine Kept.foldl1 ?_ (fun _ _ _ => ?_) _)
    | (with_reducible apply Kept.ite) | split

theorem State.blDo_kept {z s : State} (h : Kept z s) (p t : Nat) (o : BlOp) (d : RegD) :
    Kept z (State.blDo s p t o d) := by
  unfold State.blDo
  try dsimp only
  repeat' first
    | (with_reducible assumption) | (intro _) | (simp only [kept_mk]; with_reducible apply Kept.upd)
    | (with_reducible apply State.fset_kept) | (with_reducible apply State.setTile_kept) | (with_reducible apply State.blRelease_kept)
    | (with_reducible apply State.blAlloc_kept) | (with_reducible apply State.blFault_kept)
    | (with_reducible apply State.blSpillGo_kept) | (with_reducible apply State.blFillGo_kept)
    | (with_reducible apply State.blFoldGo_kept) | (with_reducible apply State.blDrainGo_kept) | (with_reducible apply Kept.ite)
    | (dsimp only) | split | (refine Kept.ofFst (by assumption) ?_) | (refine Kept.ofSnd (by assumption) ?_)

theorem State.blGo_kept {z s : State} (h : Kept z s) (p t : Nat) (o : BlOp) (d : RegD) :
    Kept z (State.blGo s p t o d) := by
  unfold State.blGo
  try dsimp only
  repeat' first
    | (with_reducible assumption) | (simp only [kept_mk]; with_reducible apply Kept.upd) | (with_reducible apply State.fset_kept)
    | (with_reducible apply State.setTile_kept) | (with_reducible apply State.demand_kept) | (with_reducible apply State.blDo_kept)
    | (with_reducible apply Kept.ite) | split

theorem State.blTurn_kept {z s : State} (h : Kept z s) (p t : Nat) (o : BlOp) (rest : List BlOp) :
    Kept z (State.blTurn s p t o rest).1 := by
  unfold State.blTurn
  try dsimp only
  repeat' first
    | (with_reducible assumption) | (intro _) | (simp only [kept_mk]; with_reducible apply Kept.upd)
    | (with_reducible apply State.setTile_kept) | (with_reducible apply State.stray_kept) | (with_reducible apply State.memSee_kept)
    | (with_reducible apply State.blFault_kept) | (with_reducible apply State.blLook_kept) | (with_reducible apply State.blGo_kept)
    | (with_reducible apply State.put_kept) | (with_reducible apply Kept.ite) | (with_reducible apply Kept.ite1)
    | (with_reducible apply Kept.ite2) | (dsimp only) | split | (refine Kept.ofFst (by assumption) ?_)
    | (refine Kept.ofSnd (by assumption) ?_)

theorem State.blNext_kept {z s : State} (h : Kept z s) (p t n_ : Nat) : Kept z (State.blNext p t n_ s) := by
  induction n_ generalizing s with
  | zero => exact h
  | succ n_ ih =>
    unfold State.blNext
    refine Kept.ite h ?_
    split
    · exact h
    · dsimp only
      exact Kept.ite (ih (State.blTurn_kept h _ _ _ _)) (State.blTurn_kept h _ _ _ _)

theorem State.blKick_kept {z s : State} (h : Kept z s) (p t : Nat) :
    Kept z (State.blKick s p t) := by
  unfold State.blKick
  repeat' first
    | (with_reducible assumption) | (with_reducible apply State.blNext_kept)

theorem State.blIssue_kept {z s : State} (h : Kept z s) (t op r : Nat) :
    Kept z (State.blIssue s t op r) := by
  unfold State.blIssue
  try dsimp only
  repeat' first
    | (with_reducible assumption) | (simp only [kept_mk]; with_reducible apply Kept.upd) | (with_reducible apply State.setTile_kept)
    | (with_reducible apply State.blKick_kept) | split

theorem State.blAsk_kept {z s : State} (h : Kept z s) (p t op r : Nat) :
    Kept z (State.blAsk s p t op r) := by
  unfold State.blAsk
  try dsimp only
  repeat' first
    | (with_reducible assumption) | (intro _) | (simp only [kept_mk]; with_reducible apply Kept.upd)
    | (with_reducible apply State.setSp_kept) | (with_reducible apply State.blIssue_kept) | (with_reducible apply Kept.ite) | split

theorem State.blResume_kept {z s : State} (h : Kept z s) (p t : Nat) :
    Kept z (State.blResume s p t) := by
  unfold State.blResume
  try dsimp only
  repeat' first
    | (with_reducible assumption) | (simp only [kept_mk]; with_reducible apply Kept.upd) | (with_reducible apply State.blDo_kept)
    | (with_reducible apply Kept.ite) | split

theorem State.blAgain_kept {z s : State} (h : Kept z s) (p t : Nat) :
    Kept z (State.blAgain s p t) := by
  unfold State.blAgain
  try dsimp only
  repeat' first
    | (with_reducible assumption) | (simp only [kept_mk]; with_reducible apply Kept.upd) | (with_reducible apply State.blGo_kept)
    | (with_reducible apply State.blKick_kept) | split

theorem State.blComplete_kept {z s : State} (h : Kept z s) (t : Nat) :
    Kept z (State.blComplete s t) := by
  unfold State.blComplete
  try dsimp only
  repeat' first
    | (with_reducible assumption) | (simp only [kept_mk]; with_reducible apply Kept.upd) | (with_reducible apply State.fset_kept)
    | (with_reducible apply State.finc_kept) | (with_reducible apply State.setTile_kept) | (with_reducible apply State.sqBlDone_kept)
    | (with_reducible apply State.blKick_kept) | (with_reducible apply Kept.ite) | split

end Sys2Proof.Machine
end

