-- ==== Sys2Proof/Laws/KeptWatch.lean ====
section
/-!
SUPPORT. The operations of Machine/Watch.lean keep the fuses, the queue and the canonical form of the memories.
-/
namespace Sys2Proof.Machine

theorem State.nwArea_kept {z s : State} (h : Kept z s) (p a : Nat) (outside : Bool) :
    Kept z (State.nwArea s p a outside) := by
  unfold State.nwArea
  try dsimp only
  repeat' first
    | (with_reducible assumption) | (with_reducible apply State.fset_kept) | (with_reducible apply State.stray_kept)
    | (with_reducible apply Kept.ite) | split

theorem State.nwRead_kept {z s : State} (h : Kept z s) (p e : Nat) :
    Kept z (State.nwRead s p e).1 := by
  unfold State.nwRead
  try dsimp only
  repeat' first
    | (with_reducible assumption) | (simp only [kept_mk]; with_reducible apply Kept.upd)
    | (simp only [kept_mk]; with_reducible refine Kept.mems ?_ (fun w => by
        obtain ⟨_, _, _, _, _⟩ := State.wf_all w
        refine ⟨?_, ?_, ?_, ?_, ?_⟩ <;> repeat' first
          | with_reducible assumption | exact mwf_nil _ | apply mwf_putBytes | apply mwf_mset | apply mwf_mupd | apply mwf_filter | refine mwf_foldl _ _ (fun _ _ _ => ?_) _ _ ?_ | split | (simp at *; assumption)))
    | (with_reducible apply State.setNwp_kept) | (with_reducible apply State.memRead_kept) | (with_reducible apply State.nwArea_kept)
    | (with_reducible apply Kept.ite) | (with_reducible apply Kept.ite1) | (with_reducible apply Kept.ite2) | (dsimp only) | split
    | (refine Kept.ofFst (by assumption) ?_) | (refine Kept.ofSnd (by assumption) ?_)

theorem State.nwItems_kept {z s : State} (h : Kept z s) (p : Nat) :
    Kept z (State.nwItems s p).1 := by
  unfold State.nwItems
  try dsimp only
  repeat' first
    | (with_reducible assumption) | (intro _) | (simp only [kept_mk]; with_reducible apply Kept.upd)
    | (with_reducible apply State.nwRead_kept) | (with_reducible refine Kept.foldl ?_ (fun _ _ _ => ?_) _)
    | (with_reducible refine Kept.foldl1 ?_ (fun _ _ _ => ?_) _) | (dsimp only) | split | (refine Kept.ofFst (by assumption) ?_)
    | (refine Kept.ofSnd (by assumption) ?_)

theorem State.nwReport_kept {z s : State} (h : Kept z s) (p : Nat) (rec : List Byte) :
    Kept z (State.nwReport s p rec) := by
  unfold State.nwReport
  try dsimp only
  repeat' first
    | (with_reducible assumption) | (with_reducible apply State.fset_kept) | (with_reducible apply State.finc_kept)
    | (with_reducible apply State.fsat_kept) | (with_reducible apply State.noteEv_kept) | (with_reducible apply State.memWrite_kept)
    | (with_reducible apply State.broke_kept) | (with_reducible apply State.nwArea_kept) | (with_reducible apply Kept.ite)
    | (dsimp only) | split | (refine Kept.ofFst (by assumption) ?_) | (refine Kept.ofSnd (by assumption) ?_)

theorem State.nwBoundaryEntry_kept {z s : State} (h : Kept z s) (p n : Nat) (skipped : Bool) (items : List (Nat × Nat)) (e : Nat) :
    Kept z (State.nwBoundaryEntry p n skipped items s e) := by
  unfold State.nwBoundaryEntry
  try dsimp only
  repeat' first
    | (with_reducible assumption) | (simp only [kept_mk]; with_reducible apply Kept.upd) | (with_reducible apply State.free_kept)
    | (with_reducible apply State.memPut_kept) | (with_reducible apply State.nwRead_kept) | (with_reducible apply State.nwReport_kept)
    | (with_reducible apply Kept.ite) | (dsimp only) | split | (refine Kept.ofFst (by assumption) ?_)
    | (refine Kept.ofSnd (by assumption) ?_)

theorem State.nwBoundary_kept {z s : State} (h : Kept z s) (p n : Nat) (skipped : Bool) (items : List (Nat × Nat)) :
    Kept z (State.nwBoundary s p n skipped items) := by
  unfold State.nwBoundary
  try dsimp only
  repeat' first
    | (with_reducible assumption) | (simp only [kept_mk]; with_reducible apply Kept.upd)
    | (simp only [kept_mk]; with_reducible refine Kept.mems ?_ (fun w => by
        obtain ⟨_, _, _, _, _⟩ := State.wf_all w
        refine ⟨?_, ?_, ?_, ?_, ?_⟩ <;> repeat' first
          | with_reducible assumption | exact mwf_nil _ | apply mwf_putBytes | apply mwf_mset | apply mwf_mupd | apply mwf_filter | refine mwf_foldl _ _ (fun _ _ _ => ?_) _ _ ?_ | split | (simp at *; assumption)))
    | (with_reducible apply State.fset_kept) | (with_reducible apply State.setNwp_kept)
    | (with_reducible apply State.nwBoundaryEntry_kept) | (with_reducible refine Kept.foldl ?_ (fun _ _ _ => ?_) _)
    | (with_reducible refine Kept.foldl1 ?_ (fun _ _ _ => ?_) _) | (with_reducible apply Kept.ite) | split

theorem State.nwSumsq_kept {z s : State} (h : Kept z s) (p e v : Nat) :
    Kept z (State.nwSumsq s p e v) := by
  unfold State.nwSumsq
  try dsimp only
  repeat' first
    | (with_reducible assumption) | (intro _) | (simp only [kept_mk]; with_reducible apply Kept.upd)
    | (simp only [kept_mk]; with_reducible refine Kept.mems ?_ (fun w => by
        obtain ⟨_, _, _, _, _⟩ := State.wf_all w
        refine ⟨?_, ?_, ?_, ?_, ?_⟩ <;> repeat' first
          | with_reducible assumption | exact mwf_nil _ | apply mwf_putBytes | apply mwf_mset | apply mwf_mupd | apply mwf_filter | refine mwf_foldl _ _ (fun _ _ _ => ?_) _ _ ?_ | split | (simp at *; assumption)))
    | (with_reducible apply State.setNwp_kept) | (with_reducible apply Kept.ite) | split

theorem State.watchSummary_kept {z s : State} (h : Kept z s) (p : Nat) :
    Kept z (State.watchSummary s p) := by
  unfold State.watchSummary
  try dsimp only
  repeat' first
    | (with_reducible assumption) | (intro _) | (simp only [kept_mk]; with_reducible apply Kept.upd)
    | (simp only [kept_mk]; with_reducible refine Kept.mems ?_ (fun w => by
        obtain ⟨_, _, _, _, _⟩ := State.wf_all w
        refine ⟨?_, ?_, ?_, ?_, ?_⟩ <;> repeat' first
          | with_reducible assumption | exact mwf_nil _ | apply mwf_putBytes | apply mwf_mset | apply mwf_mupd | apply mwf_filter | refine mwf_foldl _ _ (fun _ _ _ => ?_) _ _ ?_ | split | (simp at *; assumption)))
    | (with_reducible apply State.setNwp_kept) | (with_reducible apply State.nwRead_kept) | (with_reducible apply Kept.ite)
    | (dsimp only) | split | (refine Kept.ofFst (by assumption) ?_) | (refine Kept.ofSnd (by assumption) ?_)

theorem State.nwFrom_kept {z s : State} (h : Kept z s) (p : Nat) :
    Kept z (State.nwFrom s p) := by
  unfold State.nwFrom
  try dsimp only
  repeat' first
    | (with_reducible assumption) | (simp only [kept_mk]; with_reducible apply Kept.upd) | (with_reducible apply State.setNwp_kept)

theorem State.watchOn_kept {z s : State} (h : Kept z s) (p : Nat) :
    Kept z (State.watchOn s p) := by
  unfold State.watchOn
  try dsimp only
  repeat' first
    | (with_reducible assumption) | (intro _) | (simp only [kept_mk]; with_reducible apply Kept.upd)
    | (with_reducible apply State.fset_kept) | (with_reducible apply State.setTile_kept) | (with_reducible apply State.setNwp_kept)
    | (with_reducible apply State.nwFrom_kept) | (with_reducible refine Kept.foldl ?_ (fun _ _ _ => ?_) _)
    | (with_reducible refine Kept.foldl1 ?_ (fun _ _ _ => ?_) _) | (with_reducible apply Kept.ite) | split

theorem State.watchOff_kept {z s : State} (h : Kept z s) (p : Nat) :
    Kept z (State.watchOff s p) := by
  unfold State.watchOff
  try dsimp only
  repeat' first
    | (with_reducible assumption) | (simp only [kept_mk]; with_reducible apply Kept.upd)
    | (simp only [kept_mk]; with_reducible refine Kept.mems ?_ (fun w => by
        obtain ⟨_, _, _, _, _⟩ := State.wf_all w
        refine ⟨?_, ?_, ?_, ?_, ?_⟩ <;> repeat' first
          | with_reducible assumption | exact mwf_nil _ | apply mwf_putBytes | apply mwf_mset | apply mwf_mupd | apply mwf_filter | refine mwf_foldl _ _ (fun _ _ _ => ?_) _ _ ?_ | split | (simp at *; assumption)))
    | (with_reducible apply State.fset_kept) | (with_reducible apply State.setNwp_kept)

theorem State.watchIdle_kept {z s : State} (h : Kept z s) (p : Nat) :
    Kept z (State.watchIdle s p) := by
  unfold State.watchIdle
  repeat' first
    | (with_reducible assumption) | (with_reducible apply State.fset_kept) | (with_reducible apply Kept.ite) | split

end Sys2Proof.Machine
end

