-- ==== Sys2Proof/Laws/KeptLigature.lean ====
section
/-!
SUPPORT. The operations of Machine/Ligature.lean keep the fuses, the queue and the canonical form of the memories.
-/
namespace Sys2Proof.Machine

theorem State.ligFault_kept {z s : State} (h : Kept z s) (p u code tensor line : Nat) :
    Kept z (State.ligFault s p u code tensor line) := by
  unfold State.ligFault
  try dsimp only
  repeat' first
    | (with_reducible assumption) | (with_reducible apply State.recErr_kept)

theorem State.ligLineFault_kept {z s : State} (h : Kept z s) (p u code t l : Nat) :
    Kept z (State.ligLineFault s p u code t l) := by
  unfold State.ligLineFault
  try dsimp only
  repeat' first
    | (with_reducible assumption) | (intro _) | (simp only [kept_mk]; with_reducible apply Kept.upd)
    | (with_reducible apply State.setLp_kept) | (with_reducible apply State.ligFault_kept)

theorem State.ligHeal_kept {z s : State} (h : Kept z s) (p : Nat) (here : Nat × Nat → Bool) :
    Kept z (State.ligHeal s p here) := by
  unfold State.ligHeal
  try dsimp only
  repeat' first
    | (with_reducible assumption) | (intro _) | (simp only [kept_mk]; with_reducible apply Kept.upd)
    | (with_reducible apply State.setLp_kept)

theorem State.ligTensorFault_kept {z s : State} (h : Kept z s) (p code tensor base : Nat) (viol : Option Nat) :
    Kept z (State.ligTensorFault s p code tensor base viol) := by
  unfold State.ligTensorFault
  try dsimp only
  repeat' first
    | (with_reducible assumption) | (simp only [kept_mk]; with_reducible apply Kept.upd) | (with_reducible apply State.stray_kept)
    | (with_reducible apply State.ligFault_kept) | split

theorem State.gradLine_kept {z s : State} (h : Kept z s) (p : Nat) (e : List Byte) (l : Nat) :
    Kept z (State.gradLine s p e l).1 := by
  unfold State.gradLine
  try dsimp only
  repeat' first
    | (with_reducible assumption) | (intro _) | (with_reducible apply State.memRead_kept) | (with_reducible apply Kept.ite)
    | (with_reducible apply Kept.ite1) | (with_reducible apply Kept.ite2) | (dsimp only) | split
    | (refine Kept.ofFst (by assumption) ?_) | (refine Kept.ofSnd (by assumption) ?_)

theorem State.shardSum_kept {z s : State} (h : Kept z s) (p : Nat) (e : List Byte) :
    Kept z (State.shardSum s p e).1 := by
  unfold State.shardSum
  try dsimp only
  repeat' first
    | (with_reducible assumption) | (intro _) | (with_reducible apply State.gradLine_kept)
    | (with_reducible refine Kept.foldl ?_ (fun _ _ _ => ?_) _) | (with_reducible refine Kept.foldl1 ?_ (fun _ _ _ => ?_) _)
    | (dsimp only) | split | (refine Kept.ofFst (by assumption) ?_) | (refine Kept.ofSnd (by assumption) ?_)

theorem State.ligWrite_kept {z s : State} (h : Kept z s) (p t l a : Nat) (e : List Byte) (old : Option (List Byte)) (new : List Byte) :
    Kept z (State.ligWrite s p t l a e old new) := by
  unfold State.ligWrite
  try dsimp only
  repeat' first
    | (with_reducible assumption) | (with_reducible apply State.finc_kept) | (with_reducible apply State.memPut_kept)
    | (with_reducible apply State.palSide_kept)

theorem State.ligLine_kept {z s : State} (h : Kept z s) (p : Nat) (u : LUpd) (factor : Nat) (prov : Bool) (l : Nat) (ges : State → State × Option (List Nat)) (hges : ∀ s , Kept z s → Kept z (ges s ).1) :
    Kept z (State.ligLine s p u factor prov l ges).1 := by
  unfold State.ligLine
  try dsimp only
  repeat' first
    | (with_reducible assumption) | (intro _) | (with_reducible apply hges) | (simp only [kept_mk]; with_reducible apply Kept.upd)
    | (with_reducible apply State.fset_kept) | (with_reducible apply State.fsets_kept) | (with_reducible apply State.setLp_kept)
    | (with_reducible apply State.noteEv_kept) | (with_reducible apply State.memRead_kept) | (with_reducible apply State.memPut_kept)
    | (with_reducible apply State.forceSkip_kept) | (with_reducible apply State.ligLineFault_kept)
    | (with_reducible apply State.ligHeal_kept) | (with_reducible apply State.ligTensorFault_kept)
    | (with_reducible apply State.ligWrite_kept) | (with_reducible apply Kept.ite) | (with_reducible apply Kept.ite1)
    | (with_reducible apply Kept.ite2) | (dsimp only) | split | (refine Kept.ofFst (by assumption) ?_)
    | (refine Kept.ofSnd (by assumption) ?_)

theorem State.ligLines_kept {z s : State} (h : Kept z s) (p : Nat) (u : LUpd) (factor : Nat) (prov : Bool) :
    Kept z (State.ligLines s p u factor prov).1 := by
  unfold State.ligLines
  try dsimp only
  repeat' first
    | (with_reducible assumption) | (intro _) | (with_reducible apply State.gradLine_kept) | (with_reducible apply State.ligLine_kept)
    | (with_reducible refine Kept.foldl ?_ (fun _ _ _ => ?_) _) | (with_reducible refine Kept.foldl1 ?_ (fun _ _ _ => ?_) _)
    | (with_reducible apply Kept.ite) | (with_reducible apply Kept.ite1) | (with_reducible apply Kept.ite2) | (dsimp only) | split
    | (refine Kept.ofFst (by assumption) ?_) | (refine Kept.ofSnd (by assumption) ?_)

theorem State.ligFormNorm_kept {z s : State} (h : Kept z s) (p : Nat) (u : LUpd) :
    Kept z (State.ligFormNorm s p u).1 := by
  unfold State.ligFormNorm
  try dsimp only
  repeat' first
    | (with_reducible assumption) | (intro _) | (simp only [kept_mk]; with_reducible apply Kept.upd)
    | (with_reducible apply State.setLp_kept) | (with_reducible apply State.nwSumsq_kept) | (with_reducible apply Kept.ite)
    | (with_reducible apply Kept.ite1) | (with_reducible apply Kept.ite2) | (dsimp only) | split
    | (refine Kept.ofFst (by assumption) ?_) | (refine Kept.ofSnd (by assumption) ?_)

theorem State.ligRun_kept {z s : State} (h : Kept z s) (p : Nat) (u : LUpd) :
    Kept z (State.ligRun s p u).1 := by
  unfold State.ligRun
  try dsimp only
  repeat' first
    | (with_reducible assumption) | (simp only [kept_mk]; with_reducible apply Kept.upd) | (with_reducible apply State.ligLines_kept)
    | (with_reducible apply State.ligFormNorm_kept) | (with_reducible apply Kept.ite) | (with_reducible apply Kept.ite1)
    | (with_reducible apply Kept.ite2) | (dsimp only) | split | (refine Kept.ofFst (by assumption) ?_)
    | (refine Kept.ofSnd (by assumption) ?_)

theorem State.ligRunAll_kept {z s : State} (h : Kept z s) (p : Nat) :
    Kept z (State.ligRunAll s p) := by
  unfold State.ligRunAll
  try dsimp only
  repeat' first
    | (with_reducible assumption) | (intro _) | (simp only [kept_mk]; with_reducible apply Kept.upd)
    | (with_reducible apply State.setLp_kept) | (with_reducible apply State.ligRun_kept)
    | (with_reducible refine Kept.foldl ?_ (fun _ _ _ => ?_) _) | (with_reducible refine Kept.foldl1 ?_ (fun _ _ _ => ?_) _)
    | (dsimp only) | split | (refine Kept.ofFst (by assumption) ?_) | (refine Kept.ofSnd (by assumption) ?_)

theorem State.ligIdle_kept {z s : State} (h : Kept z s) (p : Nat) :
    Kept z (State.ligIdle s p) := by
  unfold State.ligIdle
  try dsimp only
  repeat' first
    | (with_reducible assumption) | (intro _) | (with_reducible apply State.fset_kept)

theorem State.ligEntry_kept {z s : State} (h : Kept z s) (p : Nat) (n : LNote) :
    Kept z (State.ligEntry s p n).1 := by
  unfold State.ligEntry
  try dsimp only
  repeat' first
    | (with_reducible assumption) | (simp only [kept_mk]; with_reducible apply Kept.upd) | (with_reducible apply State.memRead_kept)
    | (with_reducible apply State.ligTensorFault_kept) | (with_reducible apply Kept.ite) | (with_reducible apply Kept.ite1)
    | (with_reducible apply Kept.ite2) | (dsimp only) | split | (refine Kept.ofFst (by assumption) ?_)
    | (refine Kept.ofSnd (by assumption) ?_)

theorem State.ligSendSum_kept {z s : State} (h : Kept z s) (p : Nat) (n : LNote) (own : Nat) :
    Kept z (State.ligSendSum s p n own) := by
  unfold State.ligSendSum
  try dsimp only
  repeat' first
    | (with_reducible assumption) | (intro _) | (with_reducible apply State.toMember_kept)
    | (with_reducible refine Kept.foldl ?_ (fun _ _ _ => ?_) _) | (with_reducible refine Kept.foldl1 ?_ (fun _ _ _ => ?_) _)

theorem State.ligBegin_kept {z s : State} (h : Kept z s) (p : Nat) (n : LNote) :
    Kept z (State.ligBegin s p n) := by
  unfold State.ligBegin
  try dsimp only
  repeat' first
    | (with_reducible assumption) | (intro _) | (simp only [kept_mk]; with_reducible apply Kept.upd)
    | (with_reducible apply State.setLp_kept) | (with_reducible apply State.ligTensorFault_kept)
    | (with_reducible apply State.shardSum_kept) | (with_reducible apply State.ligRunAll_kept)
    | (with_reducible apply State.ligEntry_kept) | (with_reducible apply State.ligSendSum_kept) | (with_reducible apply Kept.ite)
    | (dsimp only) | split | (refine Kept.ofFst (by assumption) ?_) | (refine Kept.ofSnd (by assumption) ?_)

theorem State.ligSumOnly_kept {z s : State} (h : Kept z s) (p : Nat) (n : LNote) :
    Kept z (State.ligSumOnly s p n) := by
  unfold State.ligSumOnly
  try dsimp only
  repeat' first
    | (with_reducible assumption) | (simp only [kept_mk]; with_reducible apply Kept.upd) | (with_reducible apply State.shardSum_kept)
    | (with_reducible apply State.ligEntry_kept) | (with_reducible apply State.ligSendSum_kept) | (with_reducible apply Kept.ite)
    | (dsimp only) | split | (refine Kept.ofFst (by assumption) ?_) | (refine Kept.ofSnd (by assumption) ?_)

theorem State.ligStart_kept {z s : State} (h : Kept z s) (p t : Nat) :
    Kept z (State.ligStart s p t) := by
  unfold State.ligStart
  try dsimp only
  repeat' first
    | (with_reducible assumption) | (intro _) | (simp only [kept_mk]; with_reducible apply Kept.upd)
    | (with_reducible apply State.setLp_kept) | (with_reducible apply State.ligRunAll_kept)
    | (with_reducible apply State.ligIdle_kept) | (with_reducible apply State.ligBegin_kept)
    | (with_reducible apply State.ligSumOnly_kept) | (with_reducible apply Kept.ite) | split

theorem State.normArrival_kept {z s : State} (h : Kept z s) (p m t v : Nat) :
    Kept z (State.normArrival s p m t v) := by
  unfold State.normArrival
  try dsimp only
  repeat' first
    | (with_reducible assumption) | (simp only [kept_mk]; with_reducible apply Kept.upd) | (with_reducible apply State.setLp_kept)
    | (with_reducible apply State.ligRunAll_kept) | (with_reducible apply Kept.ite) | split

theorem State.ligEntryEnd_kept {z s : State} (h : Kept z s) (p : Nat) (u : LUpd) (commit : Bool) :
    Kept z (State.ligEntryEnd s p u commit) := by
  unfold State.ligEntryEnd
  try dsimp only
  repeat' first
    | (with_reducible assumption) | (simp only [kept_mk]; with_reducible apply Kept.upd) | (with_reducible apply State.memPut_kept)
    | (with_reducible apply Kept.ite) | split

theorem State.dropTags_kept {z s : State} (h : Kept z s) (p : Nat) :
    Kept z (State.dropTags s p) := by
  unfold State.dropTags
  try dsimp only
  repeat' first
    | (with_reducible assumption) | (intro _) | (simp only [kept_mk]; with_reducible apply Kept.upd)
    | (with_reducible apply State.setTile_kept) | (with_reducible apply State.setSp_kept)
    | (with_reducible refine Kept.foldl ?_ (fun _ _ _ => ?_) _) | (with_reducible refine Kept.foldl1 ?_ (fun _ _ _ => ?_) _)

theorem State.ligEndStep_kept {z s : State} (h : Kept z s) (p n : Nat) (advance : Bool) :
    Kept z (State.ligEndStep s p n advance) := by
  unfold State.ligEndStep
  try dsimp only
  repeat' first
    | (with_reducible assumption) | (simp only [kept_mk]; with_reducible apply Kept.upd) | (with_reducible apply State.fset_kept)
    | (with_reducible apply State.setLp_kept) | (with_reducible apply State.ligIdle_kept) | (with_reducible apply State.dropTags_kept)
    | (with_reducible apply Kept.ite) | split

theorem State.ligBack_kept {z s : State} (h : Kept z s) (p i : Nat) :
    Kept z (State.ligBack s p i) := by
  unfold State.ligBack
  try dsimp only
  repeat' first
    | (with_reducible assumption) | (simp only [kept_mk]; with_reducible apply Kept.upd) | (with_reducible apply State.setLp_kept)

theorem State.ligRestore_kept {z s : State} (h : Kept z s) (p i : Nat) :
    Kept z (State.ligRestore s p i) := by
  unfold State.ligRestore
  try dsimp only
  repeat' first
    | (with_reducible assumption) | (intro _) | (simp only [kept_mk]; with_reducible apply Kept.upd)
    | (with_reducible apply State.memRead_kept) | (with_reducible apply State.memPoison_kept)
    | (with_reducible apply State.ligLineFault_kept) | (with_reducible apply State.ligTensorFault_kept)
    | (with_reducible apply State.ligWrite_kept) | (with_reducible apply State.ligBack_kept) | (with_reducible apply Kept.ite)
    | (dsimp only) | split | (refine Kept.ofFst (by assumption) ?_) | (refine Kept.ofSnd (by assumption) ?_)

theorem State.ligUndo_kept {z s : State} (h : Kept z s) (p : Nat) :
    Kept z (State.ligUndo s p) := by
  unfold State.ligUndo
  try dsimp only
  repeat' first
    | (with_reducible assumption) | (intro _) | (simp only [kept_mk]; with_reducible apply Kept.upd)
    | (with_reducible apply State.fsets_kept) | (with_reducible apply State.setLp_kept) | (with_reducible apply State.ligHeal_kept)
    | (with_reducible apply State.ligRestore_kept) | (with_reducible refine Kept.foldl ?_ (fun _ _ _ => ?_) _)
    | (with_reducible refine Kept.foldl1 ?_ (fun _ _ _ => ?_) _) | (with_reducible apply Kept.ite) | split

theorem State.ligBeginAll_kept {z s : State} (h : Kept z s) (p : Nat) :
    Kept z (State.ligBeginAll s p) := by
  unfold State.ligBeginAll
  try dsimp only
  repeat' first
    | (with_reducible assumption) | (intro _) | (with_reducible apply State.ligBegin_kept)
    | (with_reducible refine Kept.foldl ?_ (fun _ _ _ => ?_) _) | (with_reducible refine Kept.foldl1 ?_ (fun _ _ _ => ?_) _)

theorem State.ligRollback_kept {z s : State} (h : Kept z s) (p : Nat) :
    Kept z (State.ligRollback s p) := by
  unfold State.ligRollback
  try dsimp only
  repeat' first
    | (with_reducible assumption) | (with_reducible apply State.ligUndo_kept) | (with_reducible apply State.ligBeginAll_kept)
    | (with_reducible apply Kept.ite) | split

theorem State.ligFlag_kept {z s : State} (h : Kept z s) (p n : Nat) (nonfinite : Bool) :
    Kept z (State.ligFlag s p n nonfinite) := by
  unfold State.ligFlag
  try dsimp only
  repeat' first
    | (with_reducible assumption) | (simp only [kept_mk]; with_reducible apply Kept.upd) | (with_reducible apply State.fset_kept)
    | (with_reducible apply State.nonfinite_kept) | (with_reducible apply State.setLp_kept)
    | (with_reducible apply State.ligRunAll_kept) | (with_reducible apply State.ligIdle_kept)
    | (with_reducible apply State.ligRollback_kept) | (with_reducible apply Kept.ite) | split

theorem State.ligCommit_kept {z s : State} (h : Kept z s) (p : Nat) (fast : Bool) :
    Kept z (State.ligCommit s p fast) := by
  unfold State.ligCommit
  try dsimp only
  repeat' first
    | (with_reducible assumption) | (intro _) | (simp only [kept_mk]; with_reducible apply Kept.upd)
    | (with_reducible apply State.ligEntryEnd_kept) | (with_reducible apply State.ligEndStep_kept)
    | (with_reducible refine Kept.foldl ?_ (fun _ _ _ => ?_) _) | (with_reducible refine Kept.foldl1 ?_ (fun _ _ _ => ?_) _)
    | (with_reducible apply Kept.ite) | split

theorem State.ligSkipEnd_kept {z s : State} (h : Kept z s) (p : Nat) (fast : Bool) :
    Kept z (State.ligSkipEnd s p fast) := by
  unfold State.ligSkipEnd
  try dsimp only
  repeat' first
    | (with_reducible assumption) | (intro _) | (simp only [kept_mk]; with_reducible apply Kept.upd)
    | (with_reducible apply State.fset_kept) | (with_reducible apply State.fsat_kept) | (with_reducible apply State.setLp_kept)
    | (with_reducible apply State.noteEv_kept) | (with_reducible apply State.ligEntryEnd_kept)
    | (with_reducible apply State.ligEndStep_kept) | (with_reducible refine Kept.foldl ?_ (fun _ _ _ => ?_) _)
    | (with_reducible refine Kept.foldl1 ?_ (fun _ _ _ => ?_) _) | (with_reducible apply Kept.ite) | split

theorem State.slowRec_kept {z s : State} (h : Kept z s) (p list i : Nat) :
    Kept z (State.slowRec s p list i).1 := by
  unfold State.slowRec
  try dsimp only
  repeat' first
    | (with_reducible assumption) | (with_reducible apply State.memRead_kept) | (with_reducible apply Kept.ite)
    | (with_reducible apply Kept.ite1) | (with_reducible apply Kept.ite2) | (dsimp only) | split
    | (refine Kept.ofFst (by assumption) ?_) | (refine Kept.ofSnd (by assumption) ?_)

theorem State.slowList_kept {z s : State} (h : Kept z s) (p : Nat) (w : LSlow) :
    Kept z (State.slowList s p w).1 := by
  unfold State.slowList
  try dsimp only
  repeat' first
    | (with_reducible assumption) | (intro _) | (simp only [kept_mk]; with_reducible apply Kept.upd)
    | (with_reducible apply State.slowRec_kept) | (with_reducible refine Kept.foldl ?_ (fun _ _ _ => ?_) _)
    | (with_reducible refine Kept.foldl1 ?_ (fun _ _ _ => ?_) _) | (dsimp only) | split | (refine Kept.ofFst (by assumption) ?_)
    | (refine Kept.ofSnd (by assumption) ?_)

theorem State.slowPoison_kept {z s : State} (h : Kept z s) (p t n : Nat) :
    Kept z (State.slowPoison s p t n) := by
  unfold State.slowPoison
  try dsimp only
  repeat' first
    | (with_reducible assumption) | (intro _) | (with_reducible apply State.free_kept) | (with_reducible apply State.forceSkip_kept)
    | (with_reducible apply State.ligLineFault_kept) | (with_reducible refine Kept.foldl ?_ (fun _ _ _ => ?_) _)
    | (with_reducible refine Kept.foldl1 ?_ (fun _ _ _ => ?_) _) | (dsimp only) | split | (refine Kept.ofFst (by assumption) ?_)
    | (refine Kept.ofSnd (by assumption) ?_)

theorem State.slowRun_kept {z s : State} (h : Kept z s) (p : Nat) (u : LUpd) (recs : List (List Byte)) :
    Kept z (State.slowRun s p u recs).1 := by
  unfold State.slowRun
  try dsimp only
  repeat' first
    | (with_reducible assumption) | (intro _) | (simp only [kept_mk]; with_reducible apply Kept.upd)
    | (with_reducible apply State.setSp_kept) | (with_reducible apply State.demand_kept) | (with_reducible apply State.ligLine_kept)
    | (with_reducible apply State.ligFormNorm_kept) | (with_reducible refine Kept.foldl ?_ (fun _ _ _ => ?_) _)
    | (with_reducible refine Kept.foldl1 ?_ (fun _ _ _ => ?_) _) | (with_reducible apply Kept.ite) | (with_reducible apply Kept.ite1)
    | (with_reducible apply Kept.ite2) | (dsimp only) | split | (refine Kept.ofFst (by assumption) ?_)
    | (refine Kept.ofSnd (by assumption) ?_)

theorem State.slowOne_kept {z s : State} (h : Kept z s) (p j : Nat) (w : LSlow) :
    Kept z (State.slowOne p j s w) := by
  unfold State.slowOne
  try dsimp only
  repeat' first
    | (with_reducible assumption) | (intro _) | (simp only [kept_mk]; with_reducible apply Kept.upd)
    | (with_reducible apply State.setLp_kept) | (with_reducible apply State.ligTensorFault_kept)
    | (with_reducible apply State.ligEntry_kept) | (with_reducible apply State.ligSendSum_kept)
    | (with_reducible apply State.slowList_kept) | (with_reducible apply State.slowPoison_kept)
    | (with_reducible apply State.slowRun_kept) | (with_reducible apply Kept.ite) | (dsimp only) | split
    | (refine Kept.ofFst (by assumption) ?_) | (refine Kept.ofSnd (by assumption) ?_)

theorem State.slowStart_kept {z s : State} (h : Kept z s) (p : Nat) :
    Kept z (State.slowStart s p) := by
  unfold State.slowStart
  try dsimp only
  repeat' first
    | (with_reducible assumption) | (simp only [kept_mk]; with_reducible apply Kept.upd) | (with_reducible apply State.ligIdle_kept)
    | (with_reducible apply State.slowOne_kept) | (with_reducible refine Kept.foldl ?_ (fun _ _ _ => ?_) _)
    | (with_reducible refine Kept.foldl1 ?_ (fun _ _ _ => ?_) _) | (with_reducible apply Kept.ite) | split

theorem State.slowComplete_kept {z s : State} (h : Kept z s) (p : Nat) :
    Kept z (State.slowComplete s p) := by
  unfold State.slowComplete
  try dsimp only
  repeat' first
    | (with_reducible assumption) | (intro _) | (simp only [kept_mk]; with_reducible apply Kept.upd)
    | (with_reducible apply State.fset_kept) | (with_reducible apply State.setLp_kept) | (with_reducible apply State.ligIdle_kept)
    | (with_reducible apply State.ligEntryEnd_kept) | (with_reducible refine Kept.foldl ?_ (fun _ _ _ => ?_) _)
    | (with_reducible refine Kept.foldl1 ?_ (fun _ _ _ => ?_) _) | (with_reducible apply Kept.ite) | split

end Sys2Proof.Machine
end

