-- ==== Sys2Proof/Laws/KeptPlan.lean ====
section
/-!
SUPPORT. The operations of Machine/Plan.lean keep the fuses, the queue and the canonical form of the memories.
-/
namespace Sys2Proof.Machine

theorem State.sqPlan_kept {z s : State} (h : Kept z s) (p : Nat) :
    Kept z (State.sqPlan s p) := by
  unfold State.sqPlan
  try dsimp only
  repeat' first
    | (with_reducible assumption) | (intro _) | (simp only [kept_mk]; with_reducible apply Kept.upd)
    | (with_reducible apply State.fset_kept) | (with_reducible apply State.noteEv_kept) | (with_reducible apply State.memPut_kept)
    | (with_reducible apply Kept.ite) | (dsimp only) | split | (refine Kept.ofFst (by assumption) ?_)
    | (refine Kept.ofSnd (by assumption) ?_)

end Sys2Proof.Machine
end

