-- ==== Sys2Proof/Laws/KeptClocks.lean ====
section
/-!
SUPPORT. The operations of Machine/Clocks.lean keep the fuses, the queue and the canonical form of the memories.
-/
namespace Sys2Proof.Machine

theorem State.srcFail_kept {z s : State} (h : Kept z s)  :
    Kept z (State.srcFail s) := by
  unfold State.srcFail
  try dsimp only
  repeat' first
    | (with_reducible assumption) | (simp only [kept_mk]; with_reducible apply Kept.upd) | (with_reducible apply State.fset_kept)
    | (with_reducible apply State.allEv_kept)

theorem State.srcRevert_kept {z s : State} (h : Kept z s)  :
    Kept z (State.srcRevert s) := by
  unfold State.srcRevert
  try dsimp only
  repeat' first
    | (with_reducible assumption) | (simp only [kept_mk]; with_reducible apply Kept.upd) | (with_reducible apply State.devEv_kept)
    | (with_reducible apply Kept.ite) | split

theorem State.refFails_kept {z s : State} (h : Kept z s)  :
    Kept z (State.refFails s) := by
  unfold State.refFails
  try dsimp only
  repeat' first
    | (with_reducible assumption) | (simp only [kept_mk]; with_reducible apply Kept.upd) | (with_reducible apply State.fset_kept)

theorem State.recFails_kept {z s : State} (h : Kept z s)  :
    Kept z (State.recFails s) := by
  unfold State.recFails
  try dsimp only
  repeat' first
    | (with_reducible assumption) | (simp only [kept_mk]; with_reducible apply Kept.upd) | (with_reducible apply State.fset_kept)

theorem State.afterCheck_kept {z s : State} (h : Kept z s) (before : State) :
    Kept z (State.afterCheck before s) := by
  unfold State.afterCheck
  try dsimp only
  repeat' first
    | (with_reducible assumption) | (simp only [kept_mk]; with_reducible apply Kept.upd) | (with_reducible apply State.fset_kept)
    | (with_reducible apply State.srcFail_kept) | (with_reducible apply Kept.ite) | split

theorem State.refGoodWin_kept {z s : State} (h : Kept z s)  :
    Kept z (State.refGoodWin s) := by
  unfold State.refGoodWin
  try dsimp only
  repeat' first
    | (with_reducible assumption) | (simp only [kept_mk]; with_reducible apply Kept.upd) | (with_reducible apply State.fset_kept)
    | (with_reducible apply Kept.ite) | split

theorem State.recGoodWin_kept {z s : State} (h : Kept z s)  :
    Kept z (State.recGoodWin s) := by
  unfold State.recGoodWin
  try dsimp only
  repeat' first
    | (with_reducible assumption) | (simp only [kept_mk]; with_reducible apply Kept.upd) | (with_reducible apply State.fset_kept)
    | (with_reducible apply Kept.ite) | split

theorem State.windowEnd_kept {z s : State} (h : Kept z s) (ref rec_ : Nat) :
    Kept z (State.windowEnd s ref rec_) := by
  unfold State.windowEnd
  try dsimp only
  repeat' first
    | (with_reducible assumption) | (intro _) | (simp only [kept_mk]; with_reducible apply Kept.upd)
    | (with_reducible apply State.fset_kept) | (with_reducible apply State.allEv_kept) | (with_reducible apply State.srcRevert_kept)
    | (with_reducible apply State.refFails_kept) | (with_reducible apply State.recFails_kept)
    | (with_reducible apply State.afterCheck_kept) | (with_reducible apply State.refGoodWin_kept)
    | (with_reducible apply State.recGoodWin_kept) | (with_reducible apply Kept.ite) | split

theorem State.missingEdge_kept {z s : State} (h : Kept z s) (c : Nat) :
    Kept z (State.missingEdge s c) := by
  unfold State.missingEdge
  try dsimp only
  repeat' first
    | (with_reducible assumption) | (simp only [kept_mk]; with_reducible apply Kept.upd) | (with_reducible apply State.refFails_kept)
    | (with_reducible apply State.recFails_kept) | (with_reducible apply State.afterCheck_kept) | (with_reducible apply Kept.ite)
    | split

theorem State.relockDone_kept {z s : State} (h : Kept z s)  :
    Kept z (State.relockDone s) := by
  unfold State.relockDone
  try dsimp only
  repeat' first
    | (with_reducible assumption) | (simp only [kept_mk]; with_reducible apply Kept.upd) | (with_reducible apply State.fsat_kept)
    | (with_reducible apply State.fsets_kept) | (with_reducible apply State.srcFail_kept)
    | (with_reducible apply State.srcRevert_kept) | (with_reducible apply Kept.ite) | split

theorem State.firstLock_kept {z s : State} (h : Kept z s)  :
    Kept z (State.firstLock s) := by
  unfold State.firstLock
  repeat' first
    | (with_reducible assumption) | (with_reducible apply State.fsets_kept)

theorem State.kStep_kept {z s : State} (h : Kept z s)  :
    Kept z (State.kStep s) := by
  unfold State.kStep
  try dsimp only
  repeat' first
    | (with_reducible assumption) | (with_reducible apply State.fset_kept) | (with_reducible apply Kept.ite) | split

theorem State.setTarget_kept {z s : State} (h : Kept z s) (k : Nat) :
    Kept z (State.setTarget s k) := by
  unfold State.setTarget
  repeat' first
    | (with_reducible assumption) | (with_reducible apply State.fset_kept)

theorem State.arithLimit_kept {z s : State} (h : Kept z s) (v : Nat) :
    Kept z (State.arithLimit s v) := by
  unfold State.arithLimit
  try dsimp only
  repeat' first
    | (with_reducible assumption) | (with_reducible apply State.fsets_kept) | (with_reducible apply State.setTarget_kept)
    | (with_reducible apply Kept.ite) | split

end Sys2Proof.Machine
end

