-- ==== Sys2Proof/Laws/KeptEvents.lean ====
section
/-!
SUPPORT. The operations of Machine/Events.lean keep the fuses, the queue and the canonical form of the memories.
-/
namespace Sys2Proof.Machine

theorem State.logFlush_kept {z s : State} (h : Kept z s)  :
    Kept z (State.logFlush s) := by
  unfold State.logFlush
  try dsimp only
  repeat' first
    | (with_reducible assumption) | (simp only [kept_mk]; with_reducible apply Kept.upd)

theorem State.logClose_kept {z s : State} (h : Kept z s)  :
    Kept z (State.logClose s) := by
  unfold State.logClose
  try dsimp only
  repeat' first
    | (with_reducible assumption) | (simp only [kept_mk]; with_reducible apply Kept.upd) | split

theorem State.logPut_kept {z s : State} (h : Kept z s) (flash : Bool) (role cred op status : Nat) (arg : List Byte) :
    Kept z (State.logPut s flash role cred op status arg) := by
  unfold State.logPut
  try dsimp only
  repeat' first
    | (with_reducible assumption) | (simp only [kept_mk]; with_reducible apply Kept.upd) | (with_reducible apply State.logFlush_kept)
    | (with_reducible apply State.logClose_kept) | (with_reducible apply Kept.ite) | split

theorem State.logDevice_kept {z s : State} (h : Kept z s) (op status : Nat) (arg : List Byte) :
    Kept z (State.logDevice s op status arg) := by
  unfold State.logDevice
  repeat' first
    | (with_reducible assumption) | (with_reducible apply State.logPut_kept)

theorem State.logOwn_kept {z s : State} (h : Kept z s) (what : Nat) (arg : List Byte) :
    Kept z (State.logOwn s what arg) := by
  unfold State.logOwn
  repeat' first
    | (with_reducible assumption) | (with_reducible apply State.logDevice_kept)

theorem State.recordPut_kept {z s : State} (h : Kept z s) (r : List Byte) :
    Kept z (State.recordPut s r) := by
  unfold State.recordPut
  try dsimp only
  repeat' first
    | (with_reducible assumption) | (simp only [kept_mk]; with_reducible apply Kept.upd)

theorem State.recordsOut_kept {z s : State} (h : Kept z s)  :
    Kept z (State.recordsOut s) := by
  unfold State.recordsOut
  try dsimp only
  repeat' first
    | (with_reducible assumption) | (simp only [kept_mk]; with_reducible apply Kept.upd) | (with_reducible apply State.recordPut_kept)
    | (with_reducible refine Kept.foldl ?_ (fun _ _ _ => ?_) _) | (with_reducible refine Kept.foldl1 ?_ (fun _ _ _ => ?_) _)

theorem State.writeFails_kept {z s : State} (h : Kept z s)  :
    Kept z (State.writeFails s) := by
  unfold State.writeFails
  try dsimp only
  repeat' first
    | (with_reducible assumption) | (simp only [kept_mk]; with_reducible apply Kept.upd) | (with_reducible apply State.fset_kept)
    | (with_reducible apply State.devEv_kept)

theorem State.snapshot_kept {z s : State} (h : Kept z s) (reason : Nat) (ok : Bool) :
    Kept z (State.snapshot s reason ok) := by
  unfold State.snapshot
  try dsimp only
  repeat' first
    | (with_reducible assumption) | (simp only [kept_mk]; with_reducible apply Kept.upd) | (with_reducible apply State.fset_kept)
    | (with_reducible apply State.recordsOut_kept) | (with_reducible apply State.writeFails_kept) | (with_reducible apply Kept.ite)
    | split

theorem State.snapDue_kept {z s : State} (h : Kept z s) (reason : Nat) :
    Kept z (State.snapDue s reason) := by
  unfold State.snapDue
  try dsimp only
  repeat' first
    | (with_reducible assumption) | (simp only [kept_mk]; with_reducible apply Kept.upd)

theorem State.ledFact_kept {z s : State} (h : Kept z s) (led : Ledger) :
    Kept z (State.ledFact s led) := by
  unfold State.ledFact
  try dsimp only
  repeat' first
    | (with_reducible assumption) | (simp only [kept_mk]; with_reducible apply Kept.upd) | (with_reducible apply State.snapDue_kept)

theorem State.ledgerSnapshot_kept {z s : State} (h : Kept z s) (ok : Bool) :
    Kept z (State.ledgerSnapshot s ok) := by
  unfold State.ledgerSnapshot
  try dsimp only
  repeat' first
    | (with_reducible assumption) | (simp only [kept_mk]; with_reducible apply Kept.upd) | (with_reducible apply State.snapshot_kept)
    | split

theorem State.ledgerRetry_kept {z s : State} (h : Kept z s) (ok : Bool) :
    Kept z (State.ledgerRetry s ok) := by
  unfold State.ledgerRetry
  try dsimp only
  repeat' first
    | (with_reducible assumption) | (simp only [kept_mk]; with_reducible apply Kept.upd) | (with_reducible apply State.snapshot_kept)
    | split

theorem State.faultRecord_kept {z s : State} (h : Kept z s) (ev : List Byte) :
    Kept z (State.faultRecord s ev) := by
  unfold State.faultRecord
  try dsimp only
  repeat' first
    | (with_reducible assumption) | (simp only [kept_mk]; with_reducible apply Kept.upd) | (with_reducible apply State.fset_kept)
    | (with_reducible apply State.recordPut_kept) | (with_reducible apply Kept.ite) | split

theorem State.evtIrq_kept {z s : State} (h : Kept z s) (p : Nat) :
    Kept z (State.evtIrq s p) := by
  unfold State.evtIrq
  try dsimp only
  repeat' first
    | (with_reducible assumption) | (simp only [kept_mk]; with_reducible apply Kept.upd) | (with_reducible apply State.msix_kept)
    | (with_reducible apply Kept.ite) | split

theorem State.evtRing_kept {z s : State} (h : Kept z s) (p : Nat) (e : Ev) (detail : Nat) :
    Kept z (State.evtRing s p e detail) := by
  unfold State.evtRing
  try dsimp only
  repeat' first
    | (with_reducible assumption) | (simp only [kept_mk]; with_reducible apply Kept.upd) | (with_reducible apply State.fset_kept)
    | (with_reducible apply State.fsat_kept) | (with_reducible apply State.memWrite_kept) | (with_reducible apply State.broke_kept)
    | (with_reducible apply Kept.ite) | (dsimp only) | split | (refine Kept.ofFst (by assumption) ?_)
    | (refine Kept.ofSnd (by assumption) ?_)

theorem State.pennantSend_kept {z s : State} (h : Kept z s) (p : Nat) (e : Ev) (detail : Nat) :
    Kept z (State.pennantSend s p e detail) := by
  unfold State.pennantSend
  try dsimp only
  repeat' first
    | (with_reducible assumption) | (simp only [kept_mk]; with_reducible apply Kept.upd) | (with_reducible apply State.zSend_kept)
    | (with_reducible apply Kept.ite) | split

theorem State.evtPart_kept {z s : State} (h : Kept z s) (e : Ev) (d : Nat × Nat) :
    Kept z (State.evtPart e s d) := by
  unfold State.evtPart
  try dsimp only
  repeat' first
    | (with_reducible assumption) | (with_reducible apply State.fset_kept) | (with_reducible apply State.evtIrq_kept)
    | (with_reducible apply State.evtRing_kept) | (with_reducible apply State.pennantSend_kept) | (with_reducible apply Kept.ite)
    | split

theorem State.evtNmi_kept {z s : State} (h : Kept z s) (e : Ev) :
    Kept z (State.evtNmi e s) := by
  unfold State.evtNmi
  try dsimp only
  repeat' first
    | (with_reducible assumption) | (intro _) | (with_reducible apply State.evtIrq_kept) | (with_reducible apply State.evtPart_kept)
    | (with_reducible refine Kept.foldl ?_ (fun _ _ _ => ?_) _) | (with_reducible refine Kept.foldl1 ?_ (fun _ _ _ => ?_) _)
    | (with_reducible apply Kept.ite) | split

theorem State.evtMgmt_kept {z s : State} (h : Kept z s) (e : Ev) (mask : Nat) :
    Kept z (State.evtMgmt s e mask) := by
  unfold State.evtMgmt
  try dsimp only
  repeat' first
    | (with_reducible assumption) | (intro _) | (with_reducible apply State.emit_kept)
    | (with_reducible refine Kept.foldl ?_ (fun _ _ _ => ?_) _) | (with_reducible refine Kept.foldl1 ?_ (fun _ _ _ => ?_) _)
    | (with_reducible apply Kept.ite) | split

theorem State.deliverEv_kept {z s : State} (h : Kept z s) (e : Ev) :
    Kept z (State.deliverEv s e) := by
  unfold State.deliverEv
  try dsimp only
  repeat' first
    | (with_reducible assumption) | (with_reducible apply State.faultRecord_kept) | (with_reducible apply State.evtPart_kept)
    | (with_reducible apply State.evtNmi_kept) | (with_reducible apply State.evtMgmt_kept)
    | (with_reducible refine Kept.foldl ?_ (fun _ _ _ => ?_) _) | (with_reducible refine Kept.foldl1 ?_ (fun _ _ _ => ?_) _)
    | (with_reducible apply Kept.ite) | split

theorem State.deliver_kept {z s : State} (h : Kept z s)  :
    Kept z (State.deliver s) := by
  unfold State.deliver
  try dsimp only
  repeat' first
    | (with_reducible assumption) | (simp only [kept_mk]; with_reducible apply Kept.upd) | (with_reducible apply State.deliverEv_kept)
    | split

theorem State.goFatal_kept {z s : State} (h : Kept z s) (cause : Nat) :
    Kept z (State.goFatal s cause) := by
  unfold State.goFatal
  try dsimp only
  repeat' first
    | (with_reducible assumption) | (simp only [kept_mk]; with_reducible apply Kept.upd) | (with_reducible apply State.fsets_kept)
    | (with_reducible apply State.allEv_kept) | (with_reducible apply State.snapDue_kept) | (with_reducible apply Kept.ite) | split

theorem State.conflict_kept {z s : State} (h : Kept z s)  :
    Kept z (State.conflict s) := by
  unfold State.conflict
  repeat' first
    | (with_reducible assumption) | (with_reducible apply State.devEv_kept) | (with_reducible apply State.logOwn_kept)

theorem State.adminTile_kept {z s : State} (h : Kept z s) (n v : Nat) :
    Kept z (State.adminTile s n v) := by
  unfold State.adminTile
  try dsimp only
  repeat' first
    | (with_reducible assumption) | (intro _) | (with_reducible apply State.fset_kept) | (with_reducible apply State.conflict_kept)
    | (with_reducible refine Kept.foldl ?_ (fun _ _ _ => ?_) _) | (with_reducible refine Kept.foldl1 ?_ (fun _ _ _ => ?_) _)
    | (with_reducible apply Kept.ite) | split

theorem State.adminUnit_kept {z s : State} (h : Kept z s) (v : Nat) :
    Kept z (State.adminUnit s v) := by
  unfold State.adminUnit
  try dsimp only
  repeat' first
    | (with_reducible assumption) | (intro _) | (with_reducible apply State.fsets_kept) | (with_reducible apply State.conflict_kept)
    | (with_reducible refine Kept.foldl ?_ (fun _ _ _ => ?_) _) | (with_reducible refine Kept.foldl1 ?_ (fun _ _ _ => ?_) _)
    | (with_reducible apply Kept.ite) | split

end Sys2Proof.Machine
end

