-- ==== Sys2Proof/Laws/KeptSched.lean ====
section
/-!
SUPPORT. The operations of Machine/Sched.lean keep the fuses, the queue and the canonical form of the memories.
-/
namespace Sys2Proof.Machine

theorem State.modelSee_kept {z s : State} (h : Kept z s) (p m : Nat) :
    Kept z (State.modelSee s p m) := by
  unfold State.modelSee
  repeat' first
    | (with_reducible assumption) | (with_reducible apply State.memSee_kept)

theorem State.setModel_kept {z s : State} (h : Kept z s) (p m st : Nat) (dev : Option Nat) :
    Kept z (State.setModel s p m st dev) := by
  unfold State.setModel
  try dsimp only
  repeat' first
    | (with_reducible assumption) | (simp only [kept_mk]; with_reducible apply Kept.upd) | (with_reducible apply State.memPut_kept)
    | split

theorem State.modelRoom_kept {z s : State} (h : Kept z s) (p n k : Nat) : Kept z (State.modelRoom p n k s) := by
  induction k generalizing s with
  | zero => exact h
  | succ k ih =>
    rw [State.modelRoom]
    cases s.modelVictim p n
    · exact h
    · exact ih (State.setModel_kept h _ _ _ _)

theorem State.modelShared_kept {z s : State} (h : Kept z s) (p m : Nat) (e : List Byte) :
    Kept z (State.modelShared s p m e) := by
  unfold State.modelShared
  try dsimp only
  repeat' first
    | (with_reducible assumption) | (with_reducible apply State.setModel_kept) | (with_reducible apply Kept.ite) | split

theorem State.modelStart_kept {z s : State} (h : Kept z s) (p m : Nat) :
    Kept z (State.modelStart s p m) := by
  unfold State.modelStart
  try dsimp only
  repeat' first
    | (with_reducible assumption) | (simp only [kept_mk]; with_reducible apply Kept.upd) | (with_reducible apply State.modelSee_kept)
    | (with_reducible apply State.setModel_kept) | (with_reducible apply State.modelRoom_kept)
    | (with_reducible apply State.modelShared_kept) | (with_reducible apply Kept.ite) | split

theorem State.modelsWant_kept {z s : State} (h : Kept z s) (p : Nat) :
    Kept z (State.modelsWant s p) := by
  unfold State.modelsWant
  try dsimp only
  repeat' first
    | (with_reducible assumption) | (intro _) | (with_reducible apply State.modelStart_kept)
    | (with_reducible refine Kept.foldl ?_ (fun _ _ _ => ?_) _) | (with_reducible refine Kept.foldl1 ?_ (fun _ _ _ => ?_) _)
    | (with_reducible apply Kept.ite) | split

theorem State.modelDone_kept {z s : State} (h : Kept z s) (p m : Nat) :
    Kept z (State.modelDone s p m) := by
  unfold State.modelDone
  try dsimp only
  repeat' first
    | (with_reducible assumption) | (with_reducible apply State.memPut_kept) | (with_reducible apply State.modelSee_kept)
    | (with_reducible apply State.setModel_kept) | (with_reducible apply State.modelsWant_kept) | (with_reducible apply Kept.ite)
    | split

theorem State.setPage_kept {z s : State} (h : Kept z s) (p g v : Nat) :
    Kept z (State.setPage s p g v) := by
  unfold State.setPage
  repeat' first
    | (with_reducible assumption) | (with_reducible apply State.memPut_kept)

theorem State.pageBack_kept {z s : State} (h : Kept z s) (p f g : Nat) :
    Kept z (State.pageBack s p f g) := by
  unfold State.pageBack
  try dsimp only
  repeat' first
    | (with_reducible assumption) | (with_reducible apply State.memRead_kept) | (with_reducible apply State.broke_kept)
    | (with_reducible apply State.hostWrite_kept) | (dsimp only) | (refine Kept.ofFst (by assumption) ?_)
    | (refine Kept.ofSnd (by assumption) ?_)

theorem State.pageOut_kept {z s : State} (h : Kept z s) (p f : Nat) :
    Kept z (State.pageOut s p f) := by
  unfold State.pageOut
  try dsimp only
  repeat' first
    | (with_reducible assumption) | (simp only [kept_mk]; with_reducible apply Kept.upd) | (with_reducible apply State.setSp_kept)
    | (with_reducible apply State.readEntry_kept) | (with_reducible apply State.setPage_kept)
    | (with_reducible apply State.pageBack_kept) | (with_reducible apply Kept.ite) | split

theorem State.pageIn_kept {z s : State} (h : Kept z s) (p g : Nat) :
    Kept z (State.pageIn s p g) := by
  unfold State.pageIn
  try dsimp only
  repeat' first
    | (with_reducible assumption) | (simp only [kept_mk]; with_reducible apply Kept.upd) | (with_reducible apply State.fset_kept)
    | (with_reducible apply State.setSp_kept) | (with_reducible apply State.readEntry_kept)
    | (with_reducible apply State.setPage_kept) | (with_reducible apply State.pageOut_kept) | (with_reducible apply Kept.ite)
    | split

theorem State.pagesWant_kept {z s : State} (h : Kept z s) (p : Nat) :
    Kept z (State.pagesWant s p) := by
  unfold State.pagesWant
  try dsimp only
  repeat' first
    | (with_reducible assumption) | (intro _) | (with_reducible apply State.pageIn_kept)
    | (with_reducible refine Kept.foldl ?_ (fun _ _ _ => ?_) _) | (with_reducible refine Kept.foldl1 ?_ (fun _ _ _ => ?_) _)
    | (with_reducible apply Kept.ite) | split

theorem State.poisonFrame_kept {z s : State} (h : Kept z s) (p a : Nat) :
    Kept z (State.poisonFrame s p a) := by
  unfold State.poisonFrame
  try dsimp only
  repeat' first
    | (with_reducible assumption) | (intro _) | (with_reducible apply State.memPoison_kept)
    | (with_reducible refine Kept.foldl ?_ (fun _ _ _ => ?_) _) | (with_reducible refine Kept.foldl1 ?_ (fun _ _ _ => ?_) _)

theorem State.pageDone_kept {z s : State} (h : Kept z s) (p g : Nat) :
    Kept z (State.pageDone s p g) := by
  unfold State.pageDone
  try dsimp only
  repeat' first
    | (with_reducible assumption) | (intro _) | (simp only [kept_mk]; with_reducible apply Kept.upd)
    | (with_reducible apply State.fsat_kept) | (with_reducible apply State.setSp_kept) | (with_reducible apply State.memPut_kept)
    | (with_reducible apply State.demand_kept) | (with_reducible apply State.blResume_kept)
    | (with_reducible apply State.setPage_kept) | (with_reducible apply State.pagesWant_kept)
    | (with_reducible apply State.poisonFrame_kept) | (with_reducible refine Kept.foldl ?_ (fun _ _ _ => ?_) _)
    | (with_reducible refine Kept.foldl1 ?_ (fun _ _ _ => ?_) _) | (with_reducible apply Kept.ite) | split

theorem State.demandFault_kept {z s : State} (h : Kept z s) (p t g : Nat) :
    Kept z (State.demandFault s p t g) := by
  unfold State.demandFault
  try dsimp only
  repeat' first
    | (with_reducible assumption) | (simp only [kept_mk]; with_reducible apply Kept.upd) | (with_reducible apply State.fsat_kept)
    | (with_reducible apply State.setSp_kept) | (with_reducible apply State.demand_kept) | (with_reducible apply State.pageIn_kept)
    | (with_reducible apply Kept.ite) | split

theorem State.taskReject_kept {z s : State} (h : Kept z s) (p code : Nat) (d : TaskDesc) :
    Kept z (State.taskReject s p code d) := by
  unfold State.taskReject
  try dsimp only
  repeat' first
    | (with_reducible assumption) | (with_reducible apply State.recErr_kept) | (with_reducible apply State.cplPut_kept)

theorem State.pin_kept {z s : State} (h : Kept z s) (p : Nat) (rcd : List Byte) (up : Bool) :
    Kept z (State.pin s p rcd up) := by
  unfold State.pin
  try dsimp only
  repeat' first
    | (with_reducible assumption) | (intro _) | (simp only [kept_mk]; with_reducible apply Kept.upd)
    | (with_reducible apply State.setSp_kept) | (with_reducible refine Kept.foldl ?_ (fun _ _ _ => ?_) _)
    | (with_reducible refine Kept.foldl1 ?_ (fun _ _ _ => ?_) _) | (with_reducible apply Kept.ite) | split

theorem State.taskTake_kept {z s : State} (h : Kept z s) (p src arr entry : Nat) (b : List Byte) :
    Kept z (State.taskTake s p src arr entry b) := by
  unfold State.taskTake
  try dsimp only
  repeat' first
    | (with_reducible assumption) | (intro _) | (simp only [kept_mk]; with_reducible apply Kept.upd)
    | (with_reducible apply State.setSp_kept) | (with_reducible apply State.memSee_kept) | (with_reducible apply State.forceSkip_kept)
    | (with_reducible apply State.cplPut_kept) | (with_reducible apply State.modelsWant_kept)
    | (with_reducible apply State.pagesWant_kept) | (with_reducible apply State.taskReject_kept)
    | (with_reducible apply State.pin_kept) | (with_reducible refine Kept.foldl ?_ (fun _ _ _ => ?_) _)
    | (with_reducible refine Kept.foldl1 ?_ (fun _ _ _ => ?_) _) | (with_reducible apply Kept.ite) | (dsimp only) | split
    | (refine Kept.ofFst (by assumption) ?_) | (refine Kept.ofSnd (by assumption) ?_)

theorem State.taskFetch_kept {z s : State} (h : Kept z s) (p : Nat) :
    Kept z (State.taskFetch s p) := by
  unfold State.taskFetch
  try dsimp only
  repeat' first
    | (with_reducible assumption) | (simp only [kept_mk]; with_reducible apply Kept.upd) | (with_reducible apply State.setSp_kept)
    | (with_reducible apply State.taskTake_kept) | (with_reducible apply Kept.ite) | split

theorem State.setTask_kept {z s : State} (h : Kept z s) (p a : Nat) (k : Task) :
    Kept z (State.setTask s p a k) := by
  unfold State.setTask
  try dsimp only
  repeat' first
    | (with_reducible assumption) | (simp only [kept_mk]; with_reducible apply Kept.upd) | (with_reducible apply State.setSp_kept)

theorem State.modTask_kept {z s : State} (h : Kept z s) (p a : Nat) (f : Task → Task) :
    Kept z (State.modTask s p a f) := by
  unfold State.modTask
  try dsimp only
  repeat' first
    | (with_reducible assumption) | (simp only [kept_mk]; with_reducible apply Kept.upd) | (with_reducible apply State.setSp_kept)

theorem State.stopTile_kept {z s : State} (h : Kept z s) (t : Nat) :
    Kept z (State.stopTile s t) := by
  unfold State.stopTile
  try dsimp only
  repeat' first
    | (with_reducible assumption) | (intro _) | (with_reducible apply State.fset_kept) | (with_reducible apply State.ringAbort_kept)
    | (with_reducible refine Kept.foldl ?_ (fun _ _ _ => ?_) _) | (with_reducible refine Kept.foldl1 ?_ (fun _ _ _ => ?_) _)

theorem State.taskEnd_kept {z s : State} (h : Kept z s) (p a status tile unit code : Nat) (k : Task) :
    Kept z (State.taskEnd s p a status tile unit code k) := by
  unfold State.taskEnd
  try dsimp only
  repeat' first
    | (with_reducible assumption) | (intro _) | (simp only [kept_mk]; with_reducible apply Kept.upd)
    | (with_reducible apply State.setTile_kept) | (with_reducible apply State.setSp_kept) | (with_reducible apply State.setHp_kept)
    | (with_reducible apply State.sigAdd_kept) | (with_reducible apply State.sqEntryDone_kept)
    | (with_reducible apply State.cplPut_kept) | (with_reducible apply State.blKick_kept) | (with_reducible apply State.pin_kept)
    | (with_reducible apply State.stopTile_kept) | (with_reducible refine Kept.foldl ?_ (fun _ _ _ => ?_) _)
    | (with_reducible refine Kept.foldl1 ?_ (fun _ _ _ => ?_) _) | (with_reducible apply Kept.ite) | split

theorem State.taskPoisoned_kept {z s : State} (h : Kept z s) (p a addr : Nat) (k : Task) :
    Kept z (State.taskPoisoned s p a addr k) := by
  unfold State.taskPoisoned
  try dsimp only
  repeat' first
    | (with_reducible assumption) | (simp only [kept_mk]; with_reducible apply Kept.upd) | (with_reducible apply State.setHp_kept)
    | (with_reducible apply State.forceSkip_kept) | (with_reducible apply State.setTask_kept)
    | (with_reducible apply State.stopTile_kept) | (with_reducible apply State.taskEnd_kept)
    | (with_reducible refine Kept.foldl ?_ (fun _ _ _ => ?_) _) | (with_reducible refine Kept.foldl1 ?_ (fun _ _ _ => ?_) _)
    | (with_reducible apply Kept.ite) | split

theorem State.taskComplete_kept {z s : State} (h : Kept z s) (p a : Nat) :
    Kept z (State.taskComplete s p a) := by
  unfold State.taskComplete
  try dsimp only
  repeat' first
    | (with_reducible assumption) | (simp only [kept_mk]; with_reducible apply Kept.upd) | (with_reducible apply State.taskEnd_kept)
    | (with_reducible apply State.taskPoisoned_kept) | (with_reducible apply Kept.ite) | split

theorem State.taskReady_kept {z s : State} (h : Kept z s) (p a : Nat) :
    Kept z (State.taskReady s p a) := by
  unfold State.taskReady
  try dsimp only
  repeat' first
    | (with_reducible assumption) | (intro _) | (simp only [kept_mk]; with_reducible apply Kept.upd)
    | (with_reducible apply State.fset_kept) | (with_reducible apply State.readEntry_kept)
    | (with_reducible apply State.modelSee_kept) | (with_reducible apply State.setTask_kept)
    | (with_reducible apply State.taskEnd_kept) | (with_reducible refine Kept.foldl ?_ (fun _ _ _ => ?_) _)
    | (with_reducible refine Kept.foldl1 ?_ (fun _ _ _ => ?_) _) | (with_reducible apply Kept.ite) | split

theorem State.taskRetry_kept {z s : State} (h : Kept z s) (p a : Nat) :
    Kept z (State.taskRetry s p a) := by
  unfold State.taskRetry
  try dsimp only
  repeat' first
    | (with_reducible assumption) | (simp only [kept_mk]; with_reducible apply Kept.upd) | (with_reducible apply State.setTask_kept)
    | (with_reducible apply Kept.ite) | split

theorem State.loadPage_kept {z s : State} (h : Kept z s) (p t : Nat) (e : PageE) (src step : Nat) :
    Kept z (State.loadPage s p t e src step) := by
  unfold State.loadPage
  try dsimp only
  repeat' first
    | (with_reducible assumption) | (simp only [kept_mk]; with_reducible apply Kept.upd) | (with_reducible apply State.setTile_kept)
    | (with_reducible apply State.inkWrite_kept) | (with_reducible apply State.memRead_kept) | (with_reducible apply Kept.ite)
    | (dsimp only) | split | (refine Kept.ofFst (by assumption) ?_) | (refine Kept.ofSnd (by assumption) ?_)

theorem State.onePage_kept {z : State} (p t r : Nat) (k : Task) (hits : List Nat) {a : State × List Nat × List Nat} (e : PageE) (h : Kept z a.1) :
    Kept z (State.onePage p t r k hits a e).1 := by
  unfold State.onePage
  try dsimp only
  repeat' first
    | (with_reducible assumption) | (intro _) | (simp only [kept_mk]; with_reducible apply Kept.upd)
    | (with_reducible apply State.setTile_kept) | (with_reducible apply State.inkWrite_kept)
    | (with_reducible apply State.loadPage_kept) | (with_reducible apply Kept.ite) | (with_reducible apply Kept.ite1)
    | (with_reducible apply Kept.ite2) | (dsimp only) | split | (refine Kept.ofFst (by assumption) ?_)
    | (refine Kept.ofSnd (by assumption) ?_)

theorem State.loadPages_kept {z s : State} (h : Kept z s) (p t r : Nat) (k : Task) (hits : List Nat) :
    Kept z (State.loadPages s p t r k hits).1 := by
  unfold State.loadPages
  repeat' first
    | (with_reducible assumption) | (with_reducible apply State.onePage_kept)
    | (with_reducible refine Kept.foldl ?_ (fun _ _ _ => ?_) _) | (with_reducible refine Kept.foldl1 ?_ (fun _ _ _ => ?_) _)
    | (dsimp only) | (refine Kept.ofFst (by assumption) ?_) | (refine Kept.ofSnd (by assumption) ?_)

theorem State.ringStart_kept {z s : State} (h : Kept z s) (t : Nat) (rcd : List Byte) :
    Kept z (State.ringStart s t rcd) := by
  unfold State.ringStart
  try dsimp only
  repeat' first
    | (with_reducible assumption) | (intro _) | (with_reducible apply State.fset_kept) | (with_reducible apply State.ringTail_kept)
    | (dsimp only) | split | (refine Kept.ofFst (by assumption) ?_) | (refine Kept.ofSnd (by assumption) ?_)

theorem State.startRings_kept {z s : State} (h : Kept z s) (p a : Nat) (k : Task) (done : NSet) :
    Kept z (State.startRings s p a k done) := by
  unfold State.startRings
  try dsimp only
  repeat' first
    | (with_reducible assumption) | (intro _) | (simp only [kept_mk]; with_reducible apply Kept.upd)
    | (with_reducible apply State.modTask_kept) | (with_reducible apply State.ringStart_kept)
    | (with_reducible refine Kept.foldl ?_ (fun _ _ _ => ?_) _) | (with_reducible refine Kept.foldl1 ?_ (fun _ _ _ => ?_) _)

theorem State.loadsDone_kept {z s : State} (h : Kept z s) (t : Nat) :
    Kept z (State.loadsDone s t) := by
  unfold State.loadsDone
  try dsimp only
  repeat' first
    | (with_reducible assumption) | (intro _) | (simp only [kept_mk]; with_reducible apply Kept.upd)
    | (with_reducible apply State.setTile_kept) | (with_reducible apply State.inkWrite_kept) | (with_reducible apply State.stray_kept)
    | (with_reducible apply State.setTask_kept) | (with_reducible apply State.modTask_kept)
    | (with_reducible apply State.loadPages_kept) | (with_reducible apply State.startRings_kept)
    | (with_reducible refine Kept.foldl ?_ (fun _ _ _ => ?_) _) | (with_reducible refine Kept.foldl1 ?_ (fun _ _ _ => ?_) _)
    | (with_reducible apply Kept.ite) | (dsimp only) | split | (refine Kept.ofFst (by assumption) ?_)
    | (refine Kept.ofSnd (by assumption) ?_)

theorem State.earlyMet_kept {z s : State} (h : Kept z s) (p a : Nat) :
    Kept z (State.earlyMet s p a) := by
  unfold State.earlyMet
  try dsimp only
  repeat' first
    | (with_reducible assumption) | (intro _) | (simp only [kept_mk]; with_reducible apply Kept.upd)
    | (with_reducible apply State.modTask_kept) | (with_reducible apply State.startRings_kept) | (with_reducible apply Kept.ite)
    | split

theorem State.slotRegions_kept {z s : State} (h : Kept z s) (t : Nat) (d : TaskDesc) :
    Kept z (State.slotRegions s t d) := by
  unfold State.slotRegions
  try dsimp only
  repeat' first
    | (with_reducible assumption) | (intro _) | (with_reducible apply State.fset_kept) | (with_reducible apply State.blSlots_kept)
    | (with_reducible refine Kept.foldl ?_ (fun _ _ _ => ?_) _) | (with_reducible refine Kept.foldl1 ?_ (fun _ _ _ => ?_) _)

theorem State.bringRegion_kept {z s : State} (h : Kept z s) (p t : Nat) (r : Nat) :
    Kept z (State.bringRegion p t s r) := by
  unfold State.bringRegion
  try dsimp only
  repeat' first
    | (with_reducible assumption) | (simp only [kept_mk]; with_reducible apply Kept.upd) | (with_reducible apply State.blIssue_kept)
    | (with_reducible apply Kept.ite) | split

theorem State.place_kept {z s : State} (h : Kept z s) (p a : Nat) (k : Task) (ts : List Nat) :
    Kept z (State.place s p a k ts) := by
  unfold State.place
  try dsimp only
  repeat' first
    | (with_reducible assumption) | (intro _) | (simp only [kept_mk]; with_reducible apply Kept.upd)
    | (with_reducible apply State.setTile_kept) | (with_reducible apply State.setSp_kept) | (with_reducible apply State.setHp_kept)
    | (with_reducible apply State.slotRegions_kept) | (with_reducible apply State.bringRegion_kept)
    | (with_reducible refine Kept.foldl ?_ (fun _ _ _ => ?_) _) | (with_reducible refine Kept.foldl1 ?_ (fun _ _ _ => ?_) _)
    | (with_reducible apply Kept.ite) | (dsimp only) | split | (refine Kept.ofFst (by assumption) ?_)
    | (refine Kept.ofSnd (by assumption) ?_)

theorem State.regionsAgain_kept {z s : State} (h : Kept z s) (t : Nat) :
    Kept z (State.regionsAgain s t) := by
  unfold State.regionsAgain
  try dsimp only
  repeat' first
    | (with_reducible assumption) | (simp only [kept_mk]; with_reducible apply Kept.upd) | (with_reducible apply State.blKick_kept)
    | (with_reducible apply State.bringRegion_kept) | (with_reducible refine Kept.foldl ?_ (fun _ _ _ => ?_) _)
    | (with_reducible refine Kept.foldl1 ?_ (fun _ _ _ => ?_) _) | (with_reducible apply Kept.ite) | split

theorem State.ownPiece_kept {z s : State} (h : Kept z s) (o : Nat) (pc : Nat × List Byte) :
    Kept z (State.ownPiece o s pc) := by
  unfold State.ownPiece
  try dsimp only
  repeat' first
    | (with_reducible assumption) | (intro _) | (simp only [kept_mk]; with_reducible apply Kept.upd)
    | (simp only [kept_mk]; with_reducible refine Kept.mems ?_ (fun w => by
        obtain ⟨_, _, _, _, _⟩ := State.wf_all w
        refine ⟨?_, ?_, ?_, ?_, ?_⟩ <;> repeat' first
          | with_reducible assumption | exact mwf_nil _ | apply mwf_putBytes | apply mwf_mset | apply mwf_mupd | apply mwf_filter | refine mwf_foldl _ _ (fun _ _ _ => ?_) _ _ ?_ | split | (simp at *; assumption)))
    | (with_reducible apply State.lineGood_kept) | (with_reducible apply State.llcTouch_kept)
    | (with_reducible apply State.snoop_kept) | (with_reducible apply Kept.ite) | split

theorem State.ownWrite_kept {z s : State} (h : Kept z s) (o a : Nat) (bs : List Byte) :
    Kept z (State.ownWrite s o a bs) := by
  unfold State.ownWrite
  try dsimp only
  repeat' first
    | (with_reducible assumption) | (intro _) | (with_reducible apply State.ownPiece_kept)
    | (with_reducible refine Kept.foldl ?_ (fun _ _ _ => ?_) _) | (with_reducible refine Kept.foldl1 ?_ (fun _ _ _ => ?_) _)

theorem State.ownRead_kept {z s : State} (h : Kept z s) (o a n : Nat) :
    Kept z (State.ownRead s o a n).1 := by
  unfold State.ownRead
  try dsimp only
  repeat' first
    | (with_reducible assumption) | (intro _) | (simp only [kept_mk]; with_reducible apply Kept.upd)
    | (with_reducible apply State.llcTouch_kept) | (with_reducible apply State.snoop_kept)
    | (with_reducible refine Kept.foldl ?_ (fun _ _ _ => ?_) _) | (with_reducible refine Kept.foldl1 ?_ (fun _ _ _ => ?_) _)
    | (with_reducible apply Kept.ite) | (with_reducible apply Kept.ite1) | (with_reducible apply Kept.ite2) | (dsimp only) | split
    | (refine Kept.ofFst (by assumption) ?_) | (refine Kept.ofSnd (by assumption) ?_)

theorem State.saveBanks_kept {z s : State} (h : Kept z s) (t : Nat) :
    Kept z (State.saveBanks s t) := by
  unfold State.saveBanks
  try dsimp only
  repeat' first
    | (with_reducible assumption) | (intro _) | (simp only [kept_mk]; with_reducible apply Kept.upd)
    | (simp only [kept_mk]; with_reducible refine Kept.mems ?_ (fun w => by
        obtain ⟨_, _, _, _, _⟩ := State.wf_all w
        refine ⟨?_, ?_, ?_, ?_, ?_⟩ <;> repeat' first
          | with_reducible assumption | exact mwf_nil _ | apply mwf_putBytes | apply mwf_mset | apply mwf_mupd | apply mwf_filter | refine mwf_foldl _ _ (fun _ _ _ => ?_) _ _ ?_ | split | (simp at *; assumption)))
    | (dsimp only) | split | (refine Kept.ofFst (by assumption) ?_) | (refine Kept.ofSnd (by assumption) ?_)

theorem State.loadBanks_kept {z s : State} (h : Kept z s) (t : Nat) :
    Kept z (State.loadBanks s t) := by
  unfold State.loadBanks
  try dsimp only
  repeat' first
    | (with_reducible assumption) | (intro _) | (simp only [kept_mk]; with_reducible apply Kept.upd)
    | (simp only [kept_mk]; with_reducible refine Kept.mems ?_ (fun w => by
        obtain ⟨_, _, _, _, _⟩ := State.wf_all w
        refine ⟨?_, ?_, ?_, ?_, ?_⟩ <;> repeat' first
          | with_reducible assumption | exact mwf_nil _ | apply mwf_putBytes | apply mwf_mset | apply mwf_mupd | apply mwf_filter | refine mwf_foldl _ _ (fun _ _ _ => ?_) _ _ ?_ | split | (simp at *; assumption)))
    | (with_reducible refine Kept.foldl ?_ (fun _ _ _ => ?_) _) | (with_reducible refine Kept.foldl1 ?_ (fun _ _ _ => ?_) _)
    | (dsimp only) | split | (refine Kept.ofFst (by assumption) ?_) | (refine Kept.ofSnd (by assumption) ?_)

theorem State.unmapAll_kept {z s : State} (h : Kept z s) (t : Nat) :
    Kept z (State.unmapAll s t) := by
  unfold State.unmapAll
  try dsimp only
  repeat' first
    | (with_reducible assumption) | (intro _) | (with_reducible apply State.fset_kept) | (with_reducible apply State.fsets_kept)
    | (with_reducible refine Kept.foldl ?_ (fun _ _ _ => ?_) _) | (with_reducible refine Kept.foldl1 ?_ (fun _ _ _ => ?_) _)

theorem State.dropSample_kept {z s : State} (h : Kept z s) (t : Nat) :
    Kept z (State.dropSample s t) := by
  unfold State.dropSample
  try dsimp only
  repeat' first
    | (with_reducible assumption) | (simp only [kept_mk]; with_reducible apply Kept.upd) | (with_reducible apply State.fset_kept)
    | (with_reducible apply State.setTile_kept) | (with_reducible apply State.ringDone_kept)
    | (with_reducible apply State.tileSummary_kept) | split

theorem State.stopVictim_kept {z s : State} (h : Kept z s) (run : Bool) (t : Nat) :
    Kept z (State.stopVictim run s t) := by
  unfold State.stopVictim
  try dsimp only
  repeat' first
    | (with_reducible assumption) | (with_reducible apply State.fsets_kept) | (with_reducible apply State.saveBanks_kept)
    | (with_reducible apply Kept.ite) | split

theorem State.tileSpilled_kept {z s : State} (h : Kept z s) (t : Nat) :
    Kept z (State.tileSpilled s t) := by
  unfold State.tileSpilled
  try dsimp only
  repeat' first
    | (with_reducible assumption) | (intro _) | (simp only [kept_mk]; with_reducible apply Kept.upd)
    | (with_reducible apply State.fset_kept) | (with_reducible apply State.fsets_kept) | (with_reducible apply State.setTile_kept)
    | (with_reducible apply State.setHalted_kept) | (with_reducible apply State.setTask_kept)
    | (with_reducible apply State.taskEnd_kept) | (with_reducible apply State.ownWrite_kept)
    | (with_reducible apply State.unmapAll_kept) | (with_reducible refine Kept.foldl ?_ (fun _ _ _ => ?_) _)
    | (with_reducible refine Kept.foldl1 ?_ (fun _ _ _ => ?_) _) | (with_reducible apply Kept.ite) | split

theorem State.restoreGo_kept {z s : State} (h : Kept z s) (p a : Nat) (k : Task) :
    Kept z (State.restoreGo s p a k) := by
  unfold State.restoreGo
  try dsimp only
  repeat' first
    | (with_reducible assumption) | (simp only [kept_mk]; with_reducible apply Kept.upd) | (with_reducible apply State.setSp_kept)
    | (with_reducible apply Kept.ite) | split

theorem State.restoreBegin_kept {z s : State} (h : Kept z s) (p a : Nat) (k : Task) :
    Kept z (State.restoreBegin s p a k) := by
  unfold State.restoreBegin
  try dsimp only
  repeat' first
    | (with_reducible assumption) | (intro _) | (simp only [kept_mk]; with_reducible apply Kept.upd)
    | (with_reducible apply State.stray_kept) | (with_reducible apply State.blFault_kept) | (with_reducible apply State.blIssue_kept)
    | (with_reducible apply State.taskEnd_kept) | (with_reducible apply State.restoreGo_kept)
    | (with_reducible refine Kept.foldl ?_ (fun _ _ _ => ?_) _) | (with_reducible refine Kept.foldl1 ?_ (fun _ _ _ => ?_) _)
    | (with_reducible apply Kept.ite) | split

theorem State.inkPut_kept {z s : State} (h : Kept z s) (t a : Nat) (bs : List Byte) :
    Kept z (State.inkPut s t a bs) := by
  unfold State.inkPut
  try dsimp only
  repeat' first
    | (with_reducible assumption) | (intro _) | (simp only [kept_mk]; with_reducible apply Kept.upd)
    | (simp only [kept_mk]; with_reducible refine Kept.mems ?_ (fun w => by
        obtain ⟨_, _, _, _, _⟩ := State.wf_all w
        refine ⟨?_, ?_, ?_, ?_, ?_⟩ <;> repeat' first
          | with_reducible assumption | exact mwf_nil _ | apply mwf_putBytes | apply mwf_mset | apply mwf_mupd | apply mwf_filter | refine mwf_foldl _ _ (fun _ _ _ => ?_) _ _ ?_ | split | (simp at *; assumption)))

theorem State.pageRestore_kept {z : State} (p t base : Nat) (w : TileSave) {a : State × Bool} (v : Nat) (h : Kept z a.1) :
    Kept z (State.pageRestore p t base w a v).1 := by
  unfold State.pageRestore
  try dsimp only
  repeat' first
    | (with_reducible assumption) | (with_reducible apply State.ownRead_kept) | (with_reducible apply State.inkPut_kept)
    | (with_reducible apply Kept.ite) | (with_reducible apply Kept.ite1) | (with_reducible apply Kept.ite2) | (dsimp only) | split
    | (refine Kept.ofFst (by assumption) ?_) | (refine Kept.ofSnd (by assumption) ?_)

theorem State.banksRestore_kept {z : State} (p t base : Nat) {a : State × Bool} (h : Kept z a.1) :
    Kept z (State.banksRestore p t base a).1 := by
  unfold State.banksRestore
  try dsimp only
  repeat' first
    | (with_reducible assumption) | (with_reducible apply State.ownRead_kept) | (with_reducible apply State.loadBanks_kept)
    | (with_reducible apply State.inkPut_kept) | (with_reducible apply Kept.ite) | (with_reducible apply Kept.ite1)
    | (with_reducible apply Kept.ite2) | (dsimp only) | split | (refine Kept.ofFst (by assumption) ?_)
    | (refine Kept.ofSnd (by assumption) ?_)

theorem State.blockRestore_kept {z : State} (p t base : Nat) {a : State × Bool} (b : Nat) (h : Kept z a.1) :
    Kept z (State.blockRestore p t base a b).1 := by
  unfold State.blockRestore
  try dsimp only
  repeat' first
    | (with_reducible assumption) | (with_reducible apply State.blFill_kept) | (with_reducible apply State.ownRead_kept)
    | (dsimp only) | (refine Kept.ofFst (by assumption) ?_) | (refine Kept.ofSnd (by assumption) ?_)

theorem State.controlRestore_kept {z s : State} (h : Kept z s) (t : Nat) (w : TileSave) :
    Kept z (State.controlRestore s t w) := by
  unfold State.controlRestore
  try dsimp only
  repeat' first
    | (with_reducible assumption) | (intro _) | (simp only [kept_mk]; with_reducible apply Kept.upd)
    | (with_reducible apply State.fsets_kept) | (with_reducible apply State.setTile_kept)
    | (with_reducible refine Kept.foldl ?_ (fun _ _ _ => ?_) _) | (with_reducible refine Kept.foldl1 ?_ (fun _ _ _ => ?_) _)

theorem State.tileBack_kept {z s : State} (h : Kept z s) (p t slot : Nat) (w : TileSave) : Kept z (State.tileBack s p t slot w).1 := by
  have k : ∀ (base : Nat) (c : State × List Byte × Bool) (l : List (Fld × Nat)), Kept z c.1 →
      let a := State.banksRestore p t base ((List.range 44).foldl (State.pageRestore p t base w) (c.1, c.2.2))
      Kept z (((a.1.mappedBlocks t).foldl (State.blockRestore p t base) a).1.fsets l) := fun base c l hc =>
    State.fsets_kept (Kept.foldl1 (State.banksRestore_kept _ _ _ (Kept.foldl1 (x := (c.1, c.2.2)) hc
      (fun _ _ h => State.pageRestore_kept _ _ _ _ _ h) _)) (fun _ _ h => State.blockRestore_kept _ _ _ _ h) _) _
  unfold State.tileBack
  exact k _ _ _ (State.ownRead_kept (State.controlRestore_kept h _ _) _ _ _)

theorem State.restoreDone_kept {z s : State} (h : Kept z s) (t : Nat) :
    Kept z (State.restoreDone s t) := by
  unfold State.restoreDone
  try dsimp only
  repeat' first
    | (with_reducible assumption) | (intro _) | (simp only [kept_mk]; with_reducible apply Kept.upd)
    | (with_reducible apply State.blAgain_kept) | (with_reducible apply State.setTask_kept)
    | (with_reducible apply State.earlyMet_kept) | (with_reducible apply State.tileBack_kept)
    | (with_reducible refine Kept.foldl ?_ (fun _ _ _ => ?_) _) | (with_reducible refine Kept.foldl1 ?_ (fun _ _ _ => ?_) _)
    | (with_reducible apply Kept.ite) | (dsimp only) | split | (refine Kept.ofFst (by assumption) ?_)
    | (refine Kept.ofSnd (by assumption) ?_)

theorem State.takeVictim_kept {z s : State} (h : Kept z s) (p a : Nat) (k : Task) (slots : NMap Nat) :
    Kept z (State.takeVictim s p a k slots) := by
  unfold State.takeVictim
  try dsimp only
  repeat' first
    | (with_reducible assumption) | (intro _) | (simp only [kept_mk]; with_reducible apply Kept.upd)
    | (with_reducible apply State.fsat_kept) | (with_reducible apply State.setTask_kept) | (with_reducible apply State.taskEnd_kept)
    | (with_reducible apply State.dropSample_kept) | (with_reducible apply State.stopVictim_kept)
    | (with_reducible refine Kept.foldl ?_ (fun _ _ _ => ?_) _) | (with_reducible refine Kept.foldl1 ?_ (fun _ _ _ => ?_) _)
    | (with_reducible apply Kept.ite) | split

theorem State.preempt_kept {z s : State} (h : Kept z s) (p : Nat) (k : Task) :
    Kept z (State.preempt s p k) := by
  unfold State.preempt
  try dsimp only
  repeat' first
    | (with_reducible assumption) | (intro _) | (simp only [kept_mk]; with_reducible apply Kept.upd)
    | (with_reducible apply State.free_kept) | (with_reducible apply State.takeVictim_kept)
    | (with_reducible refine Kept.foldl ?_ (fun _ _ _ => ?_) _) | (with_reducible refine Kept.foldl1 ?_ (fun _ _ _ => ?_) _)
    | (with_reducible apply Kept.ite) | (dsimp only) | split | (refine Kept.ofFst (by assumption) ?_)
    | (refine Kept.ofSnd (by assumption) ?_)

theorem State.round_kept {z s : State} (h : Kept z s) (p : Nat) :
    Kept z (State.round s p) := by
  unfold State.round
  try dsimp only
  repeat' first
    | (with_reducible assumption) | (intro _) | (simp only [kept_mk]; with_reducible apply Kept.upd)
    | (with_reducible apply State.fset_kept) | (with_reducible apply State.modelsWant_kept)
    | (with_reducible apply State.pagesWant_kept) | (with_reducible apply State.taskComplete_kept)
    | (with_reducible apply State.place_kept) | (with_reducible apply State.regionsAgain_kept)
    | (with_reducible apply State.restoreBegin_kept) | (with_reducible apply State.preempt_kept)
    | (with_reducible refine Kept.foldl ?_ (fun _ _ _ => ?_) _) | (with_reducible refine Kept.foldl1 ?_ (fun _ _ _ => ?_) _)
    | (with_reducible apply Kept.ite) | split

theorem State.tileRestore_kept {z s : State} (h : Kept z s) (p a : Nat) :
    Kept z (State.tileRestore s p a) := by
  unfold State.tileRestore
  try dsimp only
  repeat' first
    | (with_reducible assumption) | (simp only [kept_mk]; with_reducible apply Kept.upd)
    | (with_reducible apply State.restoreBegin_kept) | (with_reducible apply Kept.ite) | split

theorem State.sigWrite_kept {z s : State} (h : Kept z s) (p n v inc : Nat) :
    Kept z (State.sigWrite s p n v inc) := by
  unfold State.sigWrite
  repeat' first
    | (with_reducible assumption) | (with_reducible apply State.fset_kept) | (with_reducible apply State.sigAdd_kept)

end Sys2Proof.Machine
end

