-- ==== Sys2Proof/Laws/KeptSpare.lean ====
section
/-!
SUPPORT. The operations of Machine/Spare.lean keep the fuses, the queue and the canonical form of the memories.
-/
namespace Sys2Proof.Machine

theorem State.eraseFields_kept {z s : State} (h : Kept z s) (lo hi : Nat) :
    Kept z (State.eraseFields s lo hi) := by
  unfold State.eraseFields
  try dsimp only
  repeat' first
    | (with_reducible assumption) | (intro _) | (simp only [kept_mk]; with_reducible apply Kept.upd)

theorem State.tileWipe_kept {z s : State} (h : Kept z s) (t : Nat) :
    Kept z (State.tileWipe s t) := by
  unfold State.tileWipe
  try dsimp only
  repeat' first
    | (with_reducible assumption) | (intro _) | (simp only [kept_mk]; with_reducible apply Kept.upd)
    | (simp only [kept_mk]; with_reducible refine Kept.mems ?_ (fun w => by
        obtain ⟨_, _, _, _, _⟩ := State.wf_all w
        refine ⟨?_, ?_, ?_, ?_, ?_⟩ <;> repeat' first
          | with_reducible assumption | exact mwf_nil _ | apply mwf_putBytes | apply mwf_mset | apply mwf_mupd | apply mwf_filter | refine mwf_foldl _ _ (fun _ _ _ => ?_) _ _ ?_ | split | (simp at *; assumption)))
    | (with_reducible apply State.eraseFields_kept)

theorem State.tileEn_kept {z s : State} (h : Kept z s) (t : Nat) (on : Bool) :
    Kept z (State.tileEn s t on) := by
  unfold State.tileEn
  try dsimp only
  repeat' first
    | (with_reducible assumption) | (with_reducible apply State.fset_kept) | (with_reducible apply State.tileWipe_kept)
    | (with_reducible apply Kept.ite) | split

theorem State.takeOver_kept {z s : State} (h : Kept z s) (n p : Nat) (regs : NMap Region) (slots : List (Nat × Nat × Nat)) :
    Kept z (State.takeOver s n p regs slots) := by
  unfold State.takeOver
  try dsimp only
  repeat' first
    | (with_reducible assumption) | (intro _) | (simp only [kept_mk]; with_reducible apply Kept.upd)
    | (with_reducible apply State.fsets_kept) | (with_reducible apply State.setTile_kept) | (with_reducible apply State.setRole_kept)
    | (with_reducible apply State.tileEn_kept) | (with_reducible apply State.blShow_kept)
    | (with_reducible refine Kept.foldl ?_ (fun _ _ _ => ?_) _) | (with_reducible refine Kept.foldl1 ?_ (fun _ _ _ => ?_) _)
    | (with_reducible apply Kept.ite) | (dsimp only) | split | (refine Kept.ofFst (by assumption) ?_)
    | (refine Kept.ofSnd (by assumption) ?_)

theorem State.tileLostTask_kept {z s : State} (h : Kept z s) (p t : Nat) (open_ : Bool) :
    Kept z (State.tileLostTask s p t open_) := by
  unfold State.tileLostTask
  try dsimp only
  repeat' first
    | (with_reducible assumption) | (intro _) | (simp only [kept_mk]; with_reducible apply Kept.upd)
    | (with_reducible apply State.setHp_kept) | (with_reducible apply State.forceSkip_kept)
    | (with_reducible apply State.setTask_kept) | (with_reducible apply State.stopTile_kept)
    | (with_reducible apply State.taskEnd_kept) | (with_reducible refine Kept.foldl ?_ (fun _ _ _ => ?_) _)
    | (with_reducible refine Kept.foldl1 ?_ (fun _ _ _ => ?_) _) | (with_reducible apply Kept.ite) | split

theorem State.tileFail_kept {z s : State} (h : Kept z s) (t : Nat) :
    Kept z (State.tileFail s t) := by
  unfold State.tileFail
  try dsimp only
  repeat' first
    | (with_reducible assumption) | (intro _) | (simp only [kept_mk]; with_reducible apply Kept.upd)
    | (with_reducible apply State.setRole_kept) | (with_reducible apply State.raise_kept) | (with_reducible apply State.noteEv_kept)
    | (with_reducible apply State.ledFact_kept) | (with_reducible apply State.tileEn_kept)
    | (with_reducible apply State.takeOver_kept) | (with_reducible apply State.tileLostTask_kept) | (with_reducible apply Kept.ite)
    | split

theorem State.tileSlow_kept {z s : State} (h : Kept z s) (t k : Nat) :
    Kept z (State.tileSlow s t k) := by
  unfold State.tileSlow
  try dsimp only
  repeat' first
    | (with_reducible assumption) | (intro _) | (simp only [kept_mk]; with_reducible apply Kept.upd)
    | (with_reducible apply State.setRole_kept) | (with_reducible apply State.tileEn_kept)
    | (with_reducible apply State.takeOver_kept) | split

theorem State.slowReturn_kept {z s : State} (h : Kept z s) (k : Nat) :
    Kept z (State.slowReturn s k) := by
  unfold State.slowReturn
  try dsimp only
  repeat' first
    | (with_reducible assumption) | (intro _) | (with_reducible apply State.setRole_kept)
    | (with_reducible refine Kept.foldl ?_ (fun _ _ _ => ?_) _) | (with_reducible refine Kept.foldl1 ?_ (fun _ _ _ => ?_) _)
    | (with_reducible apply Kept.ite) | split

theorem State.retarget_kept {z s : State} (h : Kept z s)  :
    Kept z (State.retarget s) := by
  unfold State.retarget
  try dsimp only
  repeat' first
    | (with_reducible assumption) | (simp only [kept_mk]; with_reducible apply Kept.upd)
    | (with_reducible apply State.slowReturn_kept) | (with_reducible apply State.setTarget_kept) | (with_reducible apply Kept.ite)
    | split

theorem State.exchangeForK_kept {z s : State} (h : Kept z s) (t : Nat) :
    Kept z (State.exchangeForK s t) := by
  unfold State.exchangeForK
  try dsimp only
  repeat' first
    | (with_reducible assumption) | (simp only [kept_mk]; with_reducible apply Kept.upd) | (with_reducible apply State.tileSlow_kept)
    | (with_reducible apply State.retarget_kept) | (with_reducible apply Kept.ite) | split

theorem State.slowCheck_kept {z s : State} (h : Kept z s) (t : Nat) :
    Kept z (State.slowCheck s t) := by
  unfold State.slowCheck
  repeat' first
    | (with_reducible assumption) | (with_reducible apply State.tileSlow_kept) | (with_reducible apply State.retarget_kept)
    | (with_reducible apply Kept.ite) | split

theorem State.fmaxMeasure_kept {z s : State} (h : Kept z s) (t : Nat) (mhz : Option Nat) :
    Kept z (State.fmaxMeasure s t mhz) := by
  unfold State.fmaxMeasure
  try dsimp only
  repeat' first
    | (with_reducible assumption) | (simp only [kept_mk]; with_reducible apply Kept.upd) | (with_reducible apply State.ledFact_kept)
    | (with_reducible apply State.tileFail_kept) | (with_reducible apply State.slowCheck_kept) | (with_reducible apply Kept.ite)
    | split

end Sys2Proof.Machine
end

