-- ==== Sys2Proof/Laws/KeptPower.lean ====
section
/-!
SUPPORT. The operations of Machine/Power.lean keep the fuses, the queue and the canonical form of the memories.
-/
namespace Sys2Proof.Machine

theorem State.capUpdate_kept {z s : State} (h : Kept z s) (tick : Bool) :
    Kept z (State.capUpdate s tick) := by
  unfold State.capUpdate
  try dsimp only
  repeat' first
    | (with_reducible assumption) | (intro _) | (simp only [kept_mk]; with_reducible apply Kept.upd)
    | (with_reducible apply State.fset_kept) | (with_reducible apply State.tick_kept)
    | (with_reducible refine Kept.foldl ?_ (fun _ _ _ => ?_) _) | (with_reducible refine Kept.foldl1 ?_ (fun _ _ _ => ?_) _)
    | (with_reducible apply Kept.ite) | split

theorem State.phaseAccount_kept {z s : State} (h : Kept z s) (te : List (Nat × Nat)) :
    Kept z (State.phaseAccount s te) := by
  unfold State.phaseAccount
  try dsimp only
  repeat' first
    | (with_reducible assumption) | (intro _) | (simp only [kept_mk]; with_reducible apply Kept.upd)
    | (with_reducible apply State.memPut_kept) | (with_reducible refine Kept.foldl ?_ (fun _ _ _ => ?_) _)
    | (with_reducible refine Kept.foldl1 ?_ (fun _ _ _ => ?_) _) | (dsimp only) | split | (refine Kept.ofFst (by assumption) ?_)
    | (refine Kept.ofSnd (by assumption) ?_)

theorem State.account_kept {z s : State} (h : Kept z s) (energy : Nat) (l : List (Nat × Nat)) :
    Kept z (State.account s energy l) := by
  unfold State.account
  try dsimp only
  repeat' first
    | (with_reducible assumption) | (intro _) | (simp only [kept_mk]; with_reducible apply Kept.upd)
    | (with_reducible apply State.fset_kept) | (with_reducible apply State.finc_kept)
    | (with_reducible refine Kept.foldl ?_ (fun _ _ _ => ?_) _) | (with_reducible refine Kept.foldl1 ?_ (fun _ _ _ => ?_) _)
    | (with_reducible apply Kept.ite) | (dsimp only) | split | (refine Kept.ofFst (by assumption) ?_)
    | (refine Kept.ofSnd (by assumption) ?_)

theorem State.measure_kept {z s : State} (h : Kept z s) (x : Samp) :
    Kept z (State.measure s x) := by
  unfold State.measure
  try dsimp only
  repeat' first
    | (with_reducible assumption) | (intro _) | (simp only [kept_mk]; with_reducible apply Kept.upd)
    | (with_reducible apply State.fsets_kept) | (with_reducible refine Kept.foldl ?_ (fun _ _ _ => ?_) _)
    | (with_reducible refine Kept.foldl1 ?_ (fun _ _ _ => ?_) _)

theorem State.windows_kept {z s : State} (h : Kept z s)  :
    Kept z (State.windows s) := by
  unfold State.windows
  try dsimp only
  repeat' first
    | (with_reducible assumption) | (intro _) | (simp only [kept_mk]; with_reducible apply Kept.upd)
    | (with_reducible apply State.fset_kept) | (with_reducible refine Kept.foldl ?_ (fun _ _ _ => ?_) _)
    | (with_reducible refine Kept.foldl1 ?_ (fun _ _ _ => ?_) _) | (with_reducible apply Kept.ite) | split

theorem State.setShares_kept {z s : State} (h : Kept z s) (k : Nat) (ni : Nat → Nat) :
    Kept z (State.setShares s k ni) := by
  unfold State.setShares
  try dsimp only
  repeat' first
    | (with_reducible assumption) | (intro _) | (with_reducible apply State.fset_kept) | (with_reducible apply State.fsets_kept)
    | (with_reducible apply State.devEv_kept) | (with_reducible refine Kept.foldl ?_ (fun _ _ _ => ?_) _)
    | (with_reducible refine Kept.foldl1 ?_ (fun _ _ _ => ?_) _) | (with_reducible apply Kept.ite) | (dsimp only) | split
    | (refine Kept.ofFst (by assumption) ?_) | (refine Kept.ofSnd (by assumption) ?_)

theorem State.eyes_kept {z s : State} (h : Kept z s) (lanes : List Nat) :
    Kept z (State.eyes s lanes) := by
  unfold State.eyes
  try dsimp only
  repeat' first
    | (with_reducible assumption) | (intro _) | (simp only [kept_mk]; with_reducible apply Kept.upd)
    | (with_reducible refine Kept.foldl ?_ (fun _ _ _ => ?_) _) | (with_reducible refine Kept.foldl1 ?_ (fun _ _ _ => ?_) _)

theorem State.tickStart_kept {z s : State} (h : Kept z s) (x : Samp) :
    Kept z (State.tickStart s x) := by
  unfold State.tickStart
  try dsimp only
  repeat' first
    | (with_reducible assumption) | (simp only [kept_mk]; with_reducible apply Kept.upd) | (with_reducible apply State.capUpdate_kept)
    | (with_reducible apply State.measure_kept) | (with_reducible apply State.windows_kept) | (with_reducible apply State.eyes_kept)
    | (with_reducible apply Kept.ite) | split

theorem State.tickIssue_kept {z s : State} (h : Kept z s) (x : Samp) (k : Nat) (real bal : List (Nat × Nat)) :
    Kept z (State.tickIssue s x k real bal) := by
  unfold State.tickIssue
  try dsimp only
  repeat' first
    | (with_reducible assumption) | (intro _) | (simp only [kept_mk]; with_reducible apply Kept.upd)
    | (with_reducible apply State.fset_kept) | (with_reducible apply State.phaseAccount_kept)
    | (with_reducible apply State.account_kept) | (with_reducible apply State.setShares_kept) | (with_reducible apply Kept.ite)
    | split

theorem State.idleCycles_kept {z s : State} (h : Kept z s) (p : Nat) :
    Kept z (State.idleCycles s p) := by
  unfold State.idleCycles
  repeat' first
    | (with_reducible assumption) | (with_reducible apply State.finc_kept) | (with_reducible apply Kept.ite) | split

theorem State.tickFurled_kept {z s : State} (h : Kept z s) (x : Samp) :
    Kept z (State.tickFurled s x) := by
  unfold State.tickFurled
  try dsimp only
  repeat' first
    | (with_reducible assumption) | (intro _) | (with_reducible apply State.phaseAccount_kept)
    | (with_reducible apply State.account_kept)

theorem State.tick_kept {z s : State} (h : Kept z s) (raw : Samp) :
    Kept z (State.tick s raw) := by
  unfold State.tick
  try dsimp only
  repeat' first
    | (with_reducible assumption) | (intro _) | (with_reducible apply State.tickStart_kept)
    | (with_reducible apply State.tickIssue_kept) | (with_reducible apply State.idleCycles_kept)
    | (with_reducible apply State.tickFurled_kept) | (with_reducible refine Kept.foldl ?_ (fun _ _ _ => ?_) _)
    | (with_reducible refine Kept.foldl1 ?_ (fun _ _ _ => ?_) _) | (with_reducible apply Kept.ite) | split

theorem State.modelCorrect_kept {z s : State} (h : Kept z s)  :
    Kept z (State.modelCorrect s) := by
  unfold State.modelCorrect
  try dsimp only
  repeat' first
    | (with_reducible assumption) | (intro _) | (simp only [kept_mk]; with_reducible apply Kept.upd)
    | (with_reducible apply State.memPut_kept) | (with_reducible refine Kept.foldl ?_ (fun _ _ _ => ?_) _)
    | (with_reducible refine Kept.foldl1 ?_ (fun _ _ _ => ?_) _) | (dsimp only) | split | (refine Kept.ofFst (by assumption) ?_)
    | (refine Kept.ofSnd (by assumption) ?_)

theorem State.thermLedger_kept {z s : State} (h : Kept z s) (ts : List Nat) :
    Kept z (State.thermLedger s ts) := by
  unfold State.thermLedger
  try dsimp only
  repeat' first
    | (with_reducible assumption) | (intro _) | (simp only [kept_mk]; with_reducible apply Kept.upd)
    | (with_reducible refine Kept.foldl ?_ (fun _ _ _ => ?_) _) | (with_reducible refine Kept.foldl1 ?_ (fun _ _ _ => ?_) _)
    | (with_reducible apply Kept.ite) | split

theorem State.thermal_kept {z s : State} (h : Kept z s) (raw : List Nat) :
    Kept z (State.thermal s raw) := by
  unfold State.thermal
  try dsimp only
  repeat' first
    | (with_reducible assumption) | (intro _) | (simp only [kept_mk]; with_reducible apply Kept.upd)
    | (with_reducible apply State.fsets_kept) | (with_reducible apply State.devEv_kept) | (with_reducible apply State.capUpdate_kept)
    | (with_reducible apply State.thermLedger_kept) | (with_reducible refine Kept.foldl ?_ (fun _ _ _ => ?_) _)
    | (with_reducible refine Kept.foldl1 ?_ (fun _ _ _ => ?_) _) | (with_reducible apply Kept.ite) | split

theorem State.propose_kept {z s : State} (h : Kept z s) (p : Nat) :
    Kept z (State.propose s p) := by
  unfold State.propose
  try dsimp only
  repeat' first
    | (with_reducible assumption) | (with_reducible apply State.fsets_kept) | (dsimp only) | split
    | (refine Kept.ofFst (by assumption) ?_) | (refine Kept.ofSnd (by assumption) ?_)

theorem State.kPropPeriod_kept {z s : State} (h : Kept z s)  :
    Kept z (State.kPropPeriod s) := by
  unfold State.kPropPeriod
  try dsimp only
  repeat' first
    | (with_reducible assumption) | (intro _) | (simp only [kept_mk]; with_reducible apply Kept.upd)
    | (with_reducible apply State.retarget_kept) | (with_reducible apply State.propose_kept)
    | (with_reducible refine Kept.foldl ?_ (fun _ _ _ => ?_) _) | (with_reducible refine Kept.foldl1 ?_ (fun _ _ _ => ?_) _)
    | (with_reducible apply Kept.ite) | split

theorem State.latchEnergy_kept {z s : State} (h : Kept z s) (p n : Nat) :
    Kept z (State.latchEnergy s p n) := by
  unfold State.latchEnergy
  try dsimp only
  repeat' first
    | (with_reducible assumption) | (simp only [kept_mk]; with_reducible apply Kept.upd) | (with_reducible apply State.fsets_kept)

theorem State.furl_kept {z s : State} (h : Kept z s)  :
    Kept z (State.furl s) := by
  unfold State.furl
  try dsimp only
  repeat' first
    | (with_reducible assumption) | (intro _) | (with_reducible apply State.fset_kept) | (with_reducible apply Kept.ite) | split

theorem State.wakeUp_kept {z s : State} (h : Kept z s)  :
    Kept z (State.wakeUp s) := by
  unfold State.wakeUp
  try dsimp only
  repeat' first
    | (with_reducible assumption) | (simp only [kept_mk]; with_reducible apply Kept.upd) | (with_reducible apply State.fset_kept)
    | split

theorem State.furlDone_kept {z s : State} (h : Kept z s)  :
    Kept z (State.furlDone s) := by
  unfold State.furlDone
  try dsimp only
  repeat' first
    | (with_reducible assumption) | (intro _) | (simp only [kept_mk]; with_reducible apply Kept.upd)
    | (simp only [kept_mk]; with_reducible refine Kept.mems ?_ (fun w => by
        obtain ⟨_, _, _, _, _⟩ := State.wf_all w
        refine ⟨?_, ?_, ?_, ?_, ?_⟩ <;> repeat' first
          | with_reducible assumption | exact mwf_nil _ | apply mwf_putBytes | apply mwf_mset | apply mwf_mupd | apply mwf_filter | refine mwf_foldl _ _ (fun _ _ _ => ?_) _ _ ?_ | split | (simp at *; assumption)))
    | (with_reducible apply State.fset_kept) | (with_reducible apply State.devEv_kept) | (with_reducible apply State.snapDue_kept)
    | (with_reducible apply State.wakeUp_kept) | (with_reducible refine Kept.foldl ?_ (fun _ _ _ => ?_) _)
    | (with_reducible refine Kept.foldl1 ?_ (fun _ _ _ => ?_) _) | (with_reducible apply Kept.ite) | (dsimp only) | split
    | (refine Kept.ofFst (by assumption) ?_) | (refine Kept.ofSnd (by assumption) ?_)

theorem State.awake_kept {z s : State} (h : Kept z s)  :
    Kept z (State.awake s) := by
  unfold State.awake
  try dsimp only
  repeat' first
    | (with_reducible assumption) | (intro _) | (simp only [kept_mk]; with_reducible apply Kept.upd)
    | (with_reducible apply State.fset_kept) | (with_reducible apply State.devEv_kept) | (with_reducible apply State.snapDue_kept)
    | (with_reducible apply State.retarget_kept) | (with_reducible apply State.capUpdate_kept)
    | (with_reducible refine Kept.foldl ?_ (fun _ _ _ => ?_) _) | (with_reducible refine Kept.foldl1 ?_ (fun _ _ _ => ?_) _)
    | (with_reducible apply Kept.ite) | split

theorem State.capWrite_kept {z s : State} (h : Kept z s) (v : Nat) :
    Kept z (State.capWrite s v) := by
  unfold State.capWrite
  repeat' first
    | (with_reducible assumption) | (with_reducible apply State.fset_kept) | (with_reducible apply State.capUpdate_kept)

end Sys2Proof.Machine
end

