-- ==== Sys2Proof/Laws/KeptSequencer.lean ====
section
/-!
SUPPORT. The operations of Machine/Sequencer.lean keep the fuses, the queue and the canonical form of the memories.
-/
namespace Sys2Proof.Machine

theorem State.sqFault_kept {z s : State} (h : Kept z s) (p code entry : Nat) (halt : Bool) :
    Kept z (State.sqFault s p code entry halt) := by
  unfold State.sqFault
  try dsimp only
  repeat' first
    | (with_reducible assumption) | (with_reducible apply State.fset_kept) | (with_reducible apply State.recErr_kept)
    | (with_reducible apply Kept.ite) | split

theorem State.sqHeadFault_kept {z s : State} (h : Kept z s) (p : Nat) (c : Nat × Option Nat) (halt : Bool) :
    Kept z (State.sqHeadFault s p c halt) := by
  unfold State.sqHeadFault
  try dsimp only
  repeat' first
    | (with_reducible assumption) | (simp only [kept_mk]; with_reducible apply Kept.upd) | (with_reducible apply State.stray_kept)
    | (with_reducible apply State.sqFault_kept) | split

theorem State.joined_kept {z s : State} (h : Kept z s) (p : Nat) (b : Bunt) (i : Nat) :
    Kept z (State.joined s p b i) := by
  unfold State.joined
  try dsimp only
  repeat' first
    | (with_reducible assumption) | (simp only [kept_mk]; with_reducible apply Kept.upd) | (with_reducible apply State.fset_kept)
    | (with_reducible apply State.setSqp_kept) | (with_reducible apply Kept.ite) | split

theorem State.sqJoin_kept {z s : State} (h : Kept z s) (p : Nat) :
    Kept z (State.sqJoin s p) := by
  unfold State.sqJoin
  try dsimp only
  repeat' first
    | (with_reducible assumption) | (intro _) | (simp only [kept_mk]; with_reducible apply Kept.upd)
    | (with_reducible apply State.setMember_kept) | (with_reducible apply State.buntKeep_kept)
    | (with_reducible apply State.toMember_kept) | (with_reducible apply State.sqHeadFault_kept)
    | (with_reducible apply State.joined_kept) | (with_reducible refine Kept.foldl ?_ (fun _ _ _ => ?_) _)
    | (with_reducible refine Kept.foldl1 ?_ (fun _ _ _ => ?_) _) | (with_reducible apply Kept.ite) | split

theorem State.joinArrival_kept {z s : State} (h : Kept z s) (p i : Nat) :
    Kept z (State.joinArrival s p i) := by
  unfold State.joinArrival
  try dsimp only
  repeat' first
    | (with_reducible assumption) | (simp only [kept_mk]; with_reducible apply Kept.upd) | (with_reducible apply State.setMember_kept)
    | (with_reducible apply State.sqFault_kept) | (with_reducible apply State.joined_kept) | (with_reducible apply Kept.ite) | split

theorem State.memberLost_kept {z s : State} (h : Kept z s) (p i : Nat) :
    Kept z (State.memberLost s p i) := by
  unfold State.memberLost
  repeat' first
    | (with_reducible assumption) | (with_reducible apply State.setMember_kept)

theorem State.sqRelease_kept {z s : State} (h : Kept z s) (p i : Nat) (e : SEnt) (moved : Bool) :
    Kept z (State.sqRelease s p i e moved) := by
  unfold State.sqRelease
  try dsimp only
  repeat' first
    | (with_reducible assumption) | (simp only [kept_mk]; with_reducible apply Kept.upd) | (with_reducible apply State.fsat_kept)
    | (with_reducible apply State.fsets_kept) | (with_reducible apply State.setSqp_kept) | (with_reducible apply Kept.ite) | split

theorem State.sqTaskGo_kept {z s : State} (h : Kept z s) (p : Nat) (h : SHdr) (i : Nat) (e : SEnt) :
    Kept z (State.sqTaskGo s p h i e) := by
  unfold State.sqTaskGo
  try dsimp only
  repeat' first
    | (with_reducible assumption) | (simp only [kept_mk]; with_reducible apply Kept.upd) | (with_reducible apply State.setSp_kept)
    | split

theorem State.sqXferGo_kept {z s : State} (h : Kept z s) (p : Nat) (h : SHdr) (i : Nat) (e : SEnt) :
    Kept z (State.sqXferGo s p h i e) := by
  unfold State.sqXferGo
  try dsimp only
  repeat' first
    | (with_reducible assumption) | (simp only [kept_mk]; with_reducible apply Kept.upd) | (with_reducible apply State.zSend_kept)
    | (with_reducible apply Kept.ite) | split

theorem State.sqRegionsGo_kept {z s : State} (h : Kept z s) (p op : Nat) (h : SHdr) (i : Nat) (e : SEnt) :
    Kept z (State.sqRegionsGo s p op h i e) := by
  unfold State.sqRegionsGo
  try dsimp only
  repeat' first
    | (with_reducible assumption) | (intro _) | (simp only [kept_mk]; with_reducible apply Kept.upd)
    | (with_reducible apply State.setSqp_kept) | (with_reducible apply State.sqEntryDone_kept)
    | (with_reducible apply State.blAsk_kept) | (with_reducible refine Kept.foldl ?_ (fun _ _ _ => ?_) _)
    | (with_reducible refine Kept.foldl1 ?_ (fun _ _ _ => ?_) _) | (with_reducible apply Kept.ite) | split

theorem State.setRed_kept {z s : State} (h : Kept z s) (p n i : Nat) (r : Red) :
    Kept z (State.setRed s p n i r) := by
  unfold State.setRed
  try dsimp only
  repeat' first
    | (with_reducible assumption) | (simp only [kept_mk]; with_reducible apply Kept.upd) | (with_reducible apply State.setSqp_kept)

theorem State.reduceDone_kept {z s : State} (h : Kept z s) (p n i : Nat) (epoch : Nat) (g : List Byte) (slow : Option Nat) :
    Kept z (State.reduceDone s p n i epoch g slow) := by
  unfold State.reduceDone
  try dsimp only
  repeat' first
    | (with_reducible assumption) | (intro _) | (simp only [kept_mk]; with_reducible apply Kept.upd)
    | (with_reducible apply State.setLp_kept) | (with_reducible apply State.sqEntryDone_kept) | (with_reducible apply Kept.ite)
    | split

theorem State.reduceCheck_kept {z s : State} (h : Kept z s) (p n i epoch : Nat) (g : List Byte) :
    Kept z (State.reduceCheck s p n i epoch g) := by
  unfold State.reduceCheck
  try dsimp only
  repeat' first
    | (with_reducible assumption) | (with_reducible apply State.reduceDone_kept) | (with_reducible apply Kept.ite) | split

theorem State.reduceSum_kept {z s : State} (h : Kept z s) (p n i epoch : Nat) (b : Bunt) (g : List Byte) :
    Kept z (State.reduceSum s p n i epoch b g) := by
  unfold State.reduceSum
  try dsimp only
  repeat' first
    | (with_reducible assumption) | (intro _) | (simp only [kept_mk]; with_reducible apply Kept.upd)
    | (with_reducible apply State.nonfinite_kept) | (with_reducible apply State.memRead_kept)
    | (with_reducible apply State.memPut_kept) | (with_reducible apply State.memPoison_kept) | (with_reducible apply State.zSend_kept)
    | (with_reducible apply State.forceSkip_kept) | (with_reducible apply State.setRed_kept)
    | (with_reducible refine Kept.foldl ?_ (fun _ _ _ => ?_) _) | (with_reducible refine Kept.foldl1 ?_ (fun _ _ _ => ?_) _)
    | (with_reducible apply Kept.ite) | (dsimp only) | split | (refine Kept.ofFst (by assumption) ?_)
    | (refine Kept.ofSnd (by assumption) ?_)

theorem State.reduceTry_kept {z s : State} (h : Kept z s) (p n i epoch : Nat) (b : Bunt) (g : List Byte) :
    Kept z (State.reduceTry s p n i epoch b g) := by
  unfold State.reduceTry
  try dsimp only
  repeat' first
    | (with_reducible assumption) | (with_reducible apply State.reduceCheck_kept) | (with_reducible apply State.reduceSum_kept)
    | (with_reducible apply Kept.ite) | split

theorem State.reduceOne_kept {z s : State} (h : Kept z s) (p n i epoch : Nat) (g : List Byte) :
    Kept z (State.reduceOne s p n i epoch g) := by
  unfold State.reduceOne
  try dsimp only
  repeat' first
    | (with_reducible assumption) | (intro _) | (simp only [kept_mk]; with_reducible apply Kept.upd)
    | (with_reducible apply State.nonfinite_kept) | (with_reducible apply State.memRead_kept)
    | (with_reducible apply State.memPut_kept) | (with_reducible apply State.memPoison_kept)
    | (with_reducible apply State.forceSkip_kept) | (with_reducible apply State.reduceDone_kept)
    | (with_reducible refine Kept.foldl ?_ (fun _ _ _ => ?_) _) | (with_reducible refine Kept.foldl1 ?_ (fun _ _ _ => ?_) _)
    | (with_reducible apply Kept.ite) | (dsimp only) | split | (refine Kept.ofFst (by assumption) ?_)
    | (refine Kept.ofSnd (by assumption) ?_)

theorem State.reduceSend_kept {z s : State} (h : Kept z s) (p : Nat) (b : Bunt) (g : List Byte) :
    Kept z (State.reduceSend s p b g) := by
  unfold State.reduceSend
  try dsimp only
  repeat' first
    | (with_reducible assumption) | (intro _) | (with_reducible apply State.zSend_kept)
    | (with_reducible refine Kept.foldl ?_ (fun _ _ _ => ?_) _) | (with_reducible refine Kept.foldl1 ?_ (fun _ _ _ => ?_) _)
    | (with_reducible apply Kept.ite) | split

theorem State.slowCombine_kept {z s : State} (h : Kept z s) (p n i epoch : Nat) (g : List Byte) :
    Kept z (State.slowCombine s p n i epoch g) := by
  unfold State.slowCombine
  try dsimp only
  repeat' first
    | (with_reducible assumption) | (intro _) | (with_reducible apply State.memPut_kept) | (with_reducible apply State.sqFault_kept)
    | (with_reducible apply State.reduceDone_kept) | (with_reducible apply Kept.ite) | split

theorem State.slowTry_kept {z s : State} (h : Kept z s) (p n i epoch : Nat) (b : Bunt) (g : List Byte) :
    Kept z (State.slowTry s p n i epoch b g) := by
  unfold State.slowTry
  try dsimp only
  repeat' first
    | (with_reducible assumption) | (intro _) | (simp only [kept_mk]; with_reducible apply Kept.upd)
    | (with_reducible apply State.nonfinite_kept) | (with_reducible apply State.zSend_kept) | (with_reducible apply State.setRed_kept)
    | (with_reducible apply State.slowCombine_kept) | (with_reducible refine Kept.foldl ?_ (fun _ _ _ => ?_) _)
    | (with_reducible refine Kept.foldl1 ?_ (fun _ _ _ => ?_) _) | (with_reducible apply Kept.ite) | split

theorem State.slowSend_kept {z s : State} (h : Kept z s) (p n i epoch : Nat) (b : Bunt) (g : List Byte) :
    Kept z (State.slowSend s p n i epoch b g) := by
  unfold State.slowSend
  try dsimp only
  repeat' first
    | (with_reducible assumption) | (intro _) | (simp only [kept_mk]; with_reducible apply Kept.upd)
    | (with_reducible apply State.memRead_kept) | (with_reducible apply State.zSend_kept)
    | (with_reducible apply State.forceSkip_kept) | (with_reducible apply State.setRed_kept)
    | (with_reducible apply State.slowTry_kept) | (with_reducible refine Kept.foldl ?_ (fun _ _ _ => ?_) _)
    | (with_reducible refine Kept.foldl1 ?_ (fun _ _ _ => ?_) _) | (with_reducible apply Kept.ite) | (dsimp only) | split
    | (refine Kept.ofFst (by assumption) ?_) | (refine Kept.ofSnd (by assumption) ?_)

theorem State.sqReduceGo_kept {z s : State} (h : Kept z s) (p : Nat) (h : SHdr) (b : Bunt) (i : Nat) (e : SEnt) :
    Kept z (State.sqReduceGo s p h b i e) := by
  unfold State.sqReduceGo
  try dsimp only
  repeat' first
    | (with_reducible assumption) | (simp only [kept_mk]; with_reducible apply Kept.upd) | (with_reducible apply State.setRed_kept)
    | (with_reducible apply State.reduceTry_kept) | (with_reducible apply State.reduceOne_kept)
    | (with_reducible apply State.reduceSend_kept) | (with_reducible apply State.slowSend_kept)
    | (with_reducible refine Kept.foldl ?_ (fun _ _ _ => ?_) _) | (with_reducible refine Kept.foldl1 ?_ (fun _ _ _ => ?_) _)
    | (with_reducible apply Kept.ite) | split

theorem State.segmentArrival_kept {z s : State} (h : Kept z s) (p n i j : Nat) :
    Kept z (State.segmentArrival s p n i j) := by
  unfold State.segmentArrival
  try dsimp only
  repeat' first
    | (with_reducible assumption) | (simp only [kept_mk]; with_reducible apply Kept.upd) | (with_reducible apply State.setRed_kept)
    | (with_reducible apply State.reduceTry_kept) | (with_reducible apply Kept.ite) | split

theorem State.resultArrival_kept {z s : State} (h : Kept z s) (p n i j : Nat) :
    Kept z (State.resultArrival s p n i j) := by
  unfold State.resultArrival
  try dsimp only
  repeat' first
    | (with_reducible assumption) | (simp only [kept_mk]; with_reducible apply Kept.upd) | (with_reducible apply State.setRed_kept)
    | (with_reducible apply State.reduceCheck_kept) | (with_reducible apply Kept.ite) | split

theorem State.slowArrival_kept {z s : State} (h : Kept z s) (p n i j : Nat) (sum : Bool) (recs : List (List Byte)) :
    Kept z (State.slowArrival s p n i j sum recs) := by
  unfold State.slowArrival
  try dsimp only
  repeat' first
    | (with_reducible assumption) | (intro _) | (simp only [kept_mk]; with_reducible apply Kept.upd)
    | (with_reducible apply State.memPut_kept) | (with_reducible apply State.setRed_kept)
    | (with_reducible apply State.slowCombine_kept) | (with_reducible apply State.slowTry_kept) | (with_reducible apply Kept.ite)
    | split

theorem State.freqDecide_kept {z s : State} (h : Kept z s) (p n : Nat) (b : Bunt) :
    Kept z (State.freqDecide s p n b) := by
  unfold State.freqDecide
  try dsimp only
  repeat' first
    | (with_reducible assumption) | (intro _) | (simp only [kept_mk]; with_reducible apply Kept.upd)
    | (with_reducible apply State.setSqp_kept) | (with_reducible apply State.toMember_kept)
    | (with_reducible refine Kept.foldl ?_ (fun _ _ _ => ?_) _) | (with_reducible refine Kept.foldl1 ?_ (fun _ _ _ => ?_) _)
    | (with_reducible apply Kept.ite) | split

theorem State.combine_kept {z s : State} (h : Kept z s) (p n : Nat) (b : Bunt) :
    Kept z (State.combine s p n b) := by
  unfold State.combine
  try dsimp only
  repeat' first
    | (with_reducible assumption) | (intro _) | (simp only [kept_mk]; with_reducible apply Kept.upd)
    | (with_reducible apply State.setSqp_kept) | (with_reducible apply State.toMember_kept)
    | (with_reducible apply State.sqFault_kept) | (with_reducible refine Kept.foldl ?_ (fun _ _ _ => ?_) _)
    | (with_reducible refine Kept.foldl1 ?_ (fun _ _ _ => ?_) _) | (with_reducible apply Kept.ite) | split

theorem State.sqCloseGo_kept {z s : State} (h : Kept z s) (p : Nat) (b : Bunt) :
    Kept z (State.sqCloseGo s p b) := by
  unfold State.sqCloseGo
  try dsimp only
  repeat' first
    | (with_reducible assumption) | (simp only [kept_mk]; with_reducible apply Kept.upd) | (with_reducible apply State.setSqp_kept)
    | (with_reducible apply State.toMember_kept) | (with_reducible apply State.nwItems_kept)
    | (with_reducible apply State.freqDecide_kept) | (with_reducible apply State.combine_kept)
    | (with_reducible apply State.propose_kept) | (with_reducible apply Kept.ite) | (dsimp only) | split
    | (refine Kept.ofFst (by assumption) ?_) | (refine Kept.ofSnd (by assumption) ?_)

theorem State.reportArrival_kept {z s : State} (h : Kept z s) (p n i : Nat) :
    Kept z (State.reportArrival s p n i) := by
  unfold State.reportArrival
  try dsimp only
  repeat' first
    | (with_reducible assumption) | (simp only [kept_mk]; with_reducible apply Kept.upd) | (with_reducible apply State.setSqp_kept)
    | (with_reducible apply State.freqDecide_kept) | (with_reducible apply State.combine_kept) | (with_reducible apply Kept.ite)
    | split

theorem State.closeArrival_kept {z s : State} (h : Kept z s) (p n i : Nat) :
    Kept z (State.closeArrival s p n i) := by
  unfold State.closeArrival
  try dsimp only
  repeat' first
    | (with_reducible assumption) | (simp only [kept_mk]; with_reducible apply Kept.upd) | (with_reducible apply State.setSqp_kept)
    | (with_reducible apply State.freqDecide_kept) | (with_reducible apply State.combine_kept) | (with_reducible apply Kept.ite)
    | split

theorem State.combinedArrival_kept {z s : State} (h : Kept z s) (p : Nat) :
    Kept z (State.combinedArrival s p) := by
  unfold State.combinedArrival
  try dsimp only
  repeat' first
    | (with_reducible assumption) | (intro _) | (simp only [kept_mk]; with_reducible apply Kept.upd)
    | (with_reducible apply State.setSqp_kept) | (with_reducible apply State.sqEntryDone_kept)
    | (with_reducible apply State.nwBoundary_kept) | (with_reducible apply State.ligFlag_kept)
    | (with_reducible refine Kept.foldl ?_ (fun _ _ _ => ?_) _) | (with_reducible refine Kept.foldl1 ?_ (fun _ _ _ => ?_) _)
    | (with_reducible apply Kept.ite) | (dsimp only) | split | (refine Kept.ofFst (by assumption) ?_)
    | (refine Kept.ofSnd (by assumption) ?_)

theorem State.zeroBank_kept {z s : State} (h : Kept z s) (p n : Nat) :
    Kept z (State.zeroBank s p n) := by
  unfold State.zeroBank
  try dsimp only
  repeat' first
    | (with_reducible assumption) | (intro _) | (with_reducible apply State.fset_kept)
    | (with_reducible refine Kept.foldl ?_ (fun _ _ _ => ?_) _) | (with_reducible refine Kept.foldl1 ?_ (fun _ _ _ => ?_) _)

theorem State.takeAgreed_kept {z s : State} (h : Kept z s) (p n : Nat) :
    Kept z (State.takeAgreed s p n) := by
  unfold State.takeAgreed
  try dsimp only
  repeat' first
    | (with_reducible assumption) | (simp only [kept_mk]; with_reducible apply Kept.upd) | (with_reducible apply State.fset_kept)
    | (with_reducible apply State.retarget_kept) | (with_reducible apply Kept.ite) | split

theorem State.enterStep_kept {z s : State} (h : Kept z s) (p : Nat) :
    Kept z (State.enterStep s p) := by
  unfold State.enterStep
  try dsimp only
  repeat' first
    | (with_reducible assumption) | (intro _) | (simp only [kept_mk]; with_reducible apply Kept.upd)
    | (with_reducible apply State.fsets_kept) | (with_reducible apply State.setSqp_kept) | (with_reducible apply State.zeroBank_kept)
    | (with_reducible apply State.takeAgreed_kept) | (with_reducible apply State.latchEnergy_kept)

theorem State.sqEnable_kept {z s : State} (h : Kept z s) (p : Nat) :
    Kept z (State.sqEnable s p) := by
  unfold State.sqEnable
  try dsimp only
  repeat' first
    | (with_reducible assumption) | (simp only [kept_mk]; with_reducible apply Kept.upd) | (with_reducible apply State.fset_kept)
    | (with_reducible apply State.fsets_kept) | (with_reducible apply State.setNwp_kept) | (with_reducible apply State.setSqp_kept)
    | (with_reducible apply State.buntKeep_kept) | (with_reducible apply State.nwFrom_kept)
    | (with_reducible apply State.retarget_kept) | (with_reducible apply State.sqHeadFault_kept)
    | (with_reducible apply State.zeroBank_kept) | (with_reducible apply Kept.ite) | split

theorem State.sqDisable_kept {z s : State} (h : Kept z s) (p : Nat) :
    Kept z (State.sqDisable s p) := by
  unfold State.sqDisable
  repeat' first
    | (with_reducible assumption) | (with_reducible apply State.fsets_kept) | (with_reducible apply State.retarget_kept)
    | (with_reducible apply Kept.ite) | split

theorem State.sqResume_kept {z s : State} (h : Kept z s) (p : Nat) :
    Kept z (State.sqResume s p) := by
  unfold State.sqResume
  try dsimp only
  repeat' first
    | (with_reducible assumption) | (with_reducible apply State.fset_kept) | (with_reducible apply State.sqHeadFault_kept)
    | (with_reducible apply Kept.ite) | split

theorem State.sqCancel_kept {z s : State} (h : Kept z s) (p : Nat) :
    Kept z (State.sqCancel s p) := by
  unfold State.sqCancel
  repeat' first
    | (with_reducible assumption) | (with_reducible apply State.fset_kept)

theorem State.epochRequest_kept {z s : State} (h : Kept z s) (p v : Nat) :
    Kept z (State.epochRequest s p v) := by
  unfold State.epochRequest
  repeat' first
    | (with_reducible assumption) | (with_reducible apply State.fsets_kept)

theorem State.sqRun_kept {z s : State} (h : Kept z s) (p kind : Nat) (go : State → SHdr → Bunt → Nat → SEnt → State) (hgo : ∀ s a0 a1 a2 a3, Kept z s → Kept z (go s a0 a1 a2 a3)) :
    Kept z (State.sqRun s p kind go) := by
  unfold State.sqRun
  try dsimp only
  repeat' first
    | (with_reducible assumption) | (with_reducible apply hgo) | (simp only [kept_mk]; with_reducible apply Kept.upd)
    | (with_reducible apply State.memSee_kept) | (with_reducible apply State.sqFault_kept)
    | (with_reducible apply State.sqRelease_kept) | (with_reducible apply Kept.ite) | split

theorem State.sqStall_kept {z s : State} (h : Kept z s) (p : Nat) :
    Kept z (State.sqStall s p) := by
  unfold State.sqStall
  try dsimp only
  repeat' first
    | (with_reducible assumption) | (intro _) | (with_reducible apply State.fset_kept) | (with_reducible apply Kept.ite) | split

end Sys2Proof.Machine
end

