-- ==== Sys2Proof/Laws/KeptPalimpsest.lean ====
section
/-!
SUPPORT. The operations of Machine/Palimpsest.lean keep the fuses, the queue and the canonical form of the memories.
-/
namespace Sys2Proof.Machine

theorem State.palFault_kept {z s : State} (h : Kept z s) (p code slot tensor line : Nat) :
    Kept z (State.palFault s p code slot tensor line) := by
  unfold State.palFault
  try dsimp only
  repeat' first
    | (with_reducible assumption) | (with_reducible apply State.recErr_kept) | (with_reducible apply Kept.ite) | split

theorem State.palArea_kept {z s : State} (h : Kept z s) (p slot a : Nat) :
    Kept z (State.palArea s p slot a) := by
  unfold State.palArea
  repeat' first
    | (with_reducible assumption) | (with_reducible apply State.stray_kept) | (with_reducible apply State.palFault_kept)

theorem State.palIdle_kept {z s : State} (h : Kept z s) (p : Nat) :
    Kept z (State.palIdle s p) := by
  unfold State.palIdle
  try dsimp only
  repeat' first
    | (with_reducible assumption) | (with_reducible apply State.fsets_kept)

theorem State.diverged_kept {z s : State} (h : Kept z s) (p t code : Nat) :
    Kept z (State.diverged s p t code) := by
  unfold State.diverged
  try dsimp only
  repeat' first
    | (with_reducible assumption) | (simp only [kept_mk]; with_reducible apply Kept.upd) | (with_reducible apply State.fset_kept)
    | (with_reducible apply State.setPp_kept) | (with_reducible apply State.noteEv_kept) | (with_reducible apply State.memPut_kept)
    | (with_reducible apply State.palFault_kept) | (with_reducible apply State.palIdle_kept)

theorem State.setDigestState_kept {z s : State} (h : Kept z s) (p t v : Nat) :
    Kept z (State.setDigestState s p t v) := by
  unfold State.setDigestState
  repeat' first
    | (with_reducible assumption) | (with_reducible apply State.memPut_kept)

theorem State.palPut_kept {z s : State} (h : Kept z s) (p a : Nat) (bs : List Byte) :
    Kept z (State.palPut s p a bs) := by
  unfold State.palPut
  try dsimp only
  repeat' first
    | (with_reducible assumption) | (simp only [kept_mk]; with_reducible apply Kept.upd) | (with_reducible apply State.finc_kept)
    | (with_reducible apply State.memPut_kept) | (with_reducible apply State.hostWrite_kept) | split

theorem State.copyV_kept {z s : State} (h : Kept z s) (p t : Nat) (e : List Byte) :
    Kept z (State.copyV s p t e) := by
  unfold State.copyV
  repeat' first
    | (with_reducible assumption) | (with_reducible apply State.memPut_kept)

theorem State.sendRec_kept {z s : State} (h : Kept z s) (p conn : Nat) (cb : ZCb) (r : List Byte) :
    Kept z (State.sendRec s p conn cb r) := by
  unfold State.sendRec
  try dsimp only
  repeat' first
    | (with_reducible assumption) | (simp only [kept_mk]; with_reducible apply Kept.upd) | (with_reducible apply State.finc_kept)
    | (with_reducible apply State.zSend_kept)

theorem State.streamRec_kept {z s : State} (h : Kept z s) (p : Nat) (cb : ZCb) (mk : Nat → List Byte) :
    Kept z (State.streamRec s p cb mk) := by
  unfold State.streamRec
  try dsimp only
  repeat' first
    | (with_reducible assumption) | (simp only [kept_mk]; with_reducible apply Kept.upd) | (with_reducible apply State.finc_kept)
    | (with_reducible apply State.sendRec_kept) | split

theorem State.describeSend_kept {z s : State} (h : Kept z s) (p : Nat) (room : State → Bool) :
    Kept z (State.describeSend s p room) := by
  unfold State.describeSend
  try dsimp only
  repeat' first
    | (with_reducible assumption) | (intro _) | (simp only [kept_mk]; with_reducible apply Kept.upd)
    | (with_reducible apply State.setPp_kept) | (with_reducible apply State.streamRec_kept)
    | (with_reducible refine Kept.foldl ?_ (fun _ _ _ => ?_) _) | (with_reducible refine Kept.foldl1 ?_ (fun _ _ _ => ?_) _)
    | (with_reducible apply Kept.ite) | split

theorem State.palReseed_kept {z s : State} (h : Kept z s) (p : Nat) :
    Kept z (State.palReseed s p) := by
  unfold State.palReseed
  try dsimp only
  repeat' first
    | (with_reducible assumption) | (intro _) | (simp only [kept_mk]; with_reducible apply Kept.upd)
    | (with_reducible apply State.fsets_kept) | (with_reducible apply State.setPp_kept) | (with_reducible apply State.memPut_kept)
    | (with_reducible apply Kept.ite) | split

theorem State.sealStart_kept {z s : State} (h : Kept z s) (p : Nat) :
    Kept z (State.sealStart s p) := by
  unfold State.sealStart
  try dsimp only
  repeat' first
    | (with_reducible assumption) | (simp only [kept_mk]; with_reducible apply Kept.upd) | (with_reducible apply State.setPp_kept)
    | (with_reducible apply State.palIdle_kept)

theorem State.mirrorSet_kept {z s : State} (h : Kept z s) (p : Nat) :
    Kept z (State.mirrorSet s p) := by
  unfold State.mirrorSet
  try dsimp only
  repeat' first
    | (with_reducible assumption) | (simp only [kept_mk]; with_reducible apply Kept.upd) | (with_reducible apply State.fset_kept)
    | (with_reducible apply State.palFault_kept) | (with_reducible apply Kept.ite) | split

theorem State.palEnable_kept {z s : State} (h : Kept z s) (p : Nat) :
    Kept z (State.palEnable s p) := by
  unfold State.palEnable
  try dsimp only
  repeat' first
    | (with_reducible assumption) | (simp only [kept_mk]; with_reducible apply Kept.upd) | (with_reducible apply State.fset_kept)
    | (with_reducible apply State.palArea_kept) | (with_reducible apply State.palIdle_kept)
    | (with_reducible apply State.palReseed_kept) | (with_reducible apply State.sealStart_kept)
    | (with_reducible apply State.mirrorSet_kept) | (with_reducible apply Kept.ite) | split

theorem State.palDisable_kept {z s : State} (h : Kept z s) (p : Nat) :
    Kept z (State.palDisable s p) := by
  unfold State.palDisable
  try dsimp only
  repeat' first
    | (with_reducible assumption) | (simp only [kept_mk]; with_reducible apply Kept.upd) | (with_reducible apply State.fsets_kept)
    | (with_reducible apply State.setPp_kept) | (with_reducible apply State.palIdle_kept) | (with_reducible apply Kept.ite) | split

theorem State.tableHeal_kept {z s : State} (h : Kept z s) (p cnt : Nat) :
    Kept z (State.tableHeal s p cnt) := by
  unfold State.tableHeal
  try dsimp only
  repeat' first
    | (with_reducible assumption) | (intro _) | (with_reducible apply State.memPut_kept)
    | (with_reducible refine Kept.foldl ?_ (fun _ _ _ => ?_) _) | (with_reducible refine Kept.foldl1 ?_ (fun _ _ _ => ?_) _)
    | (with_reducible apply Kept.ite) | split

theorem State.sealDone_kept {z s : State} (h : Kept z s) (p : Nat) :
    Kept z (State.sealDone s p) := by
  unfold State.sealDone
  try dsimp only
  repeat' first
    | (with_reducible assumption) | (intro _) | (simp only [kept_mk]; with_reducible apply Kept.upd)
    | (with_reducible apply State.fsets_kept) | (with_reducible apply State.setPp_kept) | (with_reducible apply State.memPut_kept)
    | (with_reducible apply State.forceSkip_kept) | (with_reducible apply State.shardDigest_kept)
    | (with_reducible apply State.sqEnable_kept) | (with_reducible apply State.palIdle_kept)
    | (with_reducible apply State.setDigestState_kept) | (with_reducible apply State.copyV_kept)
    | (with_reducible apply State.palReseed_kept) | (with_reducible apply State.tableHeal_kept)
    | (with_reducible refine Kept.foldl ?_ (fun _ _ _ => ?_) _) | (with_reducible refine Kept.foldl1 ?_ (fun _ _ _ => ?_) _)
    | (with_reducible apply Kept.ite) | (dsimp only) | split | (refine Kept.ofFst (by assumption) ?_)
    | (refine Kept.ofSnd (by assumption) ?_)

theorem State.setVer_kept {z s : State} (h : Kept z s) (p : Nat) (slow : Bool) (v : Option PalV) :
    Kept z (State.setVer s p slow v) := by
  unfold State.setVer
  try dsimp only
  repeat' first
    | (with_reducible assumption) | (simp only [kept_mk]; with_reducible apply Kept.upd) | (with_reducible apply State.setPp_kept)
    | (with_reducible apply Kept.ite) | split

theorem State.digestOut_kept {z s : State} (h : Kept z s) (p : Nat) (slow : Bool) (b : Bunt) (m : List Byte) :
    Kept z (State.digestOut s p slow b m) := by
  unfold State.digestOut
  try dsimp only
  repeat' first
    | (with_reducible assumption) | (intro _) | (with_reducible apply State.toMember_kept)
    | (with_reducible refine Kept.foldl ?_ (fun _ _ _ => ?_) _) | (with_reducible refine Kept.foldl1 ?_ (fun _ _ _ => ?_) _)
    | (with_reducible apply Kept.ite) | (dsimp only) | split | (refine Kept.ofFst (by assumption) ?_)
    | (refine Kept.ofSnd (by assumption) ?_)

theorem State.startFix_kept {z s : State} (h : Kept z s) (p t mode conn : Nat) (slow : Bool) :
    Kept z (State.startFix s p t mode conn slow) := by
  unfold State.startFix
  try dsimp only
  repeat' first
    | (with_reducible assumption) | (simp only [kept_mk]; with_reducible apply Kept.upd) | (with_reducible apply State.setPp_kept)
    | (with_reducible apply State.zSend_kept) | (with_reducible apply State.palIdle_kept)
    | (with_reducible apply State.setDigestState_kept) | split

theorem State.agree_kept {z s : State} (h : Kept z s) (p t : Nat) (slow : Bool) :
    Kept z (State.agree s p t slow) := by
  unfold State.agree
  try dsimp only
  repeat' first
    | (with_reducible assumption) | (simp only [kept_mk]; with_reducible apply Kept.upd)
    | (with_reducible apply State.setDigestState_kept) | (with_reducible apply State.setVer_kept) | split

theorem State.fixSource_kept {z s : State} (h : Kept z s) (p t : Nat) :
    Kept z (State.fixSource s p t) := by
  unfold State.fixSource
  try dsimp only
  repeat' first
    | (with_reducible assumption) | (simp only [kept_mk]; with_reducible apply Kept.upd) | (with_reducible apply State.diverged_kept)
    | (with_reducible apply State.startFix_kept) | split

theorem State.decideTensor_kept {z s : State} (h : Kept z s) (p t : Nat) (slow : Bool) (b : Bunt) (vals : List (Option Nat)) (mine : Option Nat) (again : Bool) :
    Kept z (State.decideTensor s p t slow b vals mine again) := by
  unfold State.decideTensor
  try dsimp only
  repeat' first
    | (with_reducible assumption) | (intro _) | (simp only [kept_mk]; with_reducible apply Kept.upd)
    | (with_reducible apply State.diverged_kept) | (with_reducible apply State.startFix_kept)
    | (with_reducible apply State.agree_kept) | (with_reducible apply State.again_kept) | (with_reducible apply Kept.ite) | split

theorem State.decideAll_kept {z s : State} (h : Kept z s) (p : Nat) (slow : Bool) :
    Kept z (State.decideAll s p slow) := by
  unfold State.decideAll
  try dsimp only
  repeat' first
    | (with_reducible assumption) | (intro _) | (simp only [kept_mk]; with_reducible apply Kept.upd)
    | (with_reducible apply State.setVer_kept) | (with_reducible apply State.decideTensor_kept)
    | (with_reducible refine Kept.foldl ?_ (fun _ _ _ => ?_) _) | (with_reducible refine Kept.foldl1 ?_ (fun _ _ _ => ?_) _)
    | (with_reducible apply Kept.ite) | (dsimp only) | split | (refine Kept.ofFst (by assumption) ?_)
    | (refine Kept.ofSnd (by assumption) ?_)

theorem State.digestSend_kept {z s : State} (h : Kept z s) (p : Nat) (slow : Bool) (step : Nat) (lists : NMap (Nat × Nat)) :
    Kept z (State.digestSend s p slow step lists) := by
  unfold State.digestSend
  try dsimp only
  repeat' first
    | (with_reducible assumption) | (intro _) | (simp only [kept_mk]; with_reducible apply Kept.upd)
    | (with_reducible apply State.setPp_kept) | (with_reducible apply State.setVer_kept) | (with_reducible apply State.digestOut_kept)
    | (with_reducible apply State.decideAll_kept) | (with_reducible apply Kept.ite) | (dsimp only) | split
    | (refine Kept.ofFst (by assumption) ?_) | (refine Kept.ofSnd (by assumption) ?_)

theorem State.digestArrival_kept {z s : State} (h : Kept z s) (p r step : Nat) (slow : Bool) :
    Kept z (State.digestArrival s p r step slow) := by
  unfold State.digestArrival
  try dsimp only
  repeat' first
    | (with_reducible assumption) | (intro _) | (simp only [kept_mk]; with_reducible apply Kept.upd)
    | (with_reducible apply State.setPp_kept) | (with_reducible apply State.decideTensor_kept)
    | (with_reducible apply State.decideAll_kept) | (with_reducible refine Kept.foldl ?_ (fun _ _ _ => ?_) _)
    | (with_reducible refine Kept.foldl1 ?_ (fun _ _ _ => ?_) _) | (with_reducible apply Kept.ite) | (dsimp only) | split
    | (refine Kept.ofFst (by assumption) ?_) | (refine Kept.ofSnd (by assumption) ?_)

theorem State.scrub_kept {z s : State} (h : Kept z s) (p : Nat) (v : PalV) :
    Kept z (State.scrub s p v) := by
  unfold State.scrub
  try dsimp only
  repeat' first
    | (with_reducible assumption) | (intro _) | (simp only [kept_mk]; with_reducible apply Kept.upd)
    | (with_reducible apply State.shardDigest_kept) | (with_reducible apply State.reform_kept)
    | (with_reducible apply State.setDigestState_kept) | (with_reducible apply State.setVer_kept)
    | (with_reducible apply State.fixSource_kept) | (with_reducible refine Kept.foldl ?_ (fun _ _ _ => ?_) _)
    | (with_reducible refine Kept.foldl1 ?_ (fun _ _ _ => ?_) _) | (with_reducible apply Kept.ite) | (dsimp only) | split
    | (refine Kept.ofFst (by assumption) ?_) | (refine Kept.ofSnd (by assumption) ?_)

theorem State.stepVerified_kept {z s : State} (h : Kept z s) (p : Nat) (slow : Bool) :
    Kept z (State.stepVerified s p slow) := by
  unfold State.stepVerified
  try dsimp only
  repeat' first
    | (with_reducible assumption) | (intro _) | (simp only [kept_mk]; with_reducible apply Kept.upd)
    | (with_reducible apply State.fset_kept) | (with_reducible apply State.setPp_kept) | (with_reducible apply State.copyV_kept)
    | (with_reducible apply State.setVer_kept) | (with_reducible apply State.scrub_kept)
    | (with_reducible refine Kept.foldl ?_ (fun _ _ _ => ?_) _) | (with_reducible refine Kept.foldl1 ?_ (fun _ _ _ => ?_) _)
    | (with_reducible apply Kept.ite) | split

theorem State.palAcked_kept {z s : State} (h : Kept z s) (p : Nat) (slow : Bool) (step : Nat) :
    Kept z (State.palAcked s p slow step) := by
  unfold State.palAcked
  try dsimp only
  repeat' first
    | (with_reducible assumption) | (simp only [kept_mk]; with_reducible apply Kept.upd) | (with_reducible apply State.setVer_kept)
    | (with_reducible apply Kept.ite) | split

theorem State.scanPass_kept {z s : State} (h : Kept z s) (p d next : Nat) :
    Kept z (State.scanPass s p d next) := by
  unfold State.scanPass
  try dsimp only
  repeat' first
    | (with_reducible assumption) | (intro _) | (simp only [kept_mk]; with_reducible apply Kept.upd)
    | (with_reducible apply State.setPp_kept) | (dsimp only) | split | (refine Kept.ofFst (by assumption) ?_)
    | (refine Kept.ofSnd (by assumption) ?_)

theorem State.commitSend_kept {z s : State} (h : Kept z s) (p : Nat) (slow : Bool) (applied slots : Nat) (v : PalV) :
    Kept z (State.commitSend s p slow applied slots v).1 := by
  unfold State.commitSend
  try dsimp only
  repeat' first
    | (with_reducible assumption) | (intro _) | (simp only [kept_mk]; with_reducible apply Kept.upd)
    | (with_reducible apply State.streamRec_kept) | (with_reducible refine Kept.foldl ?_ (fun _ _ _ => ?_) _)
    | (with_reducible refine Kept.foldl1 ?_ (fun _ _ _ => ?_) _) | (with_reducible apply Kept.ite) | (with_reducible apply Kept.ite1)
    | (with_reducible apply Kept.ite2) | (dsimp only) | split | (refine Kept.ofFst (by assumption) ?_)
    | (refine Kept.ofSnd (by assumption) ?_)

theorem State.verifySend_kept {z s : State} (h : Kept z s) (p : Nat) (slow : Bool) (applied slots : Nat) (v : PalV) :
    Kept z (State.verifySend s p slow applied slots v).1 := by
  unfold State.verifySend
  try dsimp only
  repeat' first
    | (with_reducible assumption) | (intro _) | (simp only [kept_mk]; with_reducible apply Kept.upd)
    | (with_reducible apply State.fset_kept) | (with_reducible apply State.setPp_kept) | (with_reducible apply State.streamRec_kept)
    | (with_reducible apply Kept.ite) | (with_reducible apply Kept.ite1) | (with_reducible apply Kept.ite2) | (dsimp only) | split
    | (refine Kept.ofFst (by assumption) ?_) | (refine Kept.ofSnd (by assumption) ?_)

theorem State.marksSend_kept {z s : State} (h : Kept z s) (p : Nat) (slow : Bool) (applied slots : Nat) (v : PalV) :
    Kept z (State.marksSend s p slow applied slots v).1 := by
  unfold State.marksSend
  try dsimp only
  repeat' first
    | (with_reducible assumption) | (with_reducible apply State.commitSend_kept) | (with_reducible apply State.verifySend_kept)
    | (dsimp only) | split | (refine Kept.ofFst (by assumption) ?_) | (refine Kept.ofSnd (by assumption) ?_)

theorem State.tierSend_kept {z s : State} (h : Kept z s) (p : Nat) (slow : Bool) (applied slots : Nat) :
    Kept z (State.tierSend s p slow applied slots) := by
  unfold State.tierSend
  try dsimp only
  repeat' first
    | (with_reducible assumption) | (simp only [kept_mk]; with_reducible apply Kept.upd) | (with_reducible apply State.setVer_kept)
    | (with_reducible apply State.marksSend_kept) | (dsimp only) | split | (refine Kept.ofFst (by assumption) ?_)
    | (refine Kept.ofSnd (by assumption) ?_)

theorem State.allSend_kept {z s : State} (h : Kept z s) (p applied slots : Nat) :
    Kept z (State.allSend s p applied slots) := by
  unfold State.allSend
  try dsimp only
  repeat' first
    | (with_reducible assumption) | (simp only [kept_mk]; with_reducible apply Kept.upd) | (with_reducible apply State.setPp_kept)
    | (with_reducible apply State.marksSend_kept) | (with_reducible apply State.tierSend_kept) | (with_reducible apply Kept.ite)
    | (dsimp only) | split | (refine Kept.ofFst (by assumption) ?_) | (refine Kept.ofSnd (by assumption) ?_)

theorem State.scanNext_kept {z s : State} (h : Kept z s) (p : Nat) :
    Kept z (State.scanNext s p) := by
  unfold State.scanNext
  try dsimp only
  repeat' first
    | (with_reducible assumption) | (intro _) | (simp only [kept_mk]; with_reducible apply Kept.upd)
    | (with_reducible apply State.setDirty_kept) | (with_reducible apply State.palRead_kept)
    | (with_reducible apply State.streamRec_kept) | (with_reducible apply State.scanPass_kept) | (dsimp only) | split
    | (refine Kept.ofFst (by assumption) ?_) | (refine Kept.ofSnd (by assumption) ?_)

theorem State.dirtyScan_kept {z s : State} (h : Kept z s) (p applied slots : Nat) :
    Kept z (State.dirtyScan s p applied slots) := by
  unfold State.dirtyScan
  try dsimp only
  repeat' first
    | (with_reducible assumption) | (intro _) | (simp only [kept_mk]; with_reducible apply Kept.upd)
    | (with_reducible apply State.setPp_kept) | (with_reducible apply State.describeSend_kept)
    | (with_reducible apply State.palReseed_kept) | (with_reducible apply State.allSend_kept)
    | (with_reducible apply State.scanNext_kept) | (with_reducible apply Kept.ite) | split

theorem State.sendShard_kept {z s : State} (h : Kept z s) (p conn t : Nat) :
    Kept z (State.sendShard s p conn t) := by
  unfold State.sendShard
  try dsimp only
  repeat' first
    | (with_reducible assumption) | (intro _) | (simp only [kept_mk]; with_reducible apply Kept.upd)
    | (with_reducible apply State.palRead_kept) | (with_reducible apply State.sendRec_kept)
    | (with_reducible refine Kept.foldl ?_ (fun _ _ _ => ?_) _) | (with_reducible refine Kept.foldl1 ?_ (fun _ _ _ => ?_) _)
    | (dsimp only) | split | (refine Kept.ofFst (by assumption) ?_) | (refine Kept.ofSnd (by assumption) ?_)

theorem State.setMslot_kept {z s : State} (h : Kept z s) (p n : Nat) (m : MSlot) :
    Kept z (State.setMslot s p n m) := by
  unfold State.setMslot
  try dsimp only
  repeat' first
    | (with_reducible assumption) | (simp only [kept_mk]; with_reducible apply Kept.upd) | (with_reducible apply State.setPp_kept)

theorem State.msServe_kept {z s : State} (h : Kept z s) (p n conn t : Nat) :
    Kept z (State.msServe s p n conn t) := by
  unfold State.msServe
  try dsimp only
  repeat' first
    | (with_reducible assumption) | (intro _) | (simp only [kept_mk]; with_reducible apply Kept.upd)
    | (with_reducible apply State.memRead_kept) | (with_reducible apply State.sendRec_kept)
    | (with_reducible refine Kept.foldl ?_ (fun _ _ _ => ?_) _) | (with_reducible refine Kept.foldl1 ?_ (fun _ _ _ => ?_) _)
    | (with_reducible apply Kept.ite) | (dsimp only) | split | (refine Kept.ofFst (by assumption) ?_)
    | (refine Kept.ofSnd (by assumption) ?_)

theorem State.msMove_kept {z s : State} (h : Kept z s) (p n : Nat) (sel : Nat × Nat × Bool → Bool) :
    Kept z (State.msMove s p n sel) := by
  unfold State.msMove
  try dsimp only
  repeat' first
    | (with_reducible assumption) | (intro _) | (simp only [kept_mk]; with_reducible apply Kept.upd)
    | (with_reducible apply State.fset_kept) | (with_reducible apply State.memPut_kept) | (with_reducible apply State.setMslot_kept)
    | (with_reducible refine Kept.foldl ?_ (fun _ _ _ => ?_) _) | (with_reducible refine Kept.foldl1 ?_ (fun _ _ _ => ?_) _)
    | (with_reducible apply Kept.ite) | split

theorem State.msSettle_kept {z s : State} (h : Kept z s) (p n : Nat) :
    Kept z (State.msSettle s p n) := by
  unfold State.msSettle
  try dsimp only
  repeat' first
    | (with_reducible assumption) | (intro _) | (simp only [kept_mk]; with_reducible apply Kept.upd)
    | (with_reducible apply State.fset_kept) | (with_reducible apply State.setMslot_kept) | (with_reducible apply State.msMove_kept)
    | split

theorem State.repairRequest_kept {z s : State} (h : Kept z s) (p : Nat) (slot : Option Nat) (conn t : Nat) (whole : Bool) :
    Kept z (State.repairRequest s p slot conn t whole) := by
  unfold State.repairRequest
  try dsimp only
  repeat' first
    | (with_reducible assumption) | (intro _) | (simp only [kept_mk]; with_reducible apply Kept.upd)
    | (with_reducible apply State.sendShard_kept) | (with_reducible apply State.setMslot_kept)
    | (with_reducible apply State.msServe_kept) | (with_reducible apply State.msSettle_kept)
    | (with_reducible refine Kept.foldl ?_ (fun _ _ _ => ?_) _) | (with_reducible refine Kept.foldl1 ?_ (fun _ _ _ => ?_) _)
    | (with_reducible apply Kept.ite) | split

theorem State.palWrite_kept {z s : State} (h : Kept z s) (p t l a : Nat) (e new : List Byte) :
    Kept z (State.palWrite s p t l a e new) := by
  unfold State.palWrite
  try dsimp only
  repeat' first
    | (with_reducible assumption) | (with_reducible apply State.palRead_kept) | (with_reducible apply State.palSide_kept)
    | (with_reducible apply State.palPut_kept) | (dsimp only) | split | (refine Kept.ofFst (by assumption) ?_)
    | (refine Kept.ofSnd (by assumption) ?_)

theorem State.replayLine_kept {z s : State} (h : Kept z s) (p t step epoch : Nat) (e : List Byte) (l : Nat) (recs : Option (List (List Byte))) :
    Kept z (State.replayLine s p t step epoch e l recs) := by
  unfold State.replayLine
  try dsimp only
  repeat' first
    | (with_reducible assumption) | (intro _) | (simp only [kept_mk]; with_reducible apply Kept.upd)
    | (with_reducible apply State.gradLine_kept) | (with_reducible apply State.palWrite_kept) | (dsimp only) | split
    | (refine Kept.ofFst (by assumption) ?_) | (refine Kept.ofSnd (by assumption) ?_)

theorem State.replay_kept {z s : State} (h : Kept z s) (p t : Nat) (slow : Bool) :
    Kept z (State.replay s p t slow) := by
  unfold State.replay
  try dsimp only
  repeat' first
    | (with_reducible assumption) | (intro _) | (simp only [kept_mk]; with_reducible apply Kept.upd)
    | (with_reducible apply State.setPp_kept) | (with_reducible apply State.memPut_kept)
    | (with_reducible apply State.shardDigest_kept) | (with_reducible apply State.diverged_kept)
    | (with_reducible apply State.digestOut_kept) | (with_reducible apply State.agree_kept)
    | (with_reducible apply State.decideTensor_kept) | (with_reducible apply State.replayLine_kept)
    | (with_reducible refine Kept.foldl ?_ (fun _ _ _ => ?_) _) | (with_reducible refine Kept.foldl1 ?_ (fun _ _ _ => ?_) _)
    | (with_reducible apply Kept.ite) | (dsimp only) | split | (refine Kept.ofFst (by assumption) ?_)
    | (refine Kept.ofSnd (by assumption) ?_)

theorem State.fixTry_kept {z s : State} (h : Kept z s) (p t : Nat) :
    Kept z (State.fixTry s p t) := by
  unfold State.fixTry
  try dsimp only
  repeat' first
    | (with_reducible assumption) | (intro _) | (simp only [kept_mk]; with_reducible apply Kept.upd)
    | (with_reducible apply State.setPp_kept) | (with_reducible apply State.shardDigest_kept)
    | (with_reducible apply State.palIdle_kept) | (with_reducible apply State.diverged_kept)
    | (with_reducible apply State.palReseed_kept) | (with_reducible apply State.sealStart_kept)
    | (with_reducible apply State.agree_kept) | (with_reducible apply State.replay_kept) | (with_reducible apply Kept.ite)
    | (dsimp only) | split | (refine Kept.ofFst (by assumption) ?_) | (refine Kept.ofSnd (by assumption) ?_)

theorem State.fromReplica_kept {z s : State} (h : Kept z s) (p t : Nat) (slow : Bool) :
    Kept z (State.fromReplica s p t slow) := by
  unfold State.fromReplica
  try dsimp only
  repeat' first
    | (with_reducible assumption) | (intro _) | (simp only [kept_mk]; with_reducible apply Kept.upd)
    | (with_reducible apply State.setPp_kept) | (with_reducible apply State.palFault_kept) | (with_reducible apply State.palIdle_kept)
    | (with_reducible apply State.startFix_kept) | split

theorem State.repairRecord_kept {z s : State} (h : Kept z s) (p : Nat) (r : List Byte) :
    Kept z (State.repairRecord s p r) := by
  unfold State.repairRecord
  try dsimp only
  repeat' first
    | (with_reducible assumption) | (intro _) | (simp only [kept_mk]; with_reducible apply Kept.upd)
    | (with_reducible apply State.fsat_kept) | (with_reducible apply State.setPp_kept) | (with_reducible apply State.memPut_kept)
    | (with_reducible apply State.palFault_kept) | (with_reducible apply State.palWrite_kept)
    | (with_reducible apply State.fixTry_kept) | (with_reducible apply State.fromReplica_kept) | (with_reducible apply Kept.ite)
    | split

theorem State.lineForward_kept {z s : State} (h : Kept z s) (p t l : Nat) (e d line : List Byte) :
    Kept z (State.lineForward s p t l e d line).1 := by
  unfold State.lineForward
  try dsimp only
  repeat' first
    | (with_reducible assumption) | (intro _) | (simp only [kept_mk]; with_reducible apply Kept.upd)
    | (with_reducible apply State.gradLine_kept) | (with_reducible apply State.slowRec_kept)
    | (with_reducible refine Kept.foldl ?_ (fun _ _ _ => ?_) _) | (with_reducible refine Kept.foldl1 ?_ (fun _ _ _ => ?_) _)
    | (with_reducible apply Kept.ite) | (with_reducible apply Kept.ite1) | (with_reducible apply Kept.ite2) | (dsimp only) | split
    | (refine Kept.ofFst (by assumption) ?_) | (refine Kept.ofSnd (by assumption) ?_)

theorem State.shardRebuild_kept {z s : State} (h : Kept z s) (p t l a : Nat) (e : List Byte) (mirror replica : Option (List Byte)) :
    Kept z (State.shardRebuild s p t l a e mirror replica) := by
  unfold State.shardRebuild
  try dsimp only
  repeat' first
    | (with_reducible assumption) | (intro _) | (simp only [kept_mk]; with_reducible apply Kept.upd)
    | (with_reducible apply State.palFault_kept) | (with_reducible apply State.palWrite_kept)
    | (with_reducible apply State.lineForward_kept) | (with_reducible apply Kept.ite) | (dsimp only) | split
    | (refine Kept.ofFst (by assumption) ?_) | (refine Kept.ofSnd (by assumption) ?_)

theorem State.lineRebuild_kept {z s : State} (h : Kept z s) (p a : Nat) (mirror replica : Option (List Byte)) :
    Kept z (State.lineRebuild s p a mirror replica) := by
  unfold State.lineRebuild
  try dsimp only
  repeat' first
    | (with_reducible assumption) | (simp only [kept_mk]; with_reducible apply Kept.upd) | (with_reducible apply State.memPut_kept)
    | (with_reducible apply State.palFault_kept) | (with_reducible apply State.shardRebuild_kept) | (with_reducible apply Kept.ite)
    | split

theorem State.msFault_kept {z s : State} (h : Kept z s) (p n code t l : Nat) :
    Kept z (State.msFault s p n code t l) := by
  unfold State.msFault
  repeat' first
    | (with_reducible assumption) | (with_reducible apply State.fset_kept) | (with_reducible apply State.palFault_kept)

theorem State.msDescribe_kept {z s : State} (h : Kept z s) (p n : Nat) (r : List Byte) :
    Kept z (State.msDescribe s p n r) := by
  unfold State.msDescribe
  try dsimp only
  repeat' first
    | (with_reducible assumption) | (simp only [kept_mk]; with_reducible apply Kept.upd) | (with_reducible apply State.fset_kept)
    | (with_reducible apply State.fsets_kept) | (with_reducible apply State.memPut_kept) | (with_reducible apply State.palArea_kept)
    | (with_reducible apply State.setMslot_kept) | (with_reducible apply State.msFault_kept) | (with_reducible apply Kept.ite)
    | split

theorem State.msLog_kept {z s : State} (h : Kept z s) (p n : Nat) (r : List Byte) :
    Kept z (State.msLog s p n r) := by
  unfold State.msLog
  try dsimp only
  repeat' first
    | (with_reducible assumption) | (simp only [kept_mk]; with_reducible apply Kept.upd) | (with_reducible apply State.fset_kept)
    | (with_reducible apply State.memPut_kept) | (with_reducible apply State.palArea_kept)
    | (with_reducible apply State.setMslot_kept) | (with_reducible apply Kept.ite) | split

theorem State.mirrorLine_kept {z s : State} (h : Kept z s) (p n : Nat) (r : List Byte) :
    Kept z (State.mirrorLine s p n r) := by
  unfold State.mirrorLine
  try dsimp only
  repeat' first
    | (with_reducible assumption) | (with_reducible apply State.msFault_kept) | (with_reducible apply State.msLog_kept)
    | (with_reducible apply Kept.ite) | split

theorem State.mirrorEntry_kept {z s : State} (h : Kept z s) (p n : Nat) (r : List Byte) :
    Kept z (State.mirrorEntry s p n r) := by
  unfold State.mirrorEntry
  try dsimp only
  repeat' first
    | (with_reducible assumption) | (with_reducible apply State.msFault_kept) | (with_reducible apply State.msLog_kept)
    | (with_reducible apply Kept.ite) | split

theorem State.mirrorCommit_kept {z s : State} (h : Kept z s) (p n : Nat) (r : List Byte) :
    Kept z (State.mirrorCommit s p n r) := by
  unfold State.mirrorCommit
  try dsimp only
  repeat' first
    | (with_reducible assumption) | (simp only [kept_mk]; with_reducible apply Kept.upd) | (with_reducible apply State.setMslot_kept)
    | (with_reducible apply Kept.ite) | split

theorem State.mirrorVerify_kept {z s : State} (h : Kept z s) (p n : Nat) (r : List Byte) :
    Kept z (State.mirrorVerify s p n r) := by
  unfold State.mirrorVerify
  try dsimp only
  repeat' first
    | (with_reducible assumption) | (simp only [kept_mk]; with_reducible apply Kept.upd) | (with_reducible apply State.setMslot_kept)
    | (with_reducible apply Kept.ite) | split

theorem State.logMoved_kept {z s : State} (h : Kept z s) (p n : Nat) :
    Kept z (State.logMoved s p n) := by
  unfold State.logMoved
  try dsimp only
  repeat' first
    | (with_reducible assumption) | (intro _) | (simp only [kept_mk]; with_reducible apply Kept.upd)
    | (with_reducible apply State.fset_kept) | (with_reducible apply State.setMslot_kept) | (with_reducible apply State.msServe_kept)
    | (with_reducible apply State.msMove_kept) | (with_reducible refine Kept.foldl ?_ (fun _ _ _ => ?_) _)
    | (with_reducible refine Kept.foldl1 ?_ (fun _ _ _ => ?_) _) | (with_reducible apply Kept.ite) | split

theorem State.migrateSend_kept {z s : State} (h : Kept z s) (p : Nat) (x : Nat × Nat × Nat) :
    Kept z (State.migrateSend p s x) := by
  unfold State.migrateSend
  try dsimp only
  repeat' first
    | (with_reducible assumption) | (simp only [kept_mk]; with_reducible apply Kept.upd) | (with_reducible apply State.setSqp_kept)
    | (with_reducible apply State.palRead_kept) | (with_reducible apply State.sendRec_kept) | (dsimp only) | split
    | (refine Kept.ofFst (by assumption) ?_) | (refine Kept.ofSnd (by assumption) ?_)

theorem State.migrateStay_kept {z s : State} (h : Kept z s) (p new : Nat) (x : Nat × Nat) :
    Kept z (State.migrateStay p new s x) := by
  unfold State.migrateStay
  try dsimp only
  repeat' first
    | (with_reducible assumption) | (simp only [kept_mk]; with_reducible apply Kept.upd) | (with_reducible apply State.palWrite_kept)
    | (with_reducible apply Kept.ite) | split

theorem State.migrateGo_kept {z s : State} (h : Kept z s) (p : Nat) :
    Kept z (State.migrateGo s p) := by
  unfold State.migrateGo
  try dsimp only
  repeat' first
    | (with_reducible assumption) | (intro _) | (simp only [kept_mk]; with_reducible apply Kept.upd)
    | (with_reducible apply State.setSqp_kept) | (with_reducible apply State.migrateSend_kept)
    | (with_reducible apply State.migrateStay_kept) | (with_reducible refine Kept.foldl ?_ (fun _ _ _ => ?_) _)
    | (with_reducible refine Kept.foldl1 ?_ (fun _ _ _ => ?_) _)

theorem State.migrateTier_kept {z s : State} (h : Kept z s) (p : Nat) (h : SHdr) (slow : Bool) :
    Kept z (State.migrateTier s p h slow) := by
  unfold State.migrateTier
  try dsimp only
  repeat' first
    | (with_reducible assumption) | (intro _) | (simp only [kept_mk]; with_reducible apply Kept.upd)
    | (with_reducible apply State.setSqp_kept) | (with_reducible apply State.migrateGo_kept)

theorem State.migrateSlow_kept {z s : State} (h : Kept z s) (p : Nat) :
    Kept z (State.migrateSlow s p) := by
  unfold State.migrateSlow
  try dsimp only
  repeat' first
    | (with_reducible assumption) | (simp only [kept_mk]; with_reducible apply Kept.upd)
    | (with_reducible apply State.migrateTier_kept) | (with_reducible apply Kept.ite) | split

theorem State.migrateRecord_kept {z s : State} (h : Kept z s) (p : Nat) (r : List Byte) :
    Kept z (State.migrateRecord s p r) := by
  unfold State.migrateRecord
  try dsimp only
  repeat' first
    | (with_reducible assumption) | (intro _) | (simp only [kept_mk]; with_reducible apply Kept.upd)
    | (with_reducible apply State.setSqp_kept) | (with_reducible apply State.ligFault_kept)
    | (with_reducible apply State.palFault_kept) | (with_reducible apply State.palWrite_kept) | (with_reducible apply Kept.ite)
    | split

theorem State.stepEnd_kept {z s : State} (h : Kept z s) (p : Nat) :
    Kept z (State.stepEnd s p) := by
  unfold State.stepEnd
  try dsimp only
  repeat' first
    | (with_reducible assumption) | (simp only [kept_mk]; with_reducible apply Kept.upd) | (with_reducible apply State.fset_kept)
    | (with_reducible apply State.setSqp_kept) | (with_reducible apply State.sqHeadFault_kept)
    | (with_reducible apply State.enterStep_kept) | (with_reducible apply State.migrateTier_kept)
    | (with_reducible apply State.migrateSlow_kept) | (with_reducible apply Kept.ite) | split

theorem State.migrated_kept {z s : State} (h : Kept z s) (p : Nat) :
    Kept z (State.migrated s p) := by
  unfold State.migrated
  try dsimp only
  repeat' first
    | (with_reducible assumption) | (with_reducible apply State.fsets_kept) | (with_reducible apply State.sqHeadFault_kept)
    | (with_reducible apply State.enterStep_kept) | (with_reducible apply State.palReseed_kept)
    | (with_reducible apply State.sealStart_kept) | (with_reducible apply State.migrateGo_kept)
    | (with_reducible apply State.migrateSlow_kept) | (with_reducible apply Kept.ite) | (dsimp only) | split
    | (refine Kept.ofFst (by assumption) ?_) | (refine Kept.ofSnd (by assumption) ?_)

theorem State.afterStep_kept {z s : State} (h : Kept z s) (before : State) (p : Nat) :
    Kept z (State.afterStep before s p) := by
  unfold State.afterStep
  try dsimp only
  repeat' first
    | (with_reducible assumption) | (simp only [kept_mk]; with_reducible apply Kept.upd)
    | (with_reducible apply State.digestSend_kept) | (with_reducible apply Kept.ite) | split

theorem State.stepCommit_kept {z s : State} (h : Kept z s) (p : Nat) :
    Kept z (State.stepCommit s p) := by
  unfold State.stepCommit
  repeat' first
    | (with_reducible assumption) | (with_reducible apply State.ligCommit_kept) | (with_reducible apply State.afterStep_kept)

theorem State.rollbackDone_kept {z s : State} (h : Kept z s) (p : Nat) :
    Kept z (State.rollbackDone s p) := by
  unfold State.rollbackDone
  repeat' first
    | (with_reducible assumption) | (with_reducible apply State.ligRollback_kept) | (with_reducible apply State.ligSkipEnd_kept)
    | (with_reducible apply State.afterStep_kept) | (with_reducible apply Kept.ite) | split

theorem State.slowDone_kept {z s : State} (h : Kept z s) (p : Nat) :
    Kept z (State.slowDone s p) := by
  unfold State.slowDone
  try dsimp only
  repeat' first
    | (with_reducible assumption) | (intro _) | (with_reducible apply State.slowComplete_kept)
    | (with_reducible apply State.digestSend_kept) | (with_reducible refine Kept.foldl ?_ (fun _ _ _ => ?_) _)
    | (with_reducible refine Kept.foldl1 ?_ (fun _ _ _ => ?_) _) | (with_reducible apply Kept.ite) | split

theorem State.sparesSee_kept {z s : State} (h : Kept z s) (p : Nat) :
    Kept z (State.sparesSee s p) := by
  unfold State.sparesSee
  try dsimp only
  repeat' first
    | (with_reducible assumption) | (simp only [kept_mk]; with_reducible apply Kept.upd) | (with_reducible apply State.palArea_kept)
    | split

theorem State.assignSpare_kept {z s : State} (h : Kept z s) (p i : Nat) :
    Kept z (State.assignSpare s p i) := by
  unfold State.assignSpare
  try dsimp only
  repeat' first
    | (with_reducible assumption) | (simp only [kept_mk]; with_reducible apply Kept.upd) | (with_reducible apply State.fsets_kept)
    | (with_reducible apply State.memPut_kept) | (with_reducible apply State.setMember_kept)
    | (with_reducible apply State.palReseed_kept) | (with_reducible apply State.sparesSee_kept) | (with_reducible apply Kept.ite)
    | split

theorem State.takeoverSend_kept {z s : State} (h : Kept z s) (p i : Nat) :
    Kept z (State.takeoverSend s p i) := by
  unfold State.takeoverSend
  try dsimp only
  repeat' first
    | (with_reducible assumption) | (intro _) | (simp only [kept_mk]; with_reducible apply Kept.upd)
    | (with_reducible apply State.zSend_kept) | (with_reducible apply State.sparesSee_kept)
    | (with_reducible apply State.assignSpare_kept) | (with_reducible refine Kept.foldl ?_ (fun _ _ _ => ?_) _)
    | (with_reducible refine Kept.foldl1 ?_ (fun _ _ _ => ?_) _) | (with_reducible apply Kept.ite) | split

theorem State.takeoverNotice_kept {z s : State} (h : Kept z s) (p : Nat) (note : List Byte) :
    Kept z (State.takeoverNotice s p note) := by
  unfold State.takeoverNotice
  try dsimp only
  repeat' first
    | (with_reducible assumption) | (intro _) | (simp only [kept_mk]; with_reducible apply Kept.upd)
    | (with_reducible apply State.fset_kept) | (with_reducible apply State.noteEv_kept) | (with_reducible apply State.buntPut_kept)
    | (with_reducible apply State.memberLost_kept) | (with_reducible apply State.assignSpare_kept) | (with_reducible apply Kept.ite)
    | split

theorem State.ownState_kept {z s : State} (h : Kept z s) (p n : Nat) :
    Kept z (State.ownState s p n) := by
  unfold State.ownState
  try dsimp only
  repeat' first
    | (with_reducible assumption) | (intro _) | (simp only [kept_mk]; with_reducible apply Kept.upd)
    | (with_reducible apply State.memPut_kept) | (with_reducible apply State.msSettle_kept)
    | (with_reducible apply State.palWrite_kept) | (with_reducible refine Kept.foldl ?_ (fun _ _ _ => ?_) _)
    | (with_reducible refine Kept.foldl1 ?_ (fun _ _ _ => ?_) _) | (with_reducible apply Kept.ite) | split

theorem State.spareRequest_kept {z s : State} (h : Kept z s) (p : Nat) (conn : Option Nat) :
    Kept z (State.spareRequest s p conn) := by
  unfold State.spareRequest
  try dsimp only
  repeat' first
    | (with_reducible assumption) | (intro _) | (simp only [kept_mk]; with_reducible apply Kept.upd)
    | (with_reducible apply State.setPp_kept) | (with_reducible apply State.zSend_kept) | (with_reducible apply State.palFault_kept)
    | (with_reducible apply State.palIdle_kept) | (with_reducible apply State.palReseed_kept)
    | (with_reducible apply State.sealStart_kept) | (with_reducible apply State.fromReplica_kept)
    | (with_reducible apply State.ownState_kept) | (with_reducible refine Kept.foldl ?_ (fun _ _ _ => ?_) _)
    | (with_reducible refine Kept.foldl1 ?_ (fun _ _ _ => ?_) _) | (with_reducible apply Kept.ite) | split

end Sys2Proof.Machine
end

