-- ==== Sys2Proof/Laws/KeptHbm.lean ====
section
/-!
SUPPORT. The operations of Machine/Hbm.lean keep the fuses, the queue and the canonical form of the memories.
-/
namespace Sys2Proof.Machine

theorem State.patrol_kept {z s : State} (h : Kept z s) (c : Nat) (err : Option Nat) :
    Kept z (State.patrol s c err) := by
  unfold State.patrol
  try dsimp only
  repeat' first
    | (with_reducible assumption) | (simp only [kept_mk]; with_reducible apply Kept.upd) | (with_reducible apply State.lineErr_kept)
    | (with_reducible apply State.scrub_kept) | (with_reducible apply Kept.ite) | split

theorem State.mapTrigger_kept {z s : State} (h : Kept z s) (c : Nat) :
    Kept z (State.mapTrigger s c) := by
  unfold State.mapTrigger
  try dsimp only
  repeat' first
    | (with_reducible assumption) | (simp only [kept_mk]; with_reducible apply Kept.upd) | (with_reducible apply State.setChan_kept)
    | (with_reducible apply State.ledFact_kept) | (with_reducible apply Kept.ite) | split

theorem State.ueLimit_kept {z s : State} (h : Kept z s) (c : Nat) :
    Kept z (State.ueLimit s c) := by
  unfold State.ueLimit
  try dsimp only
  repeat' first
    | (with_reducible assumption) | (intro _) | (simp only [kept_mk]; with_reducible apply Kept.upd)
    | (with_reducible apply State.mapTrigger_kept) | (with_reducible refine Kept.foldl ?_ (fun _ _ _ => ?_) _)
    | (with_reducible refine Kept.foldl1 ?_ (fun _ _ _ => ?_) _) | (with_reducible apply Kept.ite) | split

theorem State.trainLoss_kept {z s : State} (h : Kept z s) (c : Nat) :
    Kept z (State.trainLoss s c) := by
  unfold State.trainLoss
  try dsimp only
  repeat' first
    | (with_reducible assumption) | (simp only [kept_mk]; with_reducible apply Kept.upd) | (with_reducible apply State.setChan_kept)
    | (with_reducible apply Kept.ite) | split

theorem State.retrainEnd_kept {z s : State} (h : Kept z s) (c : Nat) (ok : Bool) :
    Kept z (State.retrainEnd s c ok) := by
  unfold State.retrainEnd
  try dsimp only
  repeat' first
    | (with_reducible assumption) | (simp only [kept_mk]; with_reducible apply Kept.upd) | (with_reducible apply State.setChan_kept)
    | (with_reducible apply State.mapTrigger_kept) | (with_reducible apply Kept.ite) | split

theorem State.hbmMapout_kept {z s : State} (h : Kept z s) (v : Nat) :
    Kept z (State.hbmMapout s v) := by
  unfold State.hbmMapout
  repeat' first
    | (with_reducible assumption) | (with_reducible apply State.mapTrigger_kept) | (with_reducible apply Kept.ite) | split

theorem State.chanEv_kept {z s : State} (h : Kept z s) (typ kind o c code detail : Nat) :
    Kept z (State.chanEv s typ kind o c code detail) := by
  unfold State.chanEv
  try dsimp only
  repeat' first
    | (with_reducible assumption) | (intro _) | (simp only [kept_mk]; with_reducible apply Kept.upd)
    | (with_reducible apply State.hbmErr_kept) | (with_reducible apply Kept.ite) | split

theorem State.mapOut_kept {z s : State} (h : Kept z s) (c : Nat) :
    Kept z (State.mapOut s c) := by
  unfold State.mapOut
  try dsimp only
  repeat' first
    | (with_reducible assumption) | (intro _) | (simp only [kept_mk]; with_reducible apply Kept.upd)
    | (with_reducible apply State.setChan_kept) | (with_reducible apply State.chanEv_kept) | (with_reducible apply Kept.ite) | split

theorem State.setTag_kept {z s : State} (h : Kept z s) (c q i : Nat) :
    Kept z (State.setTag s c q i) := by
  unfold State.setTag
  try dsimp only
  repeat' first
    | (with_reducible assumption) | (simp only [kept_mk]; with_reducible apply Kept.upd) | (with_reducible apply Kept.ite) | split

theorem State.remap_kept {z s : State} (h : Kept z s) (o c : Nat) (w w' : Owner) :
    Kept z (State.remap s o c w w') := by
  unfold State.remap
  try dsimp only
  repeat' first
    | (with_reducible assumption) | (intro _) | (simp only [kept_mk]; with_reducible apply Kept.upd) | (with_reducible apply Kept.ite)
    | (dsimp only) | split | (refine Kept.ofFst (by assumption) ?_) | (refine Kept.ofSnd (by assumption) ?_)

theorem State.putLine_kept {z s : State} (h : Kept z s) (o a d : Nat) (bs : List Byte) :
    Kept z (State.putLine s o a d bs) := by
  unfold State.putLine
  try dsimp only
  repeat' first
    | (with_reducible assumption) | (intro _) | (simp only [kept_mk]; with_reducible apply Kept.upd)
    | (simp only [kept_mk]; with_reducible refine Kept.mems ?_ (fun w => by
        obtain ⟨_, _, _, _, _⟩ := State.wf_all w
        refine ⟨?_, ?_, ?_, ?_, ?_⟩ <;> repeat' first
          | with_reducible assumption | exact mwf_nil _ | apply mwf_putBytes | apply mwf_mset | apply mwf_mupd | apply mwf_filter | refine mwf_foldl _ _ (fun _ _ _ => ?_) _ _ ?_ | split | (simp at *; assumption)))
    | (with_reducible apply State.lineGood_kept)

theorem State.putHome_kept {z s : State} (h : Kept z s) (o : Nat) (w : Owner) (x : Nat × List Byte) :
    Kept z (State.putHome o w s x) := by
  unfold State.putHome
  try dsimp only
  repeat' first
    | (with_reducible assumption) | (intro _) | (with_reducible apply State.putLine_kept)
    | (with_reducible refine Kept.elim ?_ (fun _ _ => ?_))

theorem State.relayout_kept {z s : State} (h : Kept z s) (o c : Nat) (w : Owner) (k : Nat) : Kept z (State.relayout s o c w k) := by
  unfold State.relayout
  refine Kept.foldl ((kept_mk z).mpr (Kept.upd ?_)) (fun _ _ h => Kept.foldl h (fun _ _ h => State.setTag_kept h _ _ _) _) _
  exact Kept.foldl (State.remap_kept h _ _ _ _) (fun _ _ h => State.putHome_kept h _ _ _) _

theorem State.palLost_kept {z s : State} (h : Kept z s) (p o : Nat) :
    Kept z (State.palLost s p o) := by
  unfold State.palLost
  try dsimp only
  repeat' first
    | (with_reducible assumption) | (intro _) | (simp only [kept_mk]; with_reducible apply Kept.upd)
    | (with_reducible apply State.fsets_kept) | (with_reducible apply State.setPp_kept) | (with_reducible apply State.memSee_kept)
    | (with_reducible apply State.sealStart_kept) | (with_reducible apply State.setMslot_kept)
    | (with_reducible refine Kept.foldl ?_ (fun _ _ _ => ?_) _) | (with_reducible refine Kept.foldl1 ?_ (fun _ _ _ => ?_) _)
    | (with_reducible apply Kept.ite) | (dsimp only) | split | (refine Kept.ofFst (by assumption) ?_)
    | (refine Kept.ofSnd (by assumption) ?_)

theorem State.mapSwitch_kept {z s : State} (h : Kept z s)  :
    Kept z (State.mapSwitch s) := by
  unfold State.mapSwitch
  try dsimp only
  repeat' first
    | (with_reducible assumption) | (intro _) | (simp only [kept_mk]; with_reducible apply Kept.upd)
    | (with_reducible apply State.setChan_kept) | (with_reducible apply State.forceSkip_kept)
    | (with_reducible apply State.ledFact_kept) | (with_reducible apply State.taskEnd_kept) | (with_reducible apply State.chanEv_kept)
    | (with_reducible apply State.relayout_kept) | (with_reducible apply State.palLost_kept)
    | (with_reducible refine Kept.foldl ?_ (fun _ _ _ => ?_) _) | (with_reducible refine Kept.foldl1 ?_ (fun _ _ _ => ?_) _)
    | (with_reducible apply Kept.ite) | split

theorem State.rekeyPage_kept {z s : State} (h : Kept z s) (c q : Nat) (errs : List Nat) :
    Kept z (State.rekeyPage s c q errs) := by
  unfold State.rekeyPage
  try dsimp only
  repeat' first
    | (with_reducible assumption) | (intro _) | (simp only [kept_mk]; with_reducible apply Kept.upd)
    | (with_reducible apply State.lineErr_kept) | (with_reducible apply State.setTag_kept)
    | (with_reducible refine Kept.foldl ?_ (fun _ _ _ => ?_) _) | (with_reducible refine Kept.foldl1 ?_ (fun _ _ _ => ?_) _)
    | (with_reducible apply Kept.ite) | split

end Sys2Proof.Machine
end

