-- ==== Sys2Proof/Laws/KeptRoutes.lean ====
section
/-!
SUPPORT. The operations of Machine/Routes.lean keep the fuses, the queue and the canonical form of the memories.
-/
namespace Sys2Proof.Machine

theorem State.portRead_kept {z s : State} (h : Kept z s) (p src j a n : Nat) (req : MReq) :
    Kept z (State.portRead s p src j a n req).1 := by
  unfold State.portRead
  try dsimp only
  repeat' first
    | (with_reducible assumption) | (simp only [kept_mk]; with_reducible apply Kept.upd) | (with_reducible apply State.violate_kept)
    | (with_reducible apply State.memRead_kept) | (dsimp only) | split | (refine Kept.ofFst (by assumption) ?_)
    | (refine Kept.ofSnd (by assumption) ?_)

theorem State.portWrite_kept {z s : State} (h : Kept z s) (p src j a : Nat) (bs : List Byte) (req : MReq) :
    Kept z (State.portWrite s p src j a bs req).1 := by
  unfold State.portWrite
  try dsimp only
  repeat' first
    | (with_reducible assumption) | (simp only [kept_mk]; with_reducible apply Kept.upd) | (with_reducible apply State.violate_kept)
    | (with_reducible apply State.memWrite_kept) | (dsimp only) | split | (refine Kept.ofFst (by assumption) ?_)
    | (refine Kept.ofSnd (by assumption) ?_)

end Sys2Proof.Machine
end

