-- ==== Sys2Proof/Laws/KeptEthernet.lean ====
section
/-!
SUPPORT. The operations of Machine/Ethernet.lean keep the fuses, the queue and the canonical form of the memories.
-/
namespace Sys2Proof.Machine

theorem State.sticky_kept {z s : State} (h : Kept z s) (f : Fld) :
    Kept z (State.sticky s f) := by
  unfold State.sticky
  repeat' first
    | (with_reducible assumption) | (with_reducible apply State.fset_kept) | (with_reducible apply State.devEv_kept)
    | (with_reducible apply Kept.ite) | split

theorem State.statBit_kept {z s : State} (h : Kept z s) (f : Fld) (k : Nat) (v : Bool) :
    Kept z (State.statBit s f k v) := by
  unfold State.statBit
  repeat' first
    | (with_reducible assumption) | (with_reducible apply State.fset_kept) | (with_reducible apply Kept.ite) | split

theorem State.txCut_kept {z s t : State} (h : Kept z s) {j k : Nat} (e : State.txCut s j k = some t) : Kept z t := by
  unfold State.txCut at e
  dsimp only at e
  repeat' split at e
  all_goals first
    | (cases e; done)
    | (simp only [Option.some.injEq, Prod.mk.injEq] at e; obtain ⟨_, _, rfl⟩ := e
       repeat' first | with_reducible assumption | (simp only [kept_mk]; with_reducible apply Kept.upd) | with_reducible apply State.emit_kept | with_reducible apply State.free_kept)
    | (simp only [Option.some.injEq] at e; subst e
       repeat' first | with_reducible assumption | (simp only [kept_mk]; with_reducible apply Kept.upd) | with_reducible apply State.emit_kept | with_reducible apply State.free_kept)

theorem State.macSend_kept {z s : State} (h : Kept z s) (j k : Nat) (express : Bool) (o : Out) :
    Kept z (State.macSend s j k express o) := by
  unfold State.macSend
  try dsimp only
  repeat' first
    | (with_reducible assumption) | (intro _) | (simp only [kept_mk]; with_reducible apply Kept.upd)
    | (with_reducible apply State.emit_kept) | (with_reducible apply Kept.ite) | (with_reducible refine Kept.mapD ?_ (fun _ e => ?_))
    | split | (refine State.txCut_kept ?_ (by assumption))

theorem State.macFlush_kept {z s : State} (h : Kept z s) (j k : Nat) :
    Kept z (State.macFlush s j k) := by
  unfold State.macFlush
  try dsimp only
  repeat' first
    | (with_reducible assumption) | (intro _) | (simp only [kept_mk]; with_reducible apply Kept.upd)
    | (with_reducible apply State.emit_kept) | (with_reducible refine Kept.foldl ?_ (fun _ _ _ => ?_) _)
    | (with_reducible refine Kept.foldl1 ?_ (fun _ _ _ => ?_) _)

theorem State.flowCheck_kept {z s : State} (h : Kept z s) (j k : Nat) :
    Kept z (State.flowCheck s j k) := by
  unfold State.flowCheck
  try dsimp only
  repeat' first
    | (with_reducible assumption) | (intro _) | (simp only [kept_mk]; with_reducible apply Kept.upd)
    | (with_reducible apply State.macSend_kept) | (with_reducible refine Kept.foldl ?_ (fun _ _ _ => ?_) _)
    | (with_reducible refine Kept.foldl1 ?_ (fun _ _ _ => ?_) _) | (with_reducible apply Kept.ite) | (dsimp only) | split
    | (refine Kept.ofFst (by assumption) ?_) | (refine Kept.ofSnd (by assumption) ?_)

theorem State.pauseRefresh_kept {z s : State} (h : Kept z s) (j k q : Nat) :
    Kept z (State.pauseRefresh s j k q) := by
  unfold State.pauseRefresh
  try dsimp only
  repeat' first
    | (with_reducible assumption) | (intro _) | (simp only [kept_mk]; with_reducible apply Kept.upd)
    | (with_reducible apply State.macSend_kept) | (with_reducible apply Kept.ite) | split

theorem State.takeFrame_kept {z s : State} (h : Kept z s) (j k : Nat) :
    Kept z (State.takeFrame s j k) := by
  unfold State.takeFrame
  try dsimp only
  repeat' first
    | (with_reducible assumption) | (intro _) | (simp only [kept_mk]; with_reducible apply Kept.upd)
    | (with_reducible apply State.flowCheck_kept) | split

theorem State.pauseReceived_kept {z s : State} (h : Kept z s) (j k : Nat) (pfc : Bool) (times : List (Nat × Nat)) :
    Kept z (State.pauseReceived s j k pfc times) := by
  unfold State.pauseReceived
  try dsimp only
  repeat' first
    | (with_reducible assumption) | (intro _) | (simp only [kept_mk]; with_reducible apply Kept.upd)
    | (with_reducible refine Kept.foldl ?_ (fun _ _ _ => ?_) _) | (with_reducible refine Kept.foldl1 ?_ (fun _ _ _ => ?_) _)
    | (with_reducible apply Kept.ite) | split

theorem State.pauseOver_kept {z s : State} (h : Kept z s) (j k q : Nat) :
    Kept z (State.pauseOver s j k q) := by
  unfold State.pauseOver
  try dsimp only
  repeat' first
    | (with_reducible assumption) | (simp only [kept_mk]; with_reducible apply Kept.upd)

theorem State.preemptCheck_kept {z s : State} (h : Kept z s) (j k : Nat) :
    Kept z (State.preemptCheck s j k) := by
  unfold State.preemptCheck
  try dsimp only
  repeat' first
    | (with_reducible assumption) | (simp only [kept_mk]; with_reducible apply Kept.upd) | (with_reducible apply State.fset_kept)
    | (with_reducible apply State.statBit_kept) | (with_reducible apply State.macSend_kept) | (with_reducible apply Kept.ite)
    | split

theorem State.verifyReceived_kept {z s : State} (h : Kept z s) (j k : Nat) (respond : Bool) :
    Kept z (State.verifyReceived s j k respond) := by
  unfold State.verifyReceived
  repeat' first
    | (with_reducible assumption) | (with_reducible apply State.fset_kept) | (with_reducible apply State.macSend_kept)
    | (with_reducible apply State.preemptCheck_kept) | (with_reducible apply Kept.ite) | split

theorem State.verifyTimeout_kept {z s : State} (h : Kept z s) (j k : Nat) :
    Kept z (State.verifyTimeout s j k) := by
  unfold State.verifyTimeout
  try dsimp only
  repeat' first
    | (with_reducible assumption) | (simp only [kept_mk]; with_reducible apply Kept.upd) | (with_reducible apply State.fset_kept)
    | (with_reducible apply State.macSend_kept) | (with_reducible apply Kept.ite) | split

theorem State.eeeCheck_kept {z s : State} (h : Kept z s) (j k : Nat) :
    Kept z (State.eeeCheck s j k) := by
  unfold State.eeeCheck
  repeat' first
    | (with_reducible assumption) | (with_reducible apply State.fset_kept) | (with_reducible apply Kept.ite) | split

theorem State.lpiEntry_kept {z s : State} (h : Kept z s) (j k : Nat) :
    Kept z (State.lpiEntry s j k) := by
  unfold State.lpiEntry
  repeat' first
    | (with_reducible assumption) | (with_reducible apply State.statBit_kept) | (with_reducible apply Kept.ite) | split

theorem State.lpiExit_kept {z s : State} (h : Kept z s) (j k : Nat) :
    Kept z (State.lpiExit s j k) := by
  unfold State.lpiExit
  repeat' first
    | (with_reducible assumption) | (with_reducible apply State.statBit_kept) | (with_reducible apply State.macFlush_kept)
    | (with_reducible apply Kept.ite) | split

theorem State.lldpReceived_kept {z s : State} (h : Kept z s) (j k : Nat) (pdu : List Byte) (eee : Option Nat) (pre : Option Nat) (ttl : Nat) :
    Kept z (State.lldpReceived s j k pdu eee pre ttl) := by
  unfold State.lldpReceived
  try dsimp only
  repeat' first
    | (with_reducible assumption) | (simp only [kept_mk]; with_reducible apply Kept.upd) | (with_reducible apply State.fsets_kept)
    | (with_reducible apply State.preemptCheck_kept) | (with_reducible apply State.eeeCheck_kept) | (with_reducible apply Kept.ite)
    | split

theorem State.lldpExpiry_kept {z s : State} (h : Kept z s) (j k : Nat) :
    Kept z (State.lldpExpiry s j k) := by
  unfold State.lldpExpiry
  try dsimp only
  repeat' first
    | (with_reducible assumption) | (simp only [kept_mk]; with_reducible apply Kept.upd) | (with_reducible apply State.fsets_kept)
    | (with_reducible apply State.preemptCheck_kept) | (with_reducible apply State.eeeCheck_kept)

theorem State.lldpSend_kept {z s : State} (h : Kept z s) (j k : Nat) :
    Kept z (State.lldpSend s j k) := by
  unfold State.lldpSend
  repeat' first
    | (with_reducible assumption) | (with_reducible apply State.macSend_kept) | (with_reducible apply Kept.ite) | split

theorem State.cableOf_kept {z s : State} (h : Kept z s) (j : Nat) :
    Kept z (State.cableOf s j) := by
  unfold State.cableOf
  try dsimp only
  repeat' first
    | (with_reducible assumption) | (simp only [kept_mk]; with_reducible apply Kept.upd) | (with_reducible apply State.fsets_kept)
    | split

theorem State.linkRise_kept {z s : State} (h : Kept z s) (j k : Nat) (an : Bool) (cable : Option (Nat × Nat)) :
    Kept z (State.linkRise s j k an cable) := by
  unfold State.linkRise
  try dsimp only
  repeat' first
    | (with_reducible assumption) | (intro _) | (simp only [kept_mk]; with_reducible apply Kept.upd)
    | (with_reducible apply State.fsets_kept) | (with_reducible apply State.statBit_kept)
    | (with_reducible apply State.flowCheck_kept) | (with_reducible apply State.preemptCheck_kept)
    | (with_reducible apply State.eeeCheck_kept) | (with_reducible apply State.cableOf_kept) | (with_reducible apply State.eyes_kept)
    | (with_reducible refine Kept.foldl ?_ (fun _ _ _ => ?_) _) | (with_reducible refine Kept.foldl1 ?_ (fun _ _ _ => ?_) _)
    | (with_reducible apply Kept.ite) | split

theorem State.linkFall_kept {z s : State} (h : Kept z s) (j k : Nat) :
    Kept z (State.linkFall s j k) := by
  unfold State.linkFall
  try dsimp only
  repeat' first
    | (with_reducible assumption) | (intro _) | (simp only [kept_mk]; with_reducible apply Kept.upd)
    | (with_reducible apply State.fsets_kept) | (with_reducible apply State.sticky_kept) | (with_reducible apply State.statBit_kept)
    | (with_reducible apply State.preemptCheck_kept) | (with_reducible apply State.afterCheck_kept) | (with_reducible apply Kept.ite)
    | split

theorem State.moduleIn_kept {z s : State} (h : Kept z s) (j medium reach power : Nat) :
    Kept z (State.moduleIn s j medium reach power) := by
  unfold State.moduleIn
  try dsimp only
  repeat' first
    | (with_reducible assumption) | (simp only [kept_mk]; with_reducible apply Kept.upd) | (with_reducible apply State.fsets_kept)
    | (with_reducible apply State.cableOf_kept) | (with_reducible apply Kept.ite) | split

theorem State.ethFurl_kept {z s : State} (h : Kept z s)  :
    Kept z (State.ethFurl s) := by
  unfold State.ethFurl
  try dsimp only
  repeat' first
    | (with_reducible assumption) | (intro _) | (with_reducible apply State.statBit_kept) | (with_reducible apply State.linkFall_kept)
    | (with_reducible refine Kept.foldl ?_ (fun _ _ _ => ?_) _) | (with_reducible refine Kept.foldl1 ?_ (fun _ _ _ => ?_) _)
    | (with_reducible apply Kept.ite) | split

theorem State.ethWipe_kept {z s : State} (h : Kept z s) (j : Nat) :
    Kept z (State.ethWipe s j) := by
  unfold State.ethWipe
  try dsimp only
  repeat' first
    | (with_reducible assumption) | (intro _) | (simp only [kept_mk]; with_reducible apply Kept.upd) | (dsimp only) | split
    | (refine Kept.ofFst (by assumption) ?_) | (refine Kept.ofSnd (by assumption) ?_)

theorem State.toRing_kept {z s : State} (h : Kept z s) (j q p : Nat) (slot : Nat → List Byte) :
    Kept z (State.toRing s j q p slot) := by
  unfold State.toRing
  try dsimp only
  repeat' first
    | (with_reducible assumption) | (simp only [kept_mk]; with_reducible apply Kept.upd) | (with_reducible apply State.finc_kept)
    | (with_reducible apply State.noteEv_kept) | (with_reducible apply State.stray_kept) | (with_reducible apply State.broke_kept)
    | (with_reducible apply State.portWrite_kept) | (with_reducible apply State.sticky_kept) | (with_reducible apply Kept.ite)
    | (dsimp only) | split | (refine Kept.ofFst (by assumption) ?_) | (refine Kept.ofSnd (by assumption) ?_)

theorem State.rxSteer_kept {z s : State} (h : Kept z s) (j k : Nat) (b : List Byte) :
    Kept z (State.rxSteer s j k b) := by
  unfold State.rxSteer
  try dsimp only
  repeat' first
    | (with_reducible assumption) | (intro _) | (simp only [kept_mk]; with_reducible apply Kept.upd)
    | (with_reducible apply State.sticky_kept) | (with_reducible apply State.flowCheck_kept)
    | (with_reducible apply State.toRing_kept) | (with_reducible apply State.wakeUp_kept) | (with_reducible apply Kept.ite) | split

theorem State.codewords_kept {z s : State} (h : Kept z s) (j : Nat) (l : List Nat) :
    Kept z (State.codewords s j l) := by
  unfold State.codewords
  try dsimp only
  repeat' first
    | (with_reducible assumption) | (intro _) | (simp only [kept_mk]; with_reducible apply Kept.upd)
    | (with_reducible refine Kept.foldl ?_ (fun _ _ _ => ?_) _) | (with_reducible refine Kept.foldl1 ?_ (fun _ _ _ => ?_) _)

theorem State.rxFrame_kept {z s : State} (h : Kept z s) (j k : Nat) (b : List Byte) (fec fcs merge : Bool) :
    Kept z (State.rxFrame s j k b fec fcs merge) := by
  unfold State.rxFrame
  try dsimp only
  repeat' first
    | (with_reducible assumption) | (simp only [kept_mk]; with_reducible apply Kept.upd) | (with_reducible apply State.sticky_kept)
    | (with_reducible apply State.rxSteer_kept) | (with_reducible apply Kept.ite) | split

theorem State.txNext_kept {z s : State} (h : Kept z s) (j k : Nat) :
    Kept z (State.txNext s j k) := by
  unfold State.txNext
  repeat' first
    | (with_reducible assumption) | (with_reducible apply State.finc_kept)

theorem State.txFault_kept {z s : State} (h : Kept z s) (j k p : Nat) :
    Kept z (State.txFault s j k p) := by
  unfold State.txFault
  repeat' first
    | (with_reducible assumption) | (with_reducible apply State.noteEv_kept) | (with_reducible apply State.txNext_kept)

theorem State.txLoad_kept {z s t : State} (h : Kept z s) {j k : Nat} {b : Bool} (e : State.txLoad s j k = some (t, b)) : Kept z t := by
  unfold State.txLoad at e
  dsimp only at e
  repeat' split at e
  all_goals first
    | (cases e; done)
    | (simp only [Option.some.injEq, Prod.mk.injEq] at e; obtain ⟨rfl, _⟩ := e
       repeat' first
         | with_reducible assumption | (simp only [kept_mk]; with_reducible apply Kept.upd) | with_reducible apply State.txNext_kept
         | with_reducible apply State.txFault_kept | with_reducible apply State.violate_kept | with_reducible apply State.stray_kept | with_reducible apply State.portRead_kept)

theorem State.txStart_kept {z s : State} (h : Kept z s) (j k : Nat) :
    Kept z (State.txStart s j k) := by
  unfold State.txStart
  try dsimp only
  repeat' first
    | (with_reducible assumption) | (simp only [kept_mk]; with_reducible apply Kept.upd) | (with_reducible apply Kept.ite) | split
    | (refine State.txLoad_kept ?_ (by assumption))

theorem State.txEnd_kept {z s : State} (h : Kept z s) (j k : Nat) (f : TxNow) :
    Kept z (State.txEnd s j k f) := by
  unfold State.txEnd
  try dsimp only
  repeat' first
    | (with_reducible assumption) | (simp only [kept_mk]; with_reducible apply Kept.upd) | (with_reducible apply State.emit_kept)
    | (with_reducible apply State.txNext_kept) | (with_reducible apply Kept.ite) | split

theorem State.txFrame_kept {z s : State} (h : Kept z s) (j k : Nat) :
    Kept z (State.txFrame s j k) := by
  unfold State.txFrame
  try dsimp only
  repeat' first
    | (with_reducible assumption) | (simp only [kept_mk]; with_reducible apply Kept.upd) | (with_reducible apply State.txEnd_kept)
    | (with_reducible refine Kept.mapD ?_ (fun _ e => ?_)) | split | (refine State.txLoad_kept ?_ (by assumption))

theorem State.filterWrite_kept {z s : State} (h : Kept z s) (j e w v : Nat) :
    Kept z (State.filterWrite s j e w v) := by
  unfold State.filterWrite
  try dsimp only
  repeat' first
    | (with_reducible assumption) | (intro _) | (simp only [kept_mk]; with_reducible apply Kept.upd)
    | (with_reducible apply State.fset_kept) | (with_reducible refine Kept.foldl ?_ (fun _ _ _ => ?_) _)
    | (with_reducible refine Kept.foldl1 ?_ (fun _ _ _ => ?_) _) | (with_reducible apply Kept.ite) | split

theorem State.rxqEnable_kept {z s : State} (h : Kept z s) (j q : Nat) (on : Bool) :
    Kept z (State.rxqEnable s j q on) := by
  unfold State.rxqEnable
  try dsimp only
  repeat' first
    | (with_reducible assumption) | (simp only [kept_mk]; with_reducible apply Kept.upd) | (with_reducible apply State.fset_kept)
    | (with_reducible apply Kept.ite) | split

theorem State.ethCapsWritten_kept {z s : State} (h : Kept z s) (j : Nat) :
    Kept z (State.ethCapsWritten s j) := by
  unfold State.ethCapsWritten
  try dsimp only
  repeat' first
    | (with_reducible assumption) | (intro _) | (with_reducible apply State.preemptCheck_kept)
    | (with_reducible apply State.eeeCheck_kept) | (with_reducible refine Kept.foldl ?_ (fun _ _ _ => ?_) _)
    | (with_reducible refine Kept.foldl1 ?_ (fun _ _ _ => ?_) _)

end Sys2Proof.Machine
end

