-- ==== Sys2Proof/Laws/KeptZheris.lean ====
section
/-!
SUPPORT. The operations of Machine/Zheris.lean keep the fuses, the queue and the canonical form of the memories.
-/
namespace Sys2Proof.Machine

theorem State.setConn_kept {z s : State} (h : Kept z s) (i : Nat) (c : Conn) :
    Kept z (State.setConn s i c) := by
  unfold State.setConn
  try dsimp only
  repeat' first
    | (with_reducible assumption) | (simp only [kept_mk]; with_reducible apply Kept.upd)

theorem State.modConn_kept {z s : State} (h : Kept z s) (i : Nat) (f : Conn → Conn) :
    Kept z (State.modConn s i f) := by
  unfold State.modConn
  try dsimp only
  repeat' first
    | (with_reducible assumption) | (simp only [kept_mk]; with_reducible apply Kept.upd)

theorem State.touchConn_kept {z s : State} (h : Kept z s) (i : Nat) :
    Kept z (State.touchConn s i) := by
  unfold State.touchConn
  try dsimp only
  repeat' first
    | (with_reducible assumption) | (intro _) | (simp only [kept_mk]; with_reducible apply Kept.upd)
    | (with_reducible apply State.modConn_kept)

theorem State.zFault_kept {z s : State} (h : Kept z s) (p code conn : Nat) :
    Kept z (State.zFault s p code conn) := by
  unfold State.zFault
  try dsimp only
  repeat' first
    | (with_reducible assumption) | (with_reducible apply State.recErr_kept) | (with_reducible apply Kept.ite) | split

theorem State.zEmit_kept {z s : State} (h : Kept z s) (i : Nat) (c : Conn) (f : ZFrame) :
    Kept z (State.zEmit s i c f) := by
  unfold State.zEmit
  repeat' first
    | (with_reducible assumption) | (with_reducible apply State.emit_kept) | (with_reducible apply State.violate_kept)
    | (with_reducible apply State.touchConn_kept) | (with_reducible apply Kept.ite)
    | (with_reducible refine Kept.getD ?_ (fun _ e => State.txCut_kept ?_ e)) | split | (refine State.txCut_kept ?_ (by assumption))

theorem State.zRaw_kept {z s : State} (h : Kept z s) (i typ flags : Nat) (body : List Byte) :
    Kept z (State.zRaw s i typ flags body) := by
  unfold State.zRaw
  try dsimp only
  repeat' first
    | (with_reducible assumption) | (simp only [kept_mk]; with_reducible apply Kept.upd) | (with_reducible apply State.setConn_kept)
    | (with_reducible apply State.zEmit_kept) | split

theorem State.zHello_kept {z s : State} (h : Kept z s) (i : Nat) :
    Kept z (State.zHello s i) := by
  unfold State.zHello
  try dsimp only
  repeat' first
    | (with_reducible assumption) | (simp only [kept_mk]; with_reducible apply Kept.upd) | (with_reducible apply State.setConn_kept)
    | (with_reducible apply State.zEmit_kept) | (with_reducible apply Kept.ite) | split

theorem State.zOpened_kept {z s : State} (h : Kept z s) (i : Nat) (c : Conn) (peerSeg : Nat) :
    Kept z (State.zOpened s i c peerSeg) := by
  unfold State.zOpened
  try dsimp only
  repeat' first
    | (with_reducible assumption) | (simp only [kept_mk]; with_reducible apply Kept.upd) | (with_reducible apply State.setConn_kept)
    | (with_reducible apply Kept.ite) | split

theorem State.zFinish_kept {z s : State} (h : Kept z s) (r : ZReq) (status : Nat) :
    Kept z (State.zFinish s r status) := by
  unfold State.zFinish
  try dsimp only
  repeat' first
    | (with_reducible assumption) | (simp only [kept_mk]; with_reducible apply Kept.upd) | (with_reducible apply State.fsat_kept)
    | (with_reducible apply State.sigAdd_kept) | (with_reducible apply State.sqEntryDone_kept)
    | (with_reducible apply State.cplPut_kept) | (with_reducible apply State.palAcked_kept) | (with_reducible apply Kept.ite)
    | split

theorem State.zComplete_kept {z s : State} (h : Kept z s) (i : Nat) (n_ : Nat) :
    Kept z (State.zComplete i n_ s) := by
  induction n_ generalizing s with
  | zero => exact h
  | succ n_ ih =>
  unfold State.zComplete
  try dsimp only
  repeat' first
    | (with_reducible assumption) | (simp only [kept_mk]; with_reducible apply Kept.upd) | (with_reducible apply State.fset_kept)
    | (with_reducible apply State.setConn_kept) | (with_reducible apply State.zFinish_kept) | (with_reducible apply ih)
    | (with_reducible apply Kept.ite) | (with_reducible apply Kept.ite1) | (with_reducible apply Kept.ite2) | (dsimp only) | split
    | (refine Kept.ofFst (by assumption) ?_) | (refine Kept.ofSnd (by assumption) ?_)

theorem State.zCompleteAll_kept {z s : State} (h : Kept z s) (i : Nat) :
    Kept z (State.zCompleteAll s i) := by
  unfold State.zCompleteAll
  repeat' first
    | (with_reducible assumption) | (with_reducible apply State.zComplete_kept)

theorem State.zClose_kept {z s : State} (h : Kept z s) (i status : Nat) :
    Kept z (State.zClose s i status) := by
  unfold State.zClose
  try dsimp only
  repeat' first
    | (with_reducible assumption) | (intro _) | (simp only [kept_mk]; with_reducible apply Kept.upd)
    | (with_reducible apply State.modConn_kept) | (with_reducible apply State.zCompleteAll_kept)

theorem State.zSendClose_kept {z s : State} (h : Kept z s) (i reason : Nat) :
    Kept z (State.zSendClose s i reason) := by
  unfold State.zSendClose
  try dsimp only
  repeat' first
    | (with_reducible assumption) | (simp only [kept_mk]; with_reducible apply Kept.upd) | (with_reducible apply State.zRaw_kept)
    | (with_reducible apply Kept.ite) | split

theorem State.zCloseLocal_kept {z s : State} (h : Kept z s) (i reason : Nat) :
    Kept z (State.zCloseLocal s i reason) := by
  unfold State.zCloseLocal
  try dsimp only
  repeat' first
    | (with_reducible assumption) | (intro _) | (simp only [kept_mk]; with_reducible apply Kept.upd)
    | (with_reducible apply State.modConn_kept) | (with_reducible apply State.zClose_kept)
    | (with_reducible apply State.zSendClose_kept)

theorem State.zExhausted_kept {z s : State} (h : Kept z s) (i : Nat) :
    Kept z (State.zExhausted s i) := by
  unfold State.zExhausted
  try dsimp only
  repeat' first
    | (with_reducible assumption) | (simp only [kept_mk]; with_reducible apply Kept.upd) | (with_reducible apply State.zFault_kept)
    | (with_reducible apply State.zCloseLocal_kept) | split

theorem State.zOut_kept {z s : State} (h : Kept z s) (i typ flags : Nat) (body : List Byte) :
    Kept z (State.zOut s i typ flags body) := by
  unfold State.zOut
  try dsimp only
  repeat' first
    | (with_reducible assumption) | (simp only [kept_mk]; with_reducible apply Kept.upd) | (with_reducible apply State.zRaw_kept)
    | (with_reducible apply State.zExhausted_kept) | (with_reducible apply Kept.ite) | split

theorem State.zAck_kept {z s : State} (h : Kept z s) (i : Nat) (c : Conn) :
    Kept z (State.zAck s i c) := by
  unfold State.zAck
  try dsimp only
  repeat' first
    | (with_reducible assumption) | (simp only [kept_mk]; with_reducible apply Kept.upd) | (with_reducible apply State.setConn_kept)
    | (with_reducible apply State.zOut_kept)

theorem State.zSource_kept {z s : State} (h : Kept z s) (r : ZReq) (j off n : Nat) :
    Kept z (State.zSource s r j off n).1 := by
  unfold State.zSource
  try dsimp only
  repeat' first
    | (with_reducible assumption) | (simp only [kept_mk]; with_reducible apply Kept.upd) | (with_reducible apply State.broke_kept)
    | (with_reducible apply State.portRead_kept) | (with_reducible apply State.demand_kept) | (with_reducible apply Kept.ite)
    | (with_reducible apply Kept.ite1) | (with_reducible apply Kept.ite2) | (dsimp only) | split
    | (refine Kept.ofFst (by assumption) ?_) | (refine Kept.ofSnd (by assumption) ?_)

theorem State.zSegment_kept {z s : State} (h : Kept z s) (i : Nat) (again : Bool) (e : Nat × Nat) :
    Kept z (State.zSegment s i again e) := by
  unfold State.zSegment
  try dsimp only
  repeat' first
    | (with_reducible assumption) | (intro _) | (simp only [kept_mk]; with_reducible apply Kept.upd)
    | (with_reducible apply State.fsat_kept) | (with_reducible apply State.modConn_kept) | (with_reducible apply State.zOut_kept)
    | (with_reducible apply State.zSource_kept) | (with_reducible apply State.again_kept) | (with_reducible apply Kept.ite)
    | (dsimp only) | split | (refine Kept.ofFst (by assumption) ?_) | (refine Kept.ofSnd (by assumption) ?_)

theorem State.zCut_kept {z s t : State} (h : Kept z s) {i : Nat} {c : Conn} (e : State.zCut s i c = some t) : Kept z t := by
  unfold State.zCut at e
  dsimp only at e
  repeat' split at e
  all_goals first
    | (cases e; done)
    | (simp only [Option.some.injEq, Prod.mk.injEq] at e; obtain ⟨_, _, rfl⟩ := e
       repeat' first | with_reducible assumption | (simp only [kept_mk]; with_reducible apply Kept.upd) | with_reducible apply State.setConn_kept)
    | (simp only [Option.some.injEq] at e; subst e
       repeat' first | with_reducible assumption | (simp only [kept_mk]; with_reducible apply Kept.upd) | with_reducible apply State.setConn_kept)

theorem State.zOne_kept {z s : State} (h : Kept z s) (i : Nat) : Kept z (State.zOne s i) := by
  unfold State.zOne
  cases mfind s.zt.ctx i with
  | none => exact h
  | some c =>
    refine Kept.ite (State.zAck_kept h _ _) (Kept.ite (State.zOut_kept (State.setConn_kept h _ _) _ _ _ _) ?_)
    cases c.resend with
    | cons => exact State.zSegment_kept h _ _ _
    | nil =>
      cases c.fresh with
      | cons => exact State.zSegment_kept h _ _ _
      | nil =>
        cases e : s.zCut i c with
        | none => exact h
        | some t => exact State.zSegment_kept (State.zCut_kept h e) _ _ _

theorem State.zTurns_kept {z s : State} (h : Kept z s) (j k : Nat) (only : Nat → Conn → Bool) (n_ : Nat) :
    Kept z (State.zTurns j k only n_ s) := by
  induction n_ generalizing s with
  | zero => exact h
  | succ n_ ih =>
  unfold State.zTurns
  try dsimp only
  repeat' first
    | (with_reducible assumption) | (simp only [kept_mk]; with_reducible apply Kept.upd) | (with_reducible apply State.zOne_kept)
    | (with_reducible apply ih) | (dsimp only) | split | (refine Kept.ofFst (by assumption) ?_)
    | (refine Kept.ofSnd (by assumption) ?_)

theorem State.zPumpSub_kept {z s : State} (h : Kept z s) (j k : Nat) :
    Kept z (State.zPumpSub s j k) := by
  unfold State.zPumpSub
  try dsimp only
  repeat' first
    | (with_reducible assumption) | (intro _) | (with_reducible apply State.zTurns_kept)

theorem State.zPump_kept {z s : State} (h : Kept z s) (i : Nat) :
    Kept z (State.zPump s i) := by
  unfold State.zPump
  try dsimp only
  repeat' first
    | (with_reducible assumption) | (simp only [kept_mk]; with_reducible apply Kept.upd) | (with_reducible apply State.zPumpSub_kept)
    | split

theorem State.zPumpPart_kept {z s : State} (h : Kept z s) (p : Nat) :
    Kept z (State.zPumpPart s p) := by
  unfold State.zPumpPart
  try dsimp only
  repeat' first
    | (with_reducible assumption) | (intro _) | (simp only [kept_mk]; with_reducible apply Kept.upd)
    | (with_reducible apply State.modConn_kept) | (with_reducible apply State.zPump_kept)
    | (with_reducible refine Kept.foldl ?_ (fun _ _ _ => ?_) _) | (with_reducible refine Kept.foldl1 ?_ (fun _ _ _ => ?_) _)

theorem State.subGo_kept {z s : State} (h : Kept z s) (j k : Nat) :
    Kept z (State.subGo s j k) := by
  unfold State.subGo
  try dsimp only
  repeat' first
    | (with_reducible assumption) | (intro _) | (with_reducible apply State.macFlush_kept) | (with_reducible apply State.txStart_kept)
    | (with_reducible apply State.zTurns_kept) | (with_reducible apply State.zPumpSub_kept) | (with_reducible apply Kept.ite)
    | split

theorem State.zFetch_kept {z s : State} (h : Kept z s) (i : Nat) :
    Kept z (State.zFetch s i) := by
  unfold State.zFetch
  try dsimp only
  repeat' first
    | (with_reducible assumption) | (intro _) | (simp only [kept_mk]; with_reducible apply Kept.upd) | (with_reducible apply Kept.ite)
    | split

theorem State.zAhead_kept {z s : State} (h : Kept z s) (i : Nat) (c : Conn) :
    Kept z (State.zAhead s i c) := by
  unfold State.zAhead
  try dsimp only
  repeat' first
    | (with_reducible assumption) | (with_reducible apply State.modConn_kept) | (with_reducible apply State.zSegment_kept)
    | (with_reducible apply Kept.ite) | split

theorem State.zPennant_kept {z s : State} (h : Kept z s) (i : Nat) (c : Conn) (t : ZTx) : Kept z (State.zPennant s i c t) :=
  have hs : Kept z (s.setConn i (c.putAhead t)) := State.setConn_kept h _ _
  Kept.mapD hs (fun _ e => State.zAhead_kept (State.zCut_kept hs e) _ _)

theorem State.zTake_kept {z s : State} (h : Kept z s) (r : ZReq) (bad : Bool) :
    Kept z (State.zTake s r bad) := by
  unfold State.zTake
  try dsimp only
  repeat' first
    | (with_reducible assumption) | (simp only [kept_mk]; with_reducible apply Kept.upd) | (with_reducible apply State.free_kept)
    | (with_reducible apply State.violate_kept) | (with_reducible apply State.setConn_kept) | (with_reducible apply State.zFault_kept)
    | (with_reducible apply State.zFinish_kept) | (with_reducible apply State.zCompleteAll_kept)
    | (with_reducible apply State.zPump_kept) | (with_reducible apply State.zFetch_kept) | (with_reducible apply State.zPennant_kept)
    | (with_reducible apply Kept.ite) | (dsimp only) | split | (refine Kept.ofFst (by assumption) ?_)
    | (refine Kept.ofSnd (by assumption) ?_)

theorem State.zSendReq_kept {z s : State} (h : Kept z s) (p : Nat) (internal : Bool) :
    Kept z (State.zSendReq s p internal) := by
  unfold State.zSendReq
  try dsimp only
  repeat' first
    | (with_reducible assumption) | (intro _) | (simp only [kept_mk]; with_reducible apply Kept.upd)
    | (with_reducible apply State.finc_kept) | (with_reducible apply State.stray_kept) | (with_reducible apply State.memRead_kept)
    | (with_reducible apply State.zFault_kept) | (with_reducible apply State.zTake_kept) | (with_reducible apply Kept.ite)
    | (dsimp only) | split | (refine Kept.ofFst (by assumption) ?_) | (refine Kept.ofSnd (by assumption) ?_)

theorem State.zHeard_kept {z s : State} (h : Kept z s) (p id : Nat) :
    Kept z (State.zHeard s p id) := by
  unfold State.zHeard
  try dsimp only
  repeat' first
    | (with_reducible assumption) | (intro _) | (simp only [kept_mk]; with_reducible apply Kept.upd)
    | (with_reducible apply State.noteEv_kept) | (with_reducible apply State.modConn_kept)
    | (with_reducible refine Kept.foldl ?_ (fun _ _ _ => ?_) _) | (with_reducible refine Kept.foldl1 ?_ (fun _ _ _ => ?_) _)
    | (with_reducible apply Kept.ite) | split

theorem State.keepalive_kept {z s : State} (h : Kept z s) (p id : Nat) :
    Kept z (State.keepalive s p id) := by
  unfold State.keepalive
  try dsimp only
  repeat' first
    | (with_reducible assumption) | (intro _) | (simp only [kept_mk]; with_reducible apply Kept.upd)
    | (with_reducible apply State.modConn_kept) | (with_reducible apply State.zPump_kept) | (dsimp only) | split
    | (refine Kept.ofFst (by assumption) ?_) | (refine Kept.ofSnd (by assumption) ?_)

theorem State.zMove_kept {z s : State} (h : Kept z s) (a b : Nat) :
    Kept z (State.zMove s a b) := by
  unfold State.zMove
  try dsimp only
  repeat' first
    | (with_reducible assumption) | (intro _) | (simp only [kept_mk]; with_reducible apply Kept.upd)
    | (with_reducible apply State.setConn_kept) | (with_reducible apply State.zCloseLocal_kept)
    | (with_reducible apply State.zPump_kept) | (with_reducible apply State.zFetch_kept) | (with_reducible apply Kept.ite) | split

theorem State.zRebind_kept {z s t : State} (h : Kept z s) {p old new : Nat} (e : State.zRebind s p old new = some t) : Kept z t := by
  unfold State.zRebind at e
  dsimp only at e
  repeat' split at e
  all_goals first
    | (cases e; done)
    | (simp only [Option.some.injEq, Prod.mk.injEq] at e; obtain ⟨_, _, rfl⟩ := e
       repeat' first | with_reducible assumption | (simp only [kept_mk]; with_reducible apply Kept.upd) | with_reducible apply State.zMove_kept)
    | (simp only [Option.some.injEq] at e; subst e
       repeat' first | with_reducible assumption | (simp only [kept_mk]; with_reducible apply Kept.upd) | with_reducible apply State.zMove_kept)

theorem State.zRebound_kept {z s : State} (h : Kept z s) (before : State) (p : Nat) :
    Kept z (State.zRebound before s p) := by
  unfold State.zRebound
  try dsimp only
  repeat' first
    | (with_reducible assumption) | (intro _) | (simp only [kept_mk]; with_reducible apply Kept.upd)
    | (with_reducible refine Kept.foldl ?_ (fun _ _ _ => ?_) _) | (with_reducible refine Kept.foldl1 ?_ (fun _ _ _ => ?_) _)
    | (with_reducible apply Kept.ite) | (with_reducible refine Kept.getD ?_ (fun _ e => State.zRebind_kept ?_ e)) | split
    | (refine State.zRebind_kept ?_ (by assumption))

theorem State.unreachable_kept {z s : State} (h : Kept z s) (p id : Nat) :
    Kept z (State.unreachable s p id) := by
  unfold State.unreachable
  try dsimp only
  repeat' first
    | (with_reducible assumption) | (intro _) | (simp only [kept_mk]; with_reducible apply Kept.upd)
    | (with_reducible apply State.noteEv_kept) | (with_reducible apply State.memberLost_kept)
    | (with_reducible apply State.takeoverSend_kept) | (with_reducible apply State.modConn_kept)
    | (with_reducible apply State.zRebound_kept) | (with_reducible refine Kept.foldl ?_ (fun _ _ _ => ?_) _)
    | (with_reducible refine Kept.foldl1 ?_ (fun _ _ _ => ?_) _) | (with_reducible apply Kept.ite) | split

theorem State.regionSee_kept {z s : State} (h : Kept z s) (p group a len : Nat) :
    Kept z (State.regionSee s p group a len) := by
  unfold State.regionSee
  try dsimp only
  repeat' first
    | (with_reducible assumption) | (intro _) | (with_reducible apply State.memSee_kept)
    | (with_reducible refine Kept.foldl ?_ (fun _ _ _ => ?_) _) | (with_reducible refine Kept.foldl1 ?_ (fun _ _ _ => ?_) _)
    | (with_reducible apply Kept.ite) | split

theorem State.zAnnounce_kept {z s : State} (h : Kept z s) (i : Nat) (n_ : Nat) :
    Kept z (State.zAnnounce i n_ s) := by
  induction n_ generalizing s with
  | zero => exact h
  | succ n_ ih =>
  unfold State.zAnnounce
  try dsimp only
  repeat' first
    | (with_reducible assumption) | (simp only [kept_mk]; with_reducible apply Kept.upd) | (with_reducible apply State.fset_kept)
    | (with_reducible apply State.sigAdd_kept) | (with_reducible apply State.cplPut_kept) | (with_reducible apply State.setConn_kept)
    | (with_reducible apply ih) | (with_reducible apply Kept.ite) | (with_reducible apply Kept.ite1)
    | (with_reducible apply Kept.ite2) | (dsimp only) | split | (refine Kept.ofFst (by assumption) ?_)
    | (refine Kept.ofSnd (by assumption) ?_)

theorem State.zPoison_kept {z s : State} (h : Kept z s) (p a n : Nat) :
    Kept z (State.zPoison s p a n) := by
  unfold State.zPoison
  try dsimp only
  repeat' first
    | (with_reducible assumption) | (intro _) | (with_reducible apply State.memPoison_kept)
    | (with_reducible refine Kept.foldl ?_ (fun _ _ _ => ?_) _) | (with_reducible refine Kept.foldl1 ?_ (fun _ _ _ => ?_) _)

theorem State.zStore_kept {z s : State} (h : Kept z s) (c : Conn) (a : Nat) (bs : List Byte) (bad : Bool) :
    Kept z (State.zStore s c a bs bad).1 := by
  unfold State.zStore
  try dsimp only
  repeat' first
    | (with_reducible assumption) | (simp only [kept_mk]; with_reducible apply Kept.upd) | (with_reducible apply State.violate_kept)
    | (with_reducible apply State.memPut_kept) | (with_reducible apply State.zPoison_kept) | (with_reducible apply Kept.ite)
    | (with_reducible apply Kept.ite1) | (with_reducible apply Kept.ite2) | (dsimp only) | split
    | (refine Kept.ofFst (by assumption) ?_) | (refine Kept.ofSnd (by assumption) ?_)

theorem State.zPlace_kept {z s : State} (h : Kept z s) (i pn : Nat) (c : Conn) (r : ZRec) (d : ZData) :
    Kept z (State.zPlace s i pn c r d) := by
  unfold State.zPlace
  try dsimp only
  repeat' first
    | (with_reducible assumption) | (simp only [kept_mk]; with_reducible apply Kept.upd) | (with_reducible apply State.setConn_kept)
    | (with_reducible apply State.zAnnounce_kept) | (with_reducible apply State.zStore_kept) | (with_reducible apply Kept.ite)
    | (dsimp only) | split | (refine Kept.ofFst (by assumption) ?_) | (refine Kept.ofSnd (by assumption) ?_)

theorem State.zFirst_kept {z s : State} (h : Kept z s) (i pn : Nat) (c : Conn) (d : ZData) :
    Kept z (State.zFirst s i pn c d) := by
  unfold State.zFirst
  try dsimp only
  repeat' first
    | (with_reducible assumption) | (simp only [kept_mk]; with_reducible apply Kept.upd) | (with_reducible apply State.violate_kept)
    | (with_reducible apply State.setConn_kept) | (with_reducible apply State.zFault_kept)
    | (with_reducible apply State.regionSee_kept) | (with_reducible apply State.zAnnounce_kept)
    | (with_reducible apply State.zPlace_kept) | (with_reducible apply Kept.ite) | split

theorem State.zData_kept {z s : State} (h : Kept z s) (i pn : Nat) (ce : Bool) (b : List Byte) :
    Kept z (State.zData s i pn ce b) := by
  unfold State.zData
  try dsimp only
  repeat' first
    | (with_reducible assumption) | (simp only [kept_mk]; with_reducible apply Kept.upd) | (with_reducible apply State.fsat_kept)
    | (with_reducible apply State.setConn_kept) | (with_reducible apply State.zPlace_kept) | (with_reducible apply State.zFirst_kept)
    | (with_reducible apply Kept.ite) | split

theorem State.zAcked_kept {z s : State} (h : Kept z s) (i rtt : Nat) (b : List Byte) :
    Kept z (State.zAcked s i rtt b) := by
  unfold State.zAcked
  try dsimp only
  repeat' first
    | (with_reducible assumption) | (intro _) | (simp only [kept_mk]; with_reducible apply Kept.upd)
    | (with_reducible apply State.fsat_kept) | (with_reducible apply State.setConn_kept)
    | (with_reducible apply State.zCompleteAll_kept) | (with_reducible apply State.zPump_kept)
    | (with_reducible refine Kept.foldl ?_ (fun _ _ _ => ?_) _) | (with_reducible refine Kept.foldl1 ?_ (fun _ _ _ => ?_) _)
    | (with_reducible apply Kept.ite) | split

theorem State.zRto_kept {z s : State} (h : Kept z s) (i pn : Nat) (all : Bool) :
    Kept z (State.zRto s i pn all) := by
  unfold State.zRto
  try dsimp only
  repeat' first
    | (with_reducible assumption) | (simp only [kept_mk]; with_reducible apply Kept.upd) | (with_reducible apply State.setConn_kept)
    | (with_reducible apply State.zPump_kept) | split

theorem State.authFail_kept {z s : State} (h : Kept z s)  :
    Kept z (State.authFail s) := by
  unfold State.authFail
  repeat' first
    | (with_reducible assumption) | (with_reducible apply State.fsat_kept)

theorem State.zHelloIn_kept {z s : State} (h : Kept z s) (i : Nat) (c : Conn) (k : ZPkt) :
    Kept z (State.zHelloIn s i c k) := by
  unfold State.zHelloIn
  try dsimp only
  repeat' first
    | (with_reducible assumption) | (simp only [kept_mk]; with_reducible apply Kept.upd) | (with_reducible apply State.fsat_kept)
    | (with_reducible apply State.freeBytes_kept) | (with_reducible apply State.zHello_kept)
    | (with_reducible apply State.zOpened_kept) | (with_reducible apply State.zPump_kept) | (with_reducible apply State.authFail_kept)
    | (with_reducible apply Kept.ite) | (dsimp only) | split | (refine Kept.ofFst (by assumption) ?_)
    | (refine Kept.ofSnd (by assumption) ?_)

theorem State.zHelloAckIn_kept {z s : State} (h : Kept z s) (i : Nat) (c : Conn) (k : ZPkt) :
    Kept z (State.zHelloAckIn s i c k) := by
  unfold State.zHelloAckIn
  try dsimp only
  repeat' first
    | (with_reducible assumption) | (simp only [kept_mk]; with_reducible apply Kept.upd) | (with_reducible apply State.fsat_kept)
    | (with_reducible apply State.zOpened_kept) | (with_reducible apply State.zPump_kept) | (with_reducible apply State.authFail_kept)
    | (with_reducible apply Kept.ite) | split

theorem State.zPeerClose_kept {z s : State} (h : Kept z s) (i : Nat) (c : Conn) :
    Kept z (State.zPeerClose s i c) := by
  unfold State.zPeerClose
  try dsimp only
  repeat' first
    | (with_reducible assumption) | (intro _) | (simp only [kept_mk]; with_reducible apply Kept.upd)
    | (with_reducible apply State.noteEv_kept) | (with_reducible apply State.modConn_kept) | (with_reducible apply State.zClose_kept)

theorem State.zSeen_kept {z s : State} (h : Kept z s) (i pn typ flags : Nat) (c : Conn) :
    Kept z (State.zSeen s i pn typ flags c) := by
  unfold State.zSeen
  try dsimp only
  repeat' first
    | (with_reducible assumption) | (simp only [kept_mk]; with_reducible apply Kept.upd) | (with_reducible apply State.setConn_kept)
    | (with_reducible apply State.zHeard_kept) | (with_reducible apply Kept.ite) | split

theorem State.zHandle_kept {z s : State} (h : Kept z s) (i : Nat) (k : ZPkt) (rtt : Nat) :
    Kept z (State.zHandle s i k rtt) := by
  unfold State.zHandle
  try dsimp only
  repeat' first
    | (with_reducible assumption) | (simp only [kept_mk]; with_reducible apply Kept.upd) | (with_reducible apply State.fsat_kept)
    | (with_reducible apply State.touchConn_kept) | (with_reducible apply State.zExhausted_kept)
    | (with_reducible apply State.zPump_kept) | (with_reducible apply State.zData_kept) | (with_reducible apply State.zAcked_kept)
    | (with_reducible apply State.authFail_kept) | (with_reducible apply State.zHelloIn_kept)
    | (with_reducible apply State.zHelloAckIn_kept) | (with_reducible apply State.zPeerClose_kept)
    | (with_reducible apply State.zSeen_kept) | (with_reducible apply Kept.ite) | split

theorem State.zMiss_kept {z s : State} (h : Kept z s) (i : Nat) (c : Conn) (k : ZPkt) :
    Kept z (State.zMiss s i c k) := by
  unfold State.zMiss
  try dsimp only
  repeat' first
    | (with_reducible assumption) | (simp only [kept_mk]; with_reducible apply Kept.upd) | (with_reducible apply State.fset_kept)
    | (with_reducible apply State.fsat_kept) | (with_reducible apply State.zFetch_kept) | (with_reducible apply Kept.ite) | split

theorem State.zArrive_kept {z s : State} (h : Kept z s) (typ : Nat) (k : ZPkt) (rtt : Nat) :
    Kept z (State.zArrive s typ k rtt) := by
  unfold State.zArrive
  try dsimp only
  repeat' first
    | (with_reducible assumption) | (simp only [kept_mk]; with_reducible apply Kept.upd) | (with_reducible apply State.fsat_kept)
    | (with_reducible apply State.sticky_kept) | (with_reducible apply State.takeFrame_kept)
    | (with_reducible apply State.zHandle_kept) | (with_reducible apply State.zMiss_kept) | (with_reducible apply Kept.ite) | split

theorem State.zEvict_kept {z s : State} (h : Kept z s) (i : Nat) :
    Kept z (State.zEvict s i) := by
  unfold State.zEvict
  try dsimp only
  repeat' first
    | (with_reducible assumption) | (intro _) | (simp only [kept_mk]; with_reducible apply Kept.upd)
    | (with_reducible apply State.freeBytes_kept) | (with_reducible apply State.hostWrite_kept)
    | (with_reducible apply State.modConn_kept) | (with_reducible apply State.zFetch_kept) | (with_reducible apply Kept.ite)
    | (dsimp only) | split | (refine Kept.ofFst (by assumption) ?_) | (refine Kept.ofSnd (by assumption) ?_)

theorem State.zSlot_kept {z s t : State} (h : Kept z s) {p : Nat} (e : State.zSlot s p = some t) : Kept z t := by
  unfold State.zSlot at e
  dsimp only at e
  repeat' split at e
  · cases e; exact h
  · cases e
  · rw [Option.map_eq_some_iff] at e
    obtain ⟨_, _, rfl⟩ := e
    exact State.zEvict_kept h _

theorem State.fetchDone_kept {z s : State} (h : Kept z s) (i : Nat) (ok : Bool) (rtts : List Nat) :
    Kept z (State.fetchDone s i ok rtts) := by
  unfold State.fetchDone
  try dsimp only
  repeat' first
    | (with_reducible assumption) | (intro _) | (simp only [kept_mk]; with_reducible apply Kept.upd)
    | (with_reducible apply State.modConn_kept) | (with_reducible apply State.zFault_kept) | (with_reducible apply State.zClose_kept)
    | (with_reducible apply State.zPump_kept) | (with_reducible apply State.zHandle_kept)
    | (with_reducible refine Kept.foldl ?_ (fun _ _ _ => ?_) _) | (with_reducible refine Kept.foldl1 ?_ (fun _ _ _ => ?_) _)
    | (with_reducible apply Kept.ite) | (dsimp only) | split | (refine Kept.ofFst (by assumption) ?_)
    | (refine Kept.ofSnd (by assumption) ?_) | (refine State.zSlot_kept ?_ (by assumption))

theorem State.opCode_kept {z s : State} (h : Kept z s) (p code : Nat) :
    Kept z (State.opCode s p code) := by
  unfold State.opCode
  repeat' first
    | (with_reducible assumption) | (with_reducible apply State.fsets_kept)

theorem State.zOpen_kept {z s : State} (h : Kept z s) (p : Nat) :
    Kept z (State.zOpen s p) := by
  unfold State.zOpen
  try dsimp only
  repeat' first
    | (with_reducible assumption) | (intro _) | (simp only [kept_mk]; with_reducible apply Kept.upd)
    | (with_reducible apply State.fset_kept) | (with_reducible apply State.freeBytes_kept) | (with_reducible apply State.memSee_kept)
    | (with_reducible apply State.setConn_kept) | (with_reducible apply State.touchConn_kept)
    | (with_reducible apply State.zHello_kept) | (with_reducible apply State.opCode_kept) | (with_reducible apply Kept.ite)
    | (dsimp only) | split | (refine Kept.ofFst (by assumption) ?_) | (refine Kept.ofSnd (by assumption) ?_)
    | (refine State.zSlot_kept ?_ (by assumption))

theorem State.zRetryOpens_kept {z s : State} (h : Kept z s)  :
    Kept z (State.zRetryOpens s) := by
  unfold State.zRetryOpens
  try dsimp only
  repeat' first
    | (with_reducible assumption) | (intro _) | (with_reducible apply State.zOpen_kept)
    | (with_reducible refine Kept.foldl ?_ (fun _ _ _ => ?_) _) | (with_reducible refine Kept.foldl1 ?_ (fun _ _ _ => ?_) _)

theorem State.zCloseOp_kept {z s : State} (h : Kept z s) (p : Nat) :
    Kept z (State.zCloseOp s p) := by
  unfold State.zCloseOp
  try dsimp only
  repeat' first
    | (with_reducible assumption) | (simp only [kept_mk]; with_reducible apply Kept.upd)
    | (with_reducible apply State.zCloseLocal_kept) | (with_reducible apply State.opCode_kept) | (with_reducible apply Kept.ite)
    | split

theorem State.zRelease_kept {z s : State} (h : Kept z s) (p : Nat) :
    Kept z (State.zRelease s p) := by
  unfold State.zRelease
  try dsimp only
  repeat' first
    | (with_reducible assumption) | (intro _) | (simp only [kept_mk]; with_reducible apply Kept.upd)
    | (with_reducible apply State.opCode_kept) | (with_reducible apply State.zRetryOpens_kept) | (with_reducible apply Kept.ite)
    | split

theorem State.zRebindOp_kept {z s : State} (h : Kept z s) (p : Nat) :
    Kept z (State.zRebindOp s p) := by
  unfold State.zRebindOp
  try dsimp only
  repeat' first
    | (with_reducible assumption) | (simp only [kept_mk]; with_reducible apply Kept.upd) | (with_reducible apply State.opCode_kept)
    | split | (refine State.zRebind_kept ?_ (by assumption))

theorem State.zQuery_kept {z s : State} (h : Kept z s) (p : Nat) :
    Kept z (State.zQuery s p) := by
  unfold State.zQuery
  try dsimp only
  repeat' first
    | (with_reducible assumption) | (simp only [kept_mk]; with_reducible apply Kept.upd) | (with_reducible apply State.fsets_kept)
    | (with_reducible apply State.opCode_kept) | split

theorem State.zOp_kept {z s : State} (h : Kept z s) (p op : Nat) :
    Kept z (State.zOp s p op) := by
  unfold State.zOp
  try dsimp only
  repeat' first
    | (with_reducible assumption) | (simp only [kept_mk]; with_reducible apply Kept.upd) | (with_reducible apply State.zOpen_kept)
    | (with_reducible apply State.zCloseOp_kept) | (with_reducible apply State.zRelease_kept)
    | (with_reducible apply State.zRebindOp_kept) | (with_reducible apply State.zQuery_kept) | (with_reducible apply Kept.ite)
    | split

theorem State.zTimer_kept {z s : State} (h : Kept z s) (n : Nat) (states : List Nat) (f : Nat → Conn → State)
    (hf : ∀ i c, Kept z (f i c)) : Kept z (State.zTimer s n states f) := by
  unfold State.zTimer
  repeat' first
    | (with_reducible assumption) | (with_reducible apply hf) | (with_reducible apply Kept.ite) | split

theorem State.setupTimeout_kept {z s : State} (h : Kept z s) (n : Nat) :
    Kept z (State.setupTimeout s n) := by
  unfold State.setupTimeout
  try dsimp only
  repeat' first
    | (with_reducible assumption) | (intro _) | (with_reducible apply State.zFault_kept) | (with_reducible apply State.zClose_kept)
    | (with_reducible apply State.zTimer_kept)

theorem State.closeRepeat_kept {z s : State} (h : Kept z s) (n : Nat) :
    Kept z (State.closeRepeat s n) := by
  unfold State.closeRepeat
  try dsimp only
  repeat' first
    | (with_reducible assumption) | (intro _) | (simp only [kept_mk]; with_reducible apply Kept.upd)
    | (with_reducible apply State.modConn_kept) | (with_reducible apply State.zSendClose_kept)
    | (with_reducible apply State.zTimer_kept) | (with_reducible apply Kept.ite) | split

theorem State.ackDelay_kept {z s : State} (h : Kept z s) (n : Nat) :
    Kept z (State.ackDelay s n) := by
  unfold State.ackDelay
  try dsimp only
  repeat' first
    | (with_reducible assumption) | (intro _) | (simp only [kept_mk]; with_reducible apply Kept.upd)
    | (with_reducible apply State.setConn_kept) | (with_reducible apply State.zPump_kept) | (with_reducible apply State.zTimer_kept)
    | (with_reducible apply Kept.ite) | split

theorem State.zDrain_kept {z s : State} (h : Kept z s) (p : Nat) :
    Kept z (State.zDrain s p) := by
  unfold State.zDrain
  try dsimp only
  repeat' first
    | (with_reducible assumption) | (intro _) | (with_reducible apply State.zCompleteAll_kept)
    | (with_reducible apply State.zPump_kept) | (with_reducible apply State.zAnnounce_kept)
    | (with_reducible refine Kept.foldl ?_ (fun _ _ _ => ?_) _) | (with_reducible refine Kept.foldl1 ?_ (fun _ _ _ => ?_) _)

theorem State.zLoseHost_kept {z s : State} (h : Kept z s) (p : Nat) :
    Kept z (State.zLoseHost s p) := by
  unfold State.zLoseHost
  try dsimp only
  repeat' first
    | (with_reducible assumption) | (intro _) | (simp only [kept_mk]; with_reducible apply Kept.upd) | (dsimp only) | split
    | (refine Kept.ofFst (by assumption) ?_) | (refine Kept.ofSnd (by assumption) ?_)

theorem State.zLoseContexts_kept {z s : State} (h : Kept z s) (p : Nat) :
    Kept z (State.zLoseContexts s p) := by
  unfold State.zLoseContexts
  try dsimp only
  repeat' first
    | (with_reducible assumption) | (intro _) | (with_reducible apply State.zFault_kept) | (with_reducible apply State.zClose_kept)
    | (with_reducible refine Kept.foldl ?_ (fun _ _ _ => ?_) _) | (with_reducible refine Kept.foldl1 ?_ (fun _ _ _ => ?_) _)

theorem State.zTrim_kept {z s : State} (h : Kept z s) (p : Nat) (n_ : Nat) :
    Kept z (State.zTrim p n_ s) := by
  induction n_ generalizing s with
  | zero => exact h
  | succ n_ ih =>
  unfold State.zTrim
  try dsimp only
  repeat' first
    | (with_reducible assumption) | (intro _) | (simp only [kept_mk]; with_reducible apply Kept.upd)
    | (with_reducible apply State.zEvict_kept) | (with_reducible apply ih) | (with_reducible apply Kept.ite)
    | (with_reducible apply Kept.ite1) | (with_reducible apply Kept.ite2) | (dsimp only) | split
    | (refine Kept.ofFst (by assumption) ?_) | (refine Kept.ofSnd (by assumption) ?_)

theorem State.zFindHost_kept {z s : State} (h : Kept z s) (p : Nat) :
    Kept z (State.zFindHost s p) := by
  unfold State.zFindHost
  try dsimp only
  repeat' first
    | (with_reducible assumption) | (intro _) | (with_reducible apply State.fset_kept) | (with_reducible apply State.zFetch_kept)
    | (with_reducible apply State.zRetryOpens_kept) | (with_reducible apply State.zTrim_kept)
    | (with_reducible refine Kept.foldl ?_ (fun _ _ _ => ?_) _) | (with_reducible refine Kept.foldl1 ?_ (fun _ _ _ => ?_) _)

theorem State.zRetireRoot_kept {z s : State} (h : Kept z s) (x : Nat) :
    Kept z (State.zRetireRoot s x) := by
  unfold State.zRetireRoot
  try dsimp only
  repeat' first
    | (with_reducible assumption) | (intro _) | (with_reducible apply State.zClose_kept)
    | (with_reducible refine Kept.foldl ?_ (fun _ _ _ => ?_) _) | (with_reducible refine Kept.foldl1 ?_ (fun _ _ _ => ?_) _)

theorem State.subIdle_kept {z s : State} (h : Kept z s) (j k : Nat) :
    Kept z (State.subIdle s j k) := by
  unfold State.subIdle
  try dsimp only
  repeat' first
    | (with_reducible assumption) | (intro _) | (with_reducible apply State.lpiEntry_kept) | (with_reducible apply Kept.ite) | split

end Sys2Proof.Machine
end

