-- ==== Sys2Proof/Laws/KeptHostIf.lean ====
section
/-!
SUPPORT. The operations of Machine/HostIf.lean keep the fuses, the queue and the canonical form of the memories.
-/
namespace Sys2Proof.Machine

theorem State.hostViolate_kept {z s : State} (h : Kept z s) (p a : Nat) :
    Kept z (State.hostViolate s p a) := by
  unfold State.hostViolate
  repeat' first
    | (with_reducible assumption) | (with_reducible apply State.violate_kept)

theorem State.winRead_kept {z s : State} (h : Kept z s) (p a n : Nat) (dev : Bool) :
    Kept z (State.winRead s p a n dev).1 := by
  unfold State.winRead
  try dsimp only
  repeat' first
    | (with_reducible assumption) | (intro _) | (with_reducible apply State.memRead_kept)
    | (with_reducible apply State.hostViolate_kept) | (with_reducible refine Kept.foldl ?_ (fun _ _ _ => ?_) _)
    | (with_reducible refine Kept.foldl1 ?_ (fun _ _ _ => ?_) _) | (with_reducible apply Kept.ite) | (with_reducible apply Kept.ite1)
    | (with_reducible apply Kept.ite2) | (dsimp only) | split | (refine Kept.ofFst (by assumption) ?_)
    | (refine Kept.ofSnd (by assumption) ?_)

theorem State.winWrite_kept {z s : State} (h : Kept z s) (p a : Nat) (bs : List Byte) (dev : Bool) :
    Kept z (State.winWrite s p a bs dev).1 := by
  unfold State.winWrite
  try dsimp only
  repeat' first
    | (with_reducible assumption) | (intro _) | (with_reducible apply State.memWrite_kept)
    | (with_reducible apply State.hostViolate_kept) | (with_reducible refine Kept.foldl ?_ (fun _ _ _ => ?_) _)
    | (with_reducible refine Kept.foldl1 ?_ (fun _ _ _ => ?_) _) | (with_reducible apply Kept.ite) | (with_reducible apply Kept.ite1)
    | (with_reducible apply Kept.ite2) | (dsimp only) | split | (refine Kept.ofFst (by assumption) ?_)
    | (refine Kept.ofSnd (by assumption) ?_)

theorem State.ioReadNow_kept {z s : State} (h : Kept z s) (fn off n : Nat) :
    Kept z (State.ioReadNow s fn off n) := by
  unfold State.ioReadNow
  try dsimp only
  repeat' first
    | (with_reducible assumption) | (simp only [kept_mk]; with_reducible apply Kept.upd) | (with_reducible apply State.emit_kept)
    | (with_reducible apply State.winRead_kept) | (dsimp only) | split | (refine Kept.ofFst (by assumption) ?_)
    | (refine Kept.ofSnd (by assumption) ?_)

theorem State.ioWriteNow_kept {z s : State} (h : Kept z s) (fn off : Nat) (bs : List Byte) :
    Kept z (State.ioWriteNow s fn off bs) := by
  unfold State.ioWriteNow
  try dsimp only
  repeat' first
    | (with_reducible assumption) | (simp only [kept_mk]; with_reducible apply Kept.upd) | (with_reducible apply State.emit_kept)
    | (with_reducible apply State.winWrite_kept) | (dsimp only) | split | (refine Kept.ofFst (by assumption) ?_)
    | (refine Kept.ofSnd (by assumption) ?_)

theorem State.biasRefuse_kept {z s : State} (h : Kept z s) (p : Nat) :
    Kept z (State.biasRefuse s p) := by
  unfold State.biasRefuse
  repeat' first
    | (with_reducible assumption) | (with_reducible apply State.fset_kept) | (with_reducible apply State.fsat_kept)

theorem State.memReadNow_kept {z s : State} (h : Kept z s) (off n : Nat) :
    Kept z (State.memReadNow s off n) := by
  unfold State.memReadNow
  try dsimp only
  repeat' first
    | (with_reducible assumption) | (simp only [kept_mk]; with_reducible apply Kept.upd) | (with_reducible apply State.emit_kept)
    | (with_reducible apply State.winRead_kept) | (with_reducible apply State.biasRefuse_kept) | (with_reducible apply Kept.ite)
    | (dsimp only) | split | (refine Kept.ofFst (by assumption) ?_) | (refine Kept.ofSnd (by assumption) ?_)

theorem State.memWriteNow_kept {z s : State} (h : Kept z s) (off : Nat) (bs : List Byte) :
    Kept z (State.memWriteNow s off bs) := by
  unfold State.memWriteNow
  try dsimp only
  repeat' first
    | (with_reducible assumption) | (simp only [kept_mk]; with_reducible apply Kept.upd) | (with_reducible apply State.winWrite_kept)
    | (with_reducible apply State.biasRefuse_kept) | (with_reducible apply Kept.ite) | (dsimp only) | split
    | (refine Kept.ofFst (by assumption) ?_) | (refine Kept.ofSnd (by assumption) ?_)

theorem State.hostOp_kept {z s : State} (h : Kept z s) (o : HostOp) (f : State → State) (hf : ∀ s , Kept z s → Kept z (f s )) :
    Kept z (State.hostOp s o f) := by
  unfold State.hostOp
  try dsimp only
  repeat' first
    | (with_reducible assumption) | (with_reducible apply hf) | (simp only [kept_mk]; with_reducible apply Kept.upd)
    | (with_reducible apply State.wakeUp_kept) | (with_reducible apply Kept.ite) | split

theorem State.setBias_kept {z s : State} (h : Kept z s) (o g v : Nat) :
    Kept z (State.setBias s o g v) := by
  unfold State.setBias
  try dsimp only
  repeat' first
    | (with_reducible assumption) | (simp only [kept_mk]; with_reducible apply Kept.upd)

theorem State.flip_kept {z s : State} (h : Kept z s) (p o g : Nat) (dirty : HostStores) :
    Kept z (State.flip s p o g dirty) := by
  unfold State.flip
  try dsimp only
  repeat' first
    | (with_reducible assumption) | (intro _) | (simp only [kept_mk]; with_reducible apply Kept.upd)
    | (with_reducible apply State.snoop_kept) | (with_reducible apply State.memWrite_kept) | (with_reducible apply State.setBias_kept)
    | (with_reducible refine Kept.foldl ?_ (fun _ _ _ => ?_) _) | (with_reducible refine Kept.foldl1 ?_ (fun _ _ _ => ?_) _)
    | (with_reducible apply Kept.ite) | (dsimp only) | split | (refine Kept.ofFst (by assumption) ?_)
    | (refine Kept.ofSnd (by assumption) ?_)

theorem State.biasPage_kept {z s : State} (h : Kept z s) (p a mode : Nat) (dirty : HostStores) :
    Kept z (State.biasPage s p a mode dirty) := by
  unfold State.biasPage
  try dsimp only
  repeat' first
    | (with_reducible assumption) | (simp only [kept_mk]; with_reducible apply Kept.upd) | (with_reducible apply State.setBias_kept)
    | (with_reducible apply State.flip_kept) | (with_reducible apply Kept.ite) | split

theorem State.flipAll_kept {z s : State} (h : Kept z s) (p : Nat) (dirty : HostStores) :
    Kept z (State.flipAll s p dirty) := by
  unfold State.flipAll
  try dsimp only
  repeat' first
    | (with_reducible assumption) | (intro _) | (simp only [kept_mk]; with_reducible apply Kept.upd)
    | (with_reducible apply State.flip_kept) | (with_reducible refine Kept.foldl ?_ (fun _ _ _ => ?_) _)
    | (with_reducible refine Kept.foldl1 ?_ (fun _ _ _ => ?_) _) | split

theorem State.stallPaging_kept {z s : State} (h : Kept z s) (p : Nat) :
    Kept z (State.stallPaging s p) := by
  unfold State.stallPaging
  repeat' first
    | (with_reducible assumption) | (with_reducible apply State.fset_kept) | (with_reducible apply Kept.ite) | split

theorem State.lose_kept {z s : State} (h : Kept z s) (p cause : Nat) :
    Kept z (State.lose s p cause) := by
  unfold State.lose
  try dsimp only
  repeat' first
    | (with_reducible assumption) | (simp only [kept_mk]; with_reducible apply Kept.upd) | (with_reducible apply State.fset_kept)
    | (with_reducible apply State.setHp_kept) | (with_reducible apply State.zLoseHost_kept)
    | (with_reducible apply State.stallPaging_kept) | (with_reducible apply Kept.ite) | split

theorem State.dropOps_kept {z s : State} (h : Kept z s) (fn : Option Nat) :
    Kept z (State.dropOps s fn) := by
  unfold State.dropOps
  try dsimp only
  repeat' first
    | (with_reducible assumption) | (intro _) | (simp only [kept_mk]; with_reducible apply Kept.upd) | split

theorem State.loseAll_kept {z s : State} (h : Kept z s) (cause : Nat) :
    Kept z (State.loseAll s cause) := by
  unfold State.loseAll
  try dsimp only
  repeat' first
    | (with_reducible assumption) | (intro _) | (with_reducible apply State.lose_kept)
    | (with_reducible refine Kept.foldl ?_ (fun _ _ _ => ?_) _) | (with_reducible refine Kept.foldl1 ?_ (fun _ _ _ => ?_) _)

theorem State.linkLost_kept {z s : State} (h : Kept z s)  :
    Kept z (State.linkLost s) := by
  unfold State.linkLost
  repeat' first
    | (with_reducible assumption) | (with_reducible apply State.fsets_kept)

theorem State.msixReset_kept {z s : State} (h : Kept z s) (fn : Nat) :
    Kept z (State.msixReset s fn) := by
  unfold State.msixReset
  try dsimp only
  repeat' first
    | (with_reducible assumption) | (intro _) | (simp only [kept_mk]; with_reducible apply Kept.upd) | (dsimp only) | split
    | (refine Kept.ofFst (by assumption) ?_) | (refine Kept.ofSnd (by assumption) ?_)

theorem State.hostLoss_kept {z s : State} (h : Kept z s) (cause fn : Nat) :
    Kept z (State.hostLoss s cause fn) := by
  unfold State.hostLoss
  try dsimp only
  repeat' first
    | (with_reducible assumption) | (intro _) | (simp only [kept_mk]; with_reducible apply Kept.upd)
    | (with_reducible apply State.fset_kept) | (with_reducible apply State.lose_kept) | (with_reducible apply State.dropOps_kept)
    | (with_reducible apply State.loseAll_kept) | (with_reducible apply State.linkLost_kept)
    | (with_reducible apply State.msixReset_kept) | (with_reducible refine Kept.foldl ?_ (fun _ _ _ => ?_) _)
    | (with_reducible refine Kept.foldl1 ?_ (fun _ _ _ => ?_) _) | (with_reducible apply Kept.ite) | (dsimp only) | split
    | (refine Kept.ofFst (by assumption) ?_) | (refine Kept.ofSnd (by assumption) ?_)

theorem State.bindWrite_kept {z s : State} (h : Kept z s) (v : Nat) (dirty : HostStores) :
    Kept z (State.bindWrite s v dirty) := by
  unfold State.bindWrite
  try dsimp only
  repeat' first
    | (with_reducible assumption) | (intro _) | (with_reducible apply State.fsets_kept) | (with_reducible apply State.flipAll_kept)
    | (with_reducible apply State.lose_kept) | (with_reducible apply State.dropOps_kept)
    | (with_reducible refine Kept.foldl ?_ (fun _ _ _ => ?_) _) | (with_reducible refine Kept.foldl1 ?_ (fun _ _ _ => ?_) _)
    | (with_reducible apply Kept.ite) | split

theorem State.linkTrained_kept {z s : State} (h : Kept z s) (p width rate : Nat) :
    Kept z (State.linkTrained s p width rate) := by
  unfold State.linkTrained
  try dsimp only
  repeat' first
    | (with_reducible assumption) | (simp only [kept_mk]; with_reducible apply Kept.upd) | (with_reducible apply State.fsets_kept)
    | (with_reducible apply Kept.ite) | split

theorem State.irqRelease_kept {z s : State} (h : Kept z s) (p : Nat) :
    Kept z (State.irqRelease s p) := by
  unfold State.irqRelease
  try dsimp only
  repeat' first
    | (with_reducible assumption) | (simp only [kept_mk]; with_reducible apply Kept.upd) | (with_reducible apply State.evtIrq_kept)
    | (with_reducible apply Kept.ite) | split

theorem State.resumeHost_kept {z s : State} (h : Kept z s) (p : Nat) :
    Kept z (State.resumeHost s p) := by
  unfold State.resumeHost
  repeat' first
    | (with_reducible assumption) | (with_reducible apply State.fset_kept) | (with_reducible apply State.modelsWant_kept)
    | (with_reducible apply State.pagesWant_kept) | (with_reducible apply State.zFindHost_kept)
    | (with_reducible apply State.irqRelease_kept)

theorem State.firstAttach_kept {z s : State} (h : Kept z s) (p width rate : Nat) :
    Kept z (State.firstAttach s p width rate) := by
  unfold State.firstAttach
  try dsimp only
  repeat' first
    | (with_reducible assumption) | (simp only [kept_mk]; with_reducible apply Kept.upd) | (with_reducible apply State.setHp_kept)
    | (with_reducible apply State.linkTrained_kept) | (with_reducible apply State.resumeHost_kept) | (with_reducible apply Kept.ite)
    | split

theorem State.cplEntry_kept {z s : State} (h : Kept z s) (p x : Nat) (rec_ : List Byte) :
    Kept z (State.cplEntry s p x rec_) := by
  unfold State.cplEntry
  try dsimp only
  repeat' first
    | (with_reducible assumption) | (with_reducible apply State.hostWrite_kept)

theorem State.rewrite_kept {z s : State} (h : Kept z s) (p : Nat) :
    Kept z (State.rewrite s p) := by
  unfold State.rewrite
  try dsimp only
  repeat' first
    | (with_reducible assumption) | (intro _) | (with_reducible apply State.cplEntry_kept)
    | (with_reducible refine Kept.foldl ?_ (fun _ _ _ => ?_) _) | (with_reducible refine Kept.foldl1 ?_ (fun _ _ _ => ?_) _)

theorem State.notKept_kept {z s : State} (h : Kept z s) (p : Nat) :
    Kept z (State.notKept s p) := by
  unfold State.notKept
  try dsimp only
  repeat' first
    | (with_reducible assumption) | (intro _) | (simp only [kept_mk]; with_reducible apply Kept.upd)
    | (with_reducible apply State.fset_kept) | (with_reducible apply State.setSp_kept) | (with_reducible apply State.setPage_kept)
    | (with_reducible apply State.zLoseContexts_kept) | (with_reducible refine Kept.foldl ?_ (fun _ _ _ => ?_) _)
    | (with_reducible refine Kept.foldl1 ?_ (fun _ _ _ => ?_) _)

theorem State.attach_kept {z s : State} (h : Kept z s) (p : Nat) (kept : Bool) :
    Kept z (State.attach s p kept) := by
  unfold State.attach
  try dsimp only
  repeat' first
    | (with_reducible assumption) | (intro _) | (simp only [kept_mk]; with_reducible apply Kept.upd)
    | (with_reducible apply State.resumeHost_kept) | (with_reducible apply State.rewrite_kept)
    | (with_reducible apply State.notKept_kept) | (with_reducible apply Kept.ite) | (dsimp only) | split
    | (refine Kept.ofFst (by assumption) ?_) | (refine Kept.ofSnd (by assumption) ?_)

theorem State.cplWrite_kept {z s : State} (h : Kept z s) (p : Nat) :
    Kept z (State.cplWrite s p) := by
  unfold State.cplWrite
  try dsimp only
  repeat' first
    | (with_reducible assumption) | (simp only [kept_mk]; with_reducible apply Kept.upd) | (with_reducible apply State.finc_kept)
    | (with_reducible apply State.setHp_kept) | (with_reducible apply State.cplEntry_kept) | (with_reducible apply Kept.ite) | split

theorem State.cplIrq_kept {z s : State} (h : Kept z s) (p : Nat) :
    Kept z (State.cplIrq s p) := by
  unfold State.cplIrq
  try dsimp only
  repeat' first
    | (with_reducible assumption) | (simp only [kept_mk]; with_reducible apply Kept.upd) | (with_reducible apply State.setHp_kept)
    | (with_reducible apply State.msix_kept) | (with_reducible apply Kept.ite) | split

theorem State.cplTail_kept {z s : State} (h : Kept z s) (p v : Nat) :
    Kept z (State.cplTail s p v) := by
  unfold State.cplTail
  try dsimp only
  repeat' first
    | (with_reducible assumption) | (simp only [kept_mk]; with_reducible apply Kept.upd) | (with_reducible apply State.fset_kept)
    | (with_reducible apply State.setHp_kept) | (with_reducible apply State.zDrain_kept) | (with_reducible apply Kept.ite) | split

theorem State.setCr_kept {z s : State} (h : Kept z s) (p r : Nat) (c : Cr) :
    Kept z (State.setCr s p r c) := by
  unfold State.setCr
  try dsimp only
  repeat' first
    | (with_reducible assumption) | (simp only [kept_mk]; with_reducible apply Kept.upd)

theorem State.crFault_kept {z s : State} (h : Kept z s) (p r code : Nat) :
    Kept z (State.crFault s p r code) := by
  unfold State.crFault
  try dsimp only
  repeat' first
    | (with_reducible assumption) | (with_reducible apply State.fset_kept) | (with_reducible apply State.recErr_kept)
    | (with_reducible apply State.setCr_kept) | (with_reducible apply Kept.ite) | split

theorem State.crMiss_kept {z s : State} (h : Kept z s) (p r : Nat) :
    Kept z (State.crMiss s p r) := by
  unfold State.crMiss
  try dsimp only
  repeat' first
    | (with_reducible assumption) | (simp only [kept_mk]; with_reducible apply Kept.upd) | (with_reducible apply State.setCr_kept)
    | (with_reducible apply Kept.ite) | split

theorem State.crNext_kept {z s : State} (h : Kept z s) (p r : Nat) (c : CrCmd) :
    Kept z (State.crNext s p r c) := by
  unfold State.crNext
  repeat' first
    | (with_reducible assumption) | (with_reducible apply State.finc_kept) | (with_reducible apply State.setCr_kept)

theorem State.crRun_kept {z s : State} (h : Kept z s) (p r opc : Nat) (h : HostStores) (f : State → CrCmd → State) (hf : ∀ s a0, Kept z s → Kept z (f s a0)) :
    Kept z (State.crRun s p r opc h f) := by
  unfold State.crRun
  try dsimp only
  repeat' first
    | (with_reducible assumption) | (with_reducible apply hf) | (simp only [kept_mk]; with_reducible apply Kept.upd)
    | (with_reducible apply State.hostStores_kept) | (with_reducible apply State.setCr_kept)
    | (with_reducible apply State.crFault_kept) | (with_reducible apply State.crMiss_kept) | (with_reducible apply Kept.ite) | split

theorem State.handTask_kept {z s : State} (h : Kept z s) (p r : Nat) (d : List Byte) :
    Kept z (State.handTask s p r d) := by
  unfold State.handTask
  try dsimp only
  repeat' first
    | (with_reducible assumption) | (simp only [kept_mk]; with_reducible apply Kept.upd) | (with_reducible apply State.setSp_kept)

theorem State.poisonRecord_kept {z s : State} (h : Kept z s) (p r opc item a : Nat) :
    Kept z (State.poisonRecord s p r opc item a) := by
  unfold State.poisonRecord
  repeat' first
    | (with_reducible assumption) | (with_reducible apply State.cplPut_kept)

theorem State.cmdTask_kept {z s : State} (h : Kept z s) (p r : Nat) (c : CrCmd) :
    Kept z (State.cmdTask s p r c) := by
  unfold State.cmdTask
  repeat' first
    | (with_reducible assumption) | (with_reducible apply State.crNext_kept) | (with_reducible apply State.handTask_kept)
    | (with_reducible apply Kept.ite) | split

theorem State.cmdTaskRef_kept {z s : State} (h : Kept z s) (p r : Nat) (c : CrCmd) :
    Kept z (State.cmdTaskRef s p r c) := by
  unfold State.cmdTaskRef
  try dsimp only
  repeat' first
    | (with_reducible assumption) | (intro _) | (simp only [kept_mk]; with_reducible apply Kept.upd)
    | (with_reducible apply State.stray_kept) | (with_reducible apply State.memRead_kept) | (with_reducible apply State.demand_kept)
    | (with_reducible apply State.hostViolate_kept) | (with_reducible apply State.setCr_kept)
    | (with_reducible apply State.crFault_kept) | (with_reducible apply State.crNext_kept)
    | (with_reducible apply State.handTask_kept) | (with_reducible apply State.poisonRecord_kept) | (with_reducible apply Kept.ite)
    | (dsimp only) | split | (refine Kept.ofFst (by assumption) ?_) | (refine Kept.ofSnd (by assumption) ?_)

theorem State.cmdWrite_kept {z s : State} (h : Kept z s) (p r : Nat) (c : CrCmd) :
    Kept z (State.cmdWrite s p r c) := by
  unfold State.cmdWrite
  try dsimp only
  repeat' first
    | (with_reducible assumption) | (intro _) | (simp only [kept_mk]; with_reducible apply Kept.upd)
    | (with_reducible apply State.stray_kept) | (with_reducible apply State.winWrite_kept) | (with_reducible apply State.crFault_kept)
    | (with_reducible apply State.crNext_kept) | (with_reducible apply State.poisonRecord_kept) | (with_reducible apply Kept.ite)
    | (dsimp only) | split | (refine Kept.ofFst (by assumption) ?_) | (refine Kept.ofSnd (by assumption) ?_)

theorem State.cmdSignal_kept {z s : State} (h : Kept z s) (p r : Nat) (c : CrCmd) :
    Kept z (State.cmdSignal s p r c) := by
  unfold State.cmdSignal
  repeat' first
    | (with_reducible assumption) | (with_reducible apply State.sigAdd_kept) | (with_reducible apply State.crNext_kept)
    | (with_reducible apply Kept.ite) | split

theorem State.cmdBias_kept {z s : State} (h : Kept z s) (p r : Nat) (dirty : HostStores) (c : CrCmd) :
    Kept z (State.cmdBias s p r dirty c) := by
  unfold State.cmdBias
  try dsimp only
  repeat' first
    | (with_reducible assumption) | (intro _) | (with_reducible apply State.stray_kept) | (with_reducible apply State.biasPage_kept)
    | (with_reducible apply State.crFault_kept) | (with_reducible apply State.crNext_kept)
    | (with_reducible refine Kept.foldl ?_ (fun _ _ _ => ?_) _) | (with_reducible refine Kept.foldl1 ?_ (fun _ _ _ => ?_) _)
    | (with_reducible apply Kept.ite) | split

theorem State.crReread_kept {z s : State} (h : Kept z s) (p r : Nat) (h : HostStores) :
    Kept z (State.crReread s p r h) := by
  unfold State.crReread
  try dsimp only
  repeat' first
    | (with_reducible assumption) | (simp only [kept_mk]; with_reducible apply Kept.upd)
    | (with_reducible apply State.hostStores_kept) | (with_reducible apply State.setCr_kept)
    | (with_reducible apply State.crFault_kept) | (with_reducible apply State.crMiss_kept) | (with_reducible apply Kept.ite) | split

theorem State.crDoorbell_kept {z s : State} (h : Kept z s) (p r v : Nat) :
    Kept z (State.crDoorbell s p r v) := by
  unfold State.crDoorbell
  try dsimp only
  repeat' first
    | (with_reducible assumption) | (with_reducible apply State.fset_kept) | (with_reducible apply State.crFault_kept)
    | (with_reducible apply State.wakeUp_kept) | (with_reducible apply Kept.ite) | split

theorem State.crEnable_kept {z s : State} (h : Kept z s) (p r : Nat) (on : Bool) :
    Kept z (State.crEnable s p r on) := by
  unfold State.crEnable
  try dsimp only
  repeat' first
    | (with_reducible assumption) | (with_reducible apply State.fset_kept) | (with_reducible apply State.recErr_kept)
    | (with_reducible apply Kept.ite) | split

theorem State.crResume_kept {z s : State} (h : Kept z s) (p r : Nat) :
    Kept z (State.crResume s p r) := by
  unfold State.crResume
  repeat' first
    | (with_reducible assumption) | (with_reducible apply State.fset_kept) | (with_reducible apply State.setCr_kept)
    | (with_reducible apply Kept.ite) | split

end Sys2Proof.Machine
end

