-- ==== Sys2Proof/Laws/KeptFabric.lean ====
section
/-!
SUPPORT. The operations of Machine/Fabric.lean keep the fuses, the queue and the canonical form of the memories.
-/
namespace Sys2Proof.Machine

theorem State.stackReset_kept {z s : State} (h : Kept z s) (k : Nat) :
    Kept z (State.stackReset s k) := by
  unfold State.stackReset
  try dsimp only
  repeat' first
    | (with_reducible assumption) | (intro _) | (simp only [kept_mk]; with_reducible apply Kept.upd)
    | (with_reducible apply State.scrub_kept) | (with_reducible apply Kept.ite) | (dsimp only) | split
    | (refine Kept.ofFst (by assumption) ?_) | (refine Kept.ofSnd (by assumption) ?_)

theorem State.gateReset_kept {z s : State} (h : Kept z s) (g : Nat) :
    Kept z (State.gateReset s g) := by
  unfold State.gateReset
  try dsimp only
  repeat' first
    | (with_reducible assumption) | (intro _) | (simp only [kept_mk]; with_reducible apply Kept.upd)
    | (with_reducible apply State.eraseFields_kept) | (with_reducible apply State.linkFall_kept)
    | (with_reducible apply State.ethWipe_kept) | (with_reducible apply State.stackReset_kept)
    | (with_reducible refine Kept.foldl ?_ (fun _ _ _ => ?_) _) | (with_reducible refine Kept.foldl1 ?_ (fun _ _ _ => ?_) _)
    | (with_reducible apply Kept.ite) | (dsimp only) | split | (refine Kept.ofFst (by assumption) ?_)
    | (refine Kept.ofSnd (by assumption) ?_)

theorem State.setGate_kept {z s : State} (h : Kept z s) (g : Nat) (on : Bool) :
    Kept z (State.setGate s g on) := by
  unfold State.setGate
  try dsimp only
  repeat' first
    | (with_reducible assumption) | (with_reducible apply State.fset_kept) | (with_reducible apply Kept.ite) | split

theorem State.gateStop_kept {z s : State} (h : Kept z s) (g : Nat) :
    Kept z (State.gateStop s g) := by
  unfold State.gateStop
  try dsimp only
  repeat' first
    | (with_reducible assumption) | (simp only [kept_mk]; with_reducible apply Kept.upd) | (with_reducible apply State.gateReset_kept)
    | (with_reducible apply Kept.ite) | split

theorem State.gateStart_kept {z s : State} (h : Kept z s) (g : Nat) :
    Kept z (State.gateStart s g) := by
  unfold State.gateStart
  try dsimp only
  repeat' first
    | (with_reducible assumption) | (simp only [kept_mk]; with_reducible apply Kept.upd) | (with_reducible apply State.fset_kept)
    | (with_reducible apply State.gateReset_kept) | (with_reducible apply State.setGate_kept) | (with_reducible apply Kept.ite)
    | split

theorem State.gateClose_kept {z s : State} (h : Kept z s) (g : Nat) :
    Kept z (State.gateClose s g) := by
  unfold State.gateClose
  try dsimp only
  repeat' first
    | (with_reducible assumption) | (simp only [kept_mk]; with_reducible apply Kept.upd) | (with_reducible apply State.setGate_kept)
    | (with_reducible apply Kept.ite) | split

theorem State.gateWrite_kept {z s : State} (h : Kept z s) (n v : Nat) :
    Kept z (State.gateWrite s n v) := by
  unfold State.gateWrite
  try dsimp only
  repeat' first
    | (with_reducible assumption) | (intro _) | (with_reducible apply State.gateStart_kept)
    | (with_reducible apply State.gateClose_kept) | (with_reducible refine Kept.foldl ?_ (fun _ _ _ => ?_) _)
    | (with_reducible refine Kept.foldl1 ?_ (fun _ _ _ => ?_) _) | (with_reducible apply Kept.ite) | split

theorem State.applyGates_kept {z s : State} (h : Kept z s) (gate : Nat) :
    Kept z (State.applyGates s gate) := by
  unfold State.applyGates
  try dsimp only
  repeat' first
    | (with_reducible assumption) | (intro _) | (with_reducible apply State.fset_kept) | (with_reducible apply State.gateStop_kept)
    | (with_reducible apply State.gateStart_kept) | (with_reducible apply State.gateClose_kept)
    | (with_reducible refine Kept.foldl ?_ (fun _ _ _ => ?_) _) | (with_reducible refine Kept.foldl1 ?_ (fun _ _ _ => ?_) _)
    | (with_reducible apply Kept.ite) | split

theorem State.scrubChans_kept {z s : State} (h : Kept z s) (img : Image) (o : Nat) :
    Kept z (State.scrubChans s img o) := by
  unfold State.scrubChans
  try dsimp only
  repeat' first
    | (with_reducible assumption) | (intro _) | (simp only [kept_mk]; with_reducible apply Kept.upd)
    | (with_reducible apply State.zeroChannel_kept) | (with_reducible refine Kept.foldl ?_ (fun _ _ _ => ?_) _)
    | (with_reducible refine Kept.foldl1 ?_ (fun _ _ _ => ?_) _) | (with_reducible apply Kept.ite) | split

theorem State.dropWays_kept {z s : State} (h : Kept z s) (p waysA waysB : Nat) :
    Kept z (State.dropWays s p waysA waysB) := by
  unfold State.dropWays
  try dsimp only
  repeat' first
    | (with_reducible assumption) | (intro _) | (simp only [kept_mk]; with_reducible apply Kept.upd) | (with_reducible apply Kept.ite)
    | split

theorem State.scrubOut_kept {z s : State} (h : Kept z s) (img : Image) (p : Nat) :
    Kept z (State.scrubOut s img p) := by
  unfold State.scrubOut
  try dsimp only
  repeat' first
    | (with_reducible assumption) | (intro _) | (with_reducible apply State.tileWipe_kept)
    | (with_reducible apply State.dropTags_kept) | (with_reducible apply State.scrubChans_kept)
    | (with_reducible apply State.dropWays_kept) | (with_reducible refine Kept.foldl ?_ (fun _ _ _ => ?_) _)
    | (with_reducible refine Kept.foldl1 ?_ (fun _ _ _ => ?_) _)

theorem State.setOwner_kept {z s : State} (h : Kept z s) (img : Image) (o spill key : Nat) :
    Kept z (State.setOwner s img o spill key) := by
  unfold State.setOwner
  try dsimp only
  repeat' first
    | (with_reducible assumption) | (intro _) | (simp only [kept_mk]; with_reducible apply Kept.upd)
    | (with_reducible apply State.setSp_kept) | (with_reducible apply State.setChan_kept)
    | (with_reducible apply State.zeroChannel_kept) | (with_reducible apply State.demand_kept)
    | (with_reducible refine Kept.foldl ?_ (fun _ _ _ => ?_) _) | (with_reducible refine Kept.foldl1 ?_ (fun _ _ _ => ?_) _)
    | (with_reducible apply Kept.ite) | split

theorem State.freeChans_kept {z s : State} (h : Kept z s) (img : Image) :
    Kept z (State.freeChans s img) := by
  unfold State.freeChans
  try dsimp only
  repeat' first
    | (with_reducible assumption) | (intro _) | (simp only [kept_mk]; with_reducible apply Kept.upd)
    | (with_reducible apply State.setChan_kept) | (with_reducible refine Kept.foldl ?_ (fun _ _ _ => ?_) _)
    | (with_reducible refine Kept.foldl1 ?_ (fun _ _ _ => ?_) _) | (with_reducible apply Kept.ite) | split

theorem State.dropPart_kept {z s : State} (h : Kept z s) (p : Nat) :
    Kept z (State.dropPart s p) := by
  unfold State.dropPart
  try dsimp only
  repeat' first
    | (with_reducible assumption) | (intro _) | (simp only [kept_mk]; with_reducible apply Kept.upd)
    | (with_reducible apply State.setSp_kept) | (with_reducible refine Kept.foldl ?_ (fun _ _ _ => ?_) _)
    | (with_reducible refine Kept.foldl1 ?_ (fun _ _ _ => ?_) _)

theorem State.applySect_kept {z s : State} (h : Kept z s) (img : Image) (p : Nat) :
    Kept z (State.applySect s img p) := by
  unfold State.applySect
  try dsimp only
  repeat' first
    | (with_reducible assumption) | (simp only [kept_mk]; with_reducible apply Kept.upd) | (with_reducible apply State.fset_kept)
    | (with_reducible apply State.zTrim_kept) | (with_reducible apply State.setOwner_kept)
    | (with_reducible apply State.dropPart_kept) | (with_reducible apply Kept.ite) | split

theorem State.inForce_kept {z s : State} (h : Kept z s) (img : Image) (b : List Byte) :
    Kept z (State.inForce s img b) := by
  unfold State.inForce
  try dsimp only
  repeat' first
    | (with_reducible assumption) | (simp only [kept_mk]; with_reducible apply Kept.upd) | (with_reducible apply State.fsets_kept)

theorem State.giveTile_kept {z s : State} (h : Kept z s) (t role : Nat) (p : Option Nat) :
    Kept z (State.giveTile s t role p) := by
  unfold State.giveTile
  try dsimp only
  repeat' first
    | (with_reducible assumption) | (simp only [kept_mk]; with_reducible apply Kept.upd) | (with_reducible apply State.setRole_kept)
    | (with_reducible apply State.tileEn_kept) | (with_reducible apply Kept.ite) | split

theorem State.applyFull_kept {z s : State} (h : Kept z s) (j : LoadJob) :
    Kept z (State.applyFull s j) := by
  unfold State.applyFull
  try dsimp only
  repeat' first
    | (with_reducible assumption) | (intro _) | (with_reducible apply State.fset_kept) | (with_reducible apply State.linkFall_kept)
    | (with_reducible apply State.applyGates_kept) | (with_reducible apply State.scrubChans_kept)
    | (with_reducible apply State.setOwner_kept) | (with_reducible apply State.freeChans_kept)
    | (with_reducible apply State.applySect_kept) | (with_reducible apply State.inForce_kept)
    | (with_reducible apply State.giveTile_kept) | (with_reducible refine Kept.foldl ?_ (fun _ _ _ => ?_) _)
    | (with_reducible refine Kept.foldl1 ?_ (fun _ _ _ => ?_) _) | (with_reducible apply Kept.ite) | split

theorem State.applyPart_kept {z s : State} (h : Kept z s) (j : LoadJob) :
    Kept z (State.applyPart s j) := by
  unfold State.applyPart
  try dsimp only
  repeat' first
    | (with_reducible assumption) | (intro _) | (with_reducible apply State.gateStart_kept)
    | (with_reducible apply State.freeChans_kept) | (with_reducible apply State.applySect_kept)
    | (with_reducible apply State.inForce_kept) | (with_reducible apply State.giveTile_kept)
    | (with_reducible refine Kept.foldl ?_ (fun _ _ _ => ?_) _) | (with_reducible refine Kept.foldl1 ?_ (fun _ _ _ => ?_) _)
    | (with_reducible apply Kept.ite) | split

theorem State.loadEnd_kept {z s : State} (h : Kept z s) (j : LoadJob) :
    Kept z (State.loadEnd s j) := by
  unfold State.loadEnd
  try dsimp only
  repeat' first
    | (with_reducible assumption) | (simp only [kept_mk]; with_reducible apply Kept.upd) | (with_reducible apply State.fset_kept)
    | (with_reducible apply State.applyFull_kept) | (with_reducible apply State.applyPart_kept) | (with_reducible apply Kept.ite)
    | split

theorem State.lightApply_kept {z s : State} (h : Kept z s) (img : Image) (b : List Byte) (p : Nat) :
    Kept z (State.lightApply s img b p) := by
  unfold State.lightApply
  try dsimp only
  repeat' first
    | (with_reducible assumption) | (simp only [kept_mk]; with_reducible apply Kept.upd) | (with_reducible apply State.zTrim_kept)
    | (with_reducible apply State.inForce_kept) | split

theorem State.heavyStart_kept {z s : State} (h : Kept z s) (full : Bool) (part : Nat) (img : Image) (b : List Byte) (ps : List Nat) :
    Kept z (State.heavyStart s full part img b ps) := by
  unfold State.heavyStart
  try dsimp only
  repeat' first
    | (with_reducible assumption) | (intro _) | (simp only [kept_mk]; with_reducible apply Kept.upd)
    | (with_reducible apply State.fset_kept) | (with_reducible apply State.loadEnd_kept)
    | (with_reducible refine Kept.foldl ?_ (fun _ _ _ => ?_) _) | (with_reducible refine Kept.foldl1 ?_ (fun _ _ _ => ?_) _)
    | (with_reducible apply Kept.ite) | split

theorem State.loadStart_kept {z s : State} (h : Kept z s) (full : Bool) (b : List Byte) :
    Kept z (State.loadStart s full b) := by
  unfold State.loadStart
  try dsimp only
  repeat' first
    | (with_reducible assumption) | (intro _) | (simp only [kept_mk]; with_reducible apply Kept.upd)
    | (with_reducible apply State.fsets_kept) | (with_reducible apply State.inForce_kept)
    | (with_reducible apply State.lightApply_kept) | (with_reducible apply State.heavyStart_kept) | (with_reducible apply Kept.ite)
    | (dsimp only) | split | (refine Kept.ofFst (by assumption) ?_) | (refine Kept.ofSnd (by assumption) ?_)

theorem State.fabReject_kept {z s : State} (h : Kept z s) (code sec : Nat) :
    Kept z (State.fabReject s code sec) := by
  unfold State.fabReject
  repeat' first
    | (with_reducible assumption) | (with_reducible apply State.fsets_kept) | (with_reducible apply State.devEv_kept)

theorem State.loadImage_kept {z s : State} (h : Kept z s) (full : Bool) (b : List Byte) :
    Kept z (State.loadImage s full b).2 := by
  unfold State.loadImage
  try dsimp only
  repeat' first
    | (with_reducible assumption) | (simp only [kept_mk]; with_reducible apply Kept.upd) | (with_reducible apply State.loadStart_kept)
    | (with_reducible apply State.fabReject_kept) | (dsimp only) | split | (refine Kept.ofFst (by assumption) ?_)
    | (refine Kept.ofSnd (by assumption) ?_)

theorem State.drainEnd_kept {z s : State} (h : Kept z s) (p : Nat) :
    Kept z (State.drainEnd s p) := by
  unfold State.drainEnd
  repeat' first
    | (with_reducible assumption) | (with_reducible apply State.fset_kept) | (with_reducible apply Kept.ite) | split

theorem State.ligDrain_kept {z s : State} (h : Kept z s) (p : Nat) :
    Kept z (State.ligDrain s p) := by
  unfold State.ligDrain
  try dsimp only
  repeat' first
    | (with_reducible assumption) | (intro _) | (simp only [kept_mk]; with_reducible apply Kept.upd)
    | (with_reducible apply State.setLp_kept) | (with_reducible apply State.ligIdle_kept) | (with_reducible apply State.ligUndo_kept)
    | (with_reducible apply State.ligBeginAll_kept) | (with_reducible apply State.ligSkipEnd_kept)
    | (with_reducible apply State.stepCommit_kept) | (with_reducible apply State.rollbackDone_kept) | (with_reducible apply Kept.ite)
    | split

theorem State.reloadTimeout_kept {z s : State} (h : Kept z s) (p : Nat) :
    Kept z (State.reloadTimeout s p) := by
  unfold State.reloadTimeout
  try dsimp only
  repeat' first
    | (with_reducible assumption) | (intro _) | (simp only [kept_mk]; with_reducible apply Kept.upd)
    | (with_reducible apply State.fset_kept) | (with_reducible apply State.taskEnd_kept)
    | (with_reducible apply State.memberLost_kept) | (with_reducible apply State.ligDrain_kept)
    | (with_reducible refine Kept.foldl ?_ (fun _ _ _ => ?_) _) | (with_reducible refine Kept.foldl1 ?_ (fun _ _ _ => ?_) _)
    | (with_reducible apply Kept.ite) | split

theorem State.scrubEnd_kept {z s : State} (h : Kept z s) (p : Nat) :
    Kept z (State.scrubEnd s p) := by
  unfold State.scrubEnd
  try dsimp only
  repeat' first
    | (with_reducible assumption) | (simp only [kept_mk]; with_reducible apply Kept.upd)
    | (with_reducible apply State.ligEndStep_kept) | (with_reducible apply State.scrubOut_kept)
    | (with_reducible apply State.loadEnd_kept) | (with_reducible apply Kept.ite) | split

theorem State.imageStored_kept {z s : State} (h : Kept z s) (ok : Bool) :
    Kept z (State.imageStored s ok) := by
  unfold State.imageStored
  try dsimp only
  repeat' first
    | (with_reducible assumption) | (simp only [kept_mk]; with_reducible apply Kept.upd) | (with_reducible apply State.fset_kept)
    | (with_reducible apply State.devEv_kept) | (with_reducible apply State.rewrite_kept) | (with_reducible apply Kept.ite) | split

end Sys2Proof.Machine
end

