-- ==== Sys2Proof/Laws/KeptBoot.lean ====
section
/-!
SUPPORT. The operations of Machine/Boot.lean keep the fuses, the queue and the canonical form of the memories.
-/
namespace Sys2Proof.Machine

theorem State.trimBoot_kept {z s : State} (h : Kept z s)  :
    Kept z (State.trimBoot s) := by
  unfold State.trimBoot
  try dsimp only
  repeat' first
    | (with_reducible assumption) | (simp only [kept_mk]; with_reducible apply Kept.upd) | (with_reducible apply State.fset_kept)
    | (with_reducible apply State.fsets_kept) | (with_reducible apply State.logOwn_kept) | (with_reducible apply Kept.ite) | split

theorem State.railsOff_kept {z s : State} (h : Kept z s) : Kept z (State.railsOff s) := by
  unfold State.railsOff
  dsimp only
  refine State.fsets_kept ?_ _
  exact Kept.of h ⟨rfl, rfl⟩ (fun w => by
    have w := (State.wf_all w).2.1
    simpa [State.wf, State.after, mwf_nil] using w)

theorem State.resetBegin_kept {z s : State} (h : Kept z s) (cause : Nat) : Kept z (State.resetBegin s cause) := by
  unfold State.resetBegin
  dsimp only
  refine State.fsets_kept ?_ _
  exact Kept.of h ⟨rfl, rfl⟩ (fun w => by
    have w := (State.wf_all w).2.1
    simpa [State.wf, State.after, mwf_nil] using w)

theorem State.deviceReset_kept {z s : State} (h : Kept z s) : Kept z (State.deviceReset s) := by
  unfold State.deviceReset
  exact Kept.ite h (Kept.of h ⟨rfl, rfl⟩ (fun w => by
    have w := (State.wf_all w).2.1
    simpa [State.wf, State.after, mwf_nil] using w))

theorem State.vinRise_kept {z s : State} (h : Kept z s)  :
    Kept z (State.vinRise s) := by
  unfold State.vinRise
  try dsimp only
  repeat' first
    | (with_reducible assumption) | (simp only [kept_mk]; with_reducible apply Kept.upd)
    | (with_reducible apply State.resetBegin_kept) | (with_reducible apply Kept.ite) | split

theorem State.floorCut_kept {z s : State} (h : Kept z s)  :
    Kept z (State.floorCut s) := by
  unfold State.floorCut
  try dsimp only
  repeat' first
    | (with_reducible assumption) | (simp only [kept_mk]; with_reducible apply Kept.upd) | (with_reducible apply State.free_kept)
    | (with_reducible apply Kept.ite) | (dsimp only) | split | (refine Kept.ofFst (by assumption) ?_)
    | (refine Kept.ofSnd (by assumption) ?_)

theorem State.vinFall_kept {z s : State} (h : Kept z s) : Kept z (State.vinFall s) := by
  unfold State.vinFall
  dsimp only
  exact Kept.of (State.floorCut_kept h) ⟨rfl, rfl⟩ (fun w => by
    have w := (State.wf_all w).2.1
    simpa [State.wf, State.after, mwf_nil] using w)

theorem State.vinOver_kept {z s : State} (h : Kept z s)  :
    Kept z (State.vinOver s) := by
  unfold State.vinOver
  try dsimp only
  repeat' first
    | (with_reducible assumption) | (simp only [kept_mk]; with_reducible apply Kept.upd) | (with_reducible apply State.fset_kept)
    | (with_reducible apply State.railsOff_kept) | (with_reducible apply Kept.ite) | split

theorem State.vinClear_kept {z s : State} (h : Kept z s)  :
    Kept z (State.vinClear s) := by
  unfold State.vinClear
  try dsimp only
  repeat' first
    | (with_reducible assumption) | (simp only [kept_mk]; with_reducible apply Kept.upd) | (with_reducible apply State.fset_kept)
    | (with_reducible apply State.fsets_kept) | (with_reducible apply Kept.ite) | split

theorem State.railFault_kept {z s : State} (h : Kept z s) (i : Nat) :
    Kept z (State.railFault s i) := by
  unfold State.railFault
  try dsimp only
  repeat' first
    | (with_reducible assumption) | (simp only [kept_mk]; with_reducible apply Kept.upd) | (with_reducible apply State.fset_kept)
    | (with_reducible apply State.goFatal_kept) | (with_reducible apply State.railsOff_kept) | (with_reducible apply Kept.ite)
    | split

theorem State.thermalTrip_kept {z s : State} (h : Kept z s)  :
    Kept z (State.thermalTrip s) := by
  unfold State.thermalTrip
  try dsimp only
  repeat' first
    | (with_reducible assumption) | (simp only [kept_mk]; with_reducible apply Kept.upd) | (with_reducible apply State.fsets_kept)
    | (with_reducible apply State.faultRecord_kept) | (with_reducible apply State.railsOff_kept) | (with_reducible apply Kept.ite)
    | split

theorem State.sysReset_kept {z s : State} (h : Kept z s)  :
    Kept z (State.sysReset s) := by
  unfold State.sysReset
  try dsimp only
  repeat' first
    | (with_reducible assumption) | (simp only [kept_mk]; with_reducible apply Kept.upd)
    | (with_reducible apply State.resetBegin_kept) | (with_reducible apply Kept.ite) | split

theorem State.prepareOff_kept {z s : State} (h : Kept z s)  :
    Kept z (State.prepareOff s) := by
  unfold State.prepareOff
  try dsimp only
  repeat' first
    | (with_reducible assumption) | (simp only [kept_mk]; with_reducible apply Kept.upd) | (with_reducible apply State.logOwn_kept)
    | (with_reducible apply State.snapDue_kept) | (with_reducible apply Kept.ite) | split

theorem State.readyOffSet_kept {z s : State} (h : Kept z s)  :
    Kept z (State.readyOffSet s) := by
  unfold State.readyOffSet
  try dsimp only
  repeat' first
    | (with_reducible assumption) | (simp only [kept_mk]; with_reducible apply Kept.upd) | (with_reducible apply State.logFlush_kept)
    | (with_reducible apply State.logClose_kept) | (with_reducible apply State.snapshot_kept)
    | (with_reducible apply State.resetBegin_kept) | (with_reducible apply Kept.ite) | split

theorem State.smb_kept {z s : State} (h : Kept z s) (d : List Byte) :
    Kept z (State.smb s d) := by
  unfold State.smb
  repeat' first
    | (with_reducible assumption) | (with_reducible apply State.emit_kept) | (with_reducible apply Kept.ite) | split

theorem State.smbStatus_kept {z s : State} (h : Kept z s)  :
    Kept z (State.smbStatus s) := by
  unfold State.smbStatus
  try dsimp only
  repeat' first
    | (with_reducible assumption) | (simp only [kept_mk]; with_reducible apply Kept.upd) | (with_reducible apply State.smb_kept)
    | (with_reducible apply Kept.ite) | split

theorem State.smbInput_kept {z s : State} (h : Kept z s)  :
    Kept z (State.smbInput s) := by
  unfold State.smbInput
  repeat' first
    | (with_reducible assumption) | (with_reducible apply State.smb_kept)

theorem State.smbTemp_kept {z s : State} (h : Kept z s)  :
    Kept z (State.smbTemp s) := by
  unfold State.smbTemp
  repeat' first
    | (with_reducible assumption) | (with_reducible apply State.smb_kept)

theorem State.smbEnergy_kept {z s : State} (h : Kept z s)  :
    Kept z (State.smbEnergy s) := by
  unfold State.smbEnergy
  repeat' first
    | (with_reducible assumption) | (with_reducible apply State.smb_kept)

theorem State.smbIdentity_kept {z s : State} (h : Kept z s)  :
    Kept z (State.smbIdentity s) := by
  unfold State.smbIdentity
  repeat' first
    | (with_reducible assumption) | (with_reducible apply State.smb_kept)

theorem State.bootFw_kept {z s : State} (h : Kept z s)  :
    Kept z (State.bootFw s) := by
  unfold State.bootFw
  try dsimp only
  repeat' first
    | (with_reducible assumption) | (simp only [kept_mk]; with_reducible apply Kept.upd) | (with_reducible apply State.fsets_kept)
    | (with_reducible apply Kept.ite) | split

theorem State.centres_kept {z s : State} (h : Kept z s)  :
    Kept z (State.centres s) := by
  unfold State.centres
  try dsimp only
  repeat' first
    | (with_reducible assumption) | (intro _) | (simp only [kept_mk]; with_reducible apply Kept.upd) | (with_reducible apply Kept.ite)
    | split

theorem State.bootTrain_kept {z s : State} (h : Kept z s) (bad : List Nat) :
    Kept z (State.bootTrain s bad) := by
  unfold State.bootTrain
  try dsimp only
  repeat' first
    | (with_reducible assumption) | (intro _) | (simp only [kept_mk]; with_reducible apply Kept.upd)
    | (with_reducible apply State.fsets_kept) | (with_reducible apply State.setChan_kept) | (with_reducible apply State.ledFact_kept)
    | (with_reducible apply State.centres_kept) | (with_reducible refine Kept.foldl ?_ (fun _ _ _ => ?_) _)
    | (with_reducible refine Kept.foldl1 ?_ (fun _ _ _ => ?_) _)

theorem State.bootImage_kept {z s : State} (h : Kept z s)  :
    Kept z (State.bootImage s) := by
  unfold State.bootImage
  try dsimp only
  repeat' first
    | (with_reducible assumption) | (simp only [kept_mk]; with_reducible apply Kept.upd) | (with_reducible apply State.fset_kept)
    | (with_reducible apply State.logOwn_kept) | (with_reducible apply State.loadImage_kept) | (with_reducible apply Kept.ite)
    | (dsimp only) | split | (refine Kept.ofFst (by assumption) ?_) | (refine Kept.ofSnd (by assumption) ?_)

theorem State.bootGates_kept {z s : State} (h : Kept z s)  :
    Kept z (State.bootGates s) := by
  unfold State.bootGates
  try dsimp only
  repeat' first
    | (with_reducible assumption) | (with_reducible apply State.fset_kept) | (with_reducible apply State.gateStart_kept)
    | (with_reducible apply State.trimBoot_kept)

theorem State.bootMeasure_kept {z s : State} (h : Kept z s) (meas : List (Nat × Option Nat)) :
    Kept z (State.bootMeasure s meas) := by
  unfold State.bootMeasure
  try dsimp only
  repeat' first
    | (with_reducible assumption) | (intro _) | (with_reducible apply State.fmaxMeasure_kept)
    | (with_reducible refine Kept.foldl ?_ (fun _ _ _ => ?_) _) | (with_reducible refine Kept.foldl1 ?_ (fun _ _ _ => ?_) _)

theorem State.bootStage_kept {z s : State} (h : Kept z s) (bad : List Nat) (meas : List (Nat × Option Nat)) :
    Kept z (State.bootStage s bad meas) := by
  unfold State.bootStage
  try dsimp only
  repeat' first
    | (with_reducible assumption) | (simp only [kept_mk]; with_reducible apply Kept.upd) | (with_reducible apply State.fset_kept)
    | (with_reducible apply State.fsets_kept) | (with_reducible apply State.firstLock_kept) | (with_reducible apply State.bootFw_kept)
    | (with_reducible apply State.bootTrain_kept) | (with_reducible apply State.bootImage_kept)
    | (with_reducible apply State.bootGates_kept) | (with_reducible apply State.bootMeasure_kept) | (with_reducible apply Kept.ite)
    | split

end Sys2Proof.Machine
end

