-- ==== Sys2Proof/Laws/KeptBus.lean ====
section
/-!
SUPPORT. The operations of Machine/Bus.lean keep the fuses, the queue and the canonical form of the memories.
-/
namespace Sys2Proof.Machine

theorem State.setSplit_kept {z s : State} (h : Kept z s) (src : Src) (x : Split) :
    Kept z (State.setSplit s src x) := by
  unfold State.setSplit
  try dsimp only
  repeat' first
    | (with_reducible assumption) | (simp only [kept_mk]; with_reducible apply Kept.upd)

theorem State.busErr_kept {z s : State} (h : Kept z s) (src : Src) (write : Bool) (cause a : Nat) :
    Kept z (State.busErr s src write cause a) := by
  unfold State.busErr
  try dsimp only
  repeat' first
    | (with_reducible assumption) | (with_reducible apply State.fsat_kept) | (with_reducible apply State.recErr_kept)

theorem State.readGo_kept {z s : State} (h : Kept z s) (src : Src) (a w : Nat) :
    Kept z (State.readGo s src a w).2 := by
  unfold State.readGo
  try dsimp only
  repeat' first
    | (with_reducible assumption) | (simp only [kept_mk]; with_reducible apply Kept.upd) | (with_reducible apply State.setSplit_kept)
    | (with_reducible apply Kept.ite) | (with_reducible apply Kept.ite1) | (with_reducible apply Kept.ite2) | (dsimp only) | split
    | (refine Kept.ofFst (by assumption) ?_) | (refine Kept.ofSnd (by assumption) ?_)

theorem State.fldWrite_kept {z s : State} (h : Kept z s) (x : RegWr) (f : Fld) :
    Kept z (State.fldWrite x s f) := by
  unfold State.fldWrite
  try dsimp only
  repeat' first
    | (with_reducible assumption) | (simp only [kept_mk]; with_reducible apply Kept.upd) | (with_reducible apply State.fset_kept)
    | (with_reducible apply Kept.ite) | split

theorem State.fldsWrite_kept {z s : State} (h : Kept z s) (x : RegWr) (skip : Fld → Bool) :
    Kept z (State.fldsWrite s x skip) := by
  unfold State.fldsWrite
  try dsimp only
  repeat' first
    | (with_reducible assumption) | (intro _) | (with_reducible apply State.fldWrite_kept)
    | (with_reducible refine Kept.foldl ?_ (fun _ _ _ => ?_) _) | (with_reducible refine Kept.foldl1 ?_ (fun _ _ _ => ?_) _)

theorem State.plainWrite_kept {z s : State} (h : Kept z s) (x : RegWr) :
    Kept z (State.plainWrite s x) := by
  unfold State.plainWrite
  try dsimp only
  repeat' first
    | (with_reducible assumption) | (intro _) | (with_reducible apply State.fset_kept) | (with_reducible apply State.fsets_kept)
    | (with_reducible apply State.fldsWrite_kept) | (with_reducible refine Kept.foldl ?_ (fun _ _ _ => ?_) _)
    | (with_reducible refine Kept.foldl1 ?_ (fun _ _ _ => ?_) _) | (with_reducible apply Kept.ite) | split

theorem State.writeHbmErr_kept {z s : State} (h : Kept z s) (x : RegWr) :
    Kept z (State.writeHbmErr s x) := by
  unfold State.writeHbmErr
  try dsimp only
  repeat' first
    | (with_reducible assumption) | (with_reducible apply State.fsets_kept) | (with_reducible apply State.plainWrite_kept)
    | (with_reducible apply Kept.ite) | split

theorem State.writeIf_kept {z s : State} (h : Kept z s) (x : RegWr) (c : Bool) :
    Kept z (State.writeIf s x c) := by
  unfold State.writeIf
  repeat' first
    | (with_reducible assumption) | (with_reducible apply State.plainWrite_kept) | (with_reducible apply Kept.ite) | split

theorem State.writeBut_kept {z s : State} (h : Kept z s) (x : RegWr) (c : Bool) (held : List Fld) :
    Kept z (State.writeBut s x c held) := by
  unfold State.writeBut
  try dsimp only
  repeat' first
    | (with_reducible assumption) | (intro _) | (with_reducible apply State.fldsWrite_kept)

theorem State.writeClk_kept {z s : State} (h : Kept z s) (src : Src) (x : RegWr) :
    Kept z (State.writeClk s src x) := by
  unfold State.writeClk
  try dsimp only
  repeat' first
    | (with_reducible assumption) | (intro _) | (simp only [kept_mk]; with_reducible apply Kept.upd)
    | (with_reducible apply State.afterCheck_kept) | (with_reducible apply State.arithLimit_kept)
    | (with_reducible apply State.gateWrite_kept) | (with_reducible apply State.plainWrite_kept) | (with_reducible apply Kept.ite)
    | split

theorem State.writePwr_kept {z s : State} (h : Kept z s) (x : RegWr) :
    Kept z (State.writePwr s x) := by
  unfold State.writePwr
  try dsimp only
  repeat' first
    | (with_reducible assumption) | (simp only [kept_mk]; with_reducible apply Kept.upd) | (with_reducible apply State.furl_kept)
    | (with_reducible apply State.wakeUp_kept) | (with_reducible apply State.capWrite_kept)
    | (with_reducible apply State.plainWrite_kept) | (with_reducible apply State.writeIf_kept) | (with_reducible apply Kept.ite)
    | split

theorem State.writeEvt_kept {z s : State} (h : Kept z s) (x : RegWr) :
    Kept z (State.writeEvt s x) := by
  unfold State.writeEvt
  try dsimp only
  repeat' first
    | (with_reducible assumption) | (intro _) | (simp only [kept_mk]; with_reducible apply Kept.upd)
    | (with_reducible apply State.snapDue_kept) | (with_reducible apply State.adminTile_kept)
    | (with_reducible apply State.adminUnit_kept) | (with_reducible apply State.subGo_kept)
    | (with_reducible apply State.plainWrite_kept) | (with_reducible apply State.writeIf_kept)
    | (with_reducible apply State.writeBut_kept) | (with_reducible refine Kept.foldl ?_ (fun _ _ _ => ?_) _)
    | (with_reducible refine Kept.foldl1 ?_ (fun _ _ _ => ?_) _) | (with_reducible apply Kept.ite) | split

theorem State.sqCtrl_kept {z s : State} (h : Kept z s) (p v : Nat) :
    Kept z (State.sqCtrl s p v) := by
  unfold State.sqCtrl
  try dsimp only
  repeat' first
    | (with_reducible assumption) | (with_reducible apply State.sqPlan_kept) | (with_reducible apply State.sqJoin_kept)
    | (with_reducible apply State.sqEnable_kept) | (with_reducible apply State.sqDisable_kept)
    | (with_reducible apply State.sqResume_kept) | (with_reducible apply State.sqCancel_kept) | (with_reducible apply Kept.ite)
    | split

theorem State.writeSq_kept {z s : State} (h : Kept z s) (p o : Nat) (x : RegWr) :
    Kept z (State.writeSq s p o x) := by
  unfold State.writeSq
  try dsimp only
  repeat' first
    | (with_reducible assumption) | (simp only [kept_mk]; with_reducible apply Kept.upd) | (with_reducible apply State.fsets_kept)
    | (with_reducible apply State.setSqp_kept) | (with_reducible apply State.joined_kept)
    | (with_reducible apply State.epochRequest_kept) | (with_reducible apply State.plainWrite_kept)
    | (with_reducible apply State.writeIf_kept) | (with_reducible apply State.sqCtrl_kept) | (with_reducible apply Kept.ite) | split

theorem State.writeNw_kept {z s : State} (h : Kept z s) (p o : Nat) (x : RegWr) :
    Kept z (State.writeNw s p o x) := by
  unfold State.writeNw
  try dsimp only
  repeat' first
    | (with_reducible assumption) | (intro _) | (simp only [kept_mk]; with_reducible apply Kept.upd)
    | (with_reducible apply State.watchOn_kept) | (with_reducible apply State.watchOff_kept)
    | (with_reducible apply State.fldsWrite_kept) | (with_reducible apply State.plainWrite_kept)
    | (with_reducible apply State.writeIf_kept) | (with_reducible apply Kept.ite) | split

theorem State.writeSch_kept {z s : State} (h : Kept z s) (x : RegWr) :
    Kept z (State.writeSch s x) := by
  unfold State.writeSch
  try dsimp only
  repeat' first
    | (with_reducible assumption) | (simp only [kept_mk]; with_reducible apply Kept.upd) | (with_reducible apply State.sigWrite_kept)
    | (with_reducible apply State.plainWrite_kept) | (with_reducible apply State.writeIf_kept)
    | (with_reducible apply State.writeSq_kept) | (with_reducible apply State.writeNw_kept) | split

theorem State.writeRing_kept {z s : State} (h : Kept z s) (t : Nat) (u : TU) (o : Nat) (x : RegWr) :
    Kept z (State.writeRing s t u o x) := by
  unfold State.writeRing
  try dsimp only
  repeat' first
    | (with_reducible assumption) | (simp only [kept_mk]; with_reducible apply Kept.upd) | (with_reducible apply State.ringTail_kept)
    | (with_reducible apply State.ringCtrl_kept) | (with_reducible apply State.plainWrite_kept)
    | (with_reducible apply State.writeIf_kept) | split

theorem State.writeTil_kept {z s : State} (h : Kept z s) (x : RegWr) :
    Kept z (State.writeTil s x) := by
  unfold State.writeTil
  try dsimp only
  repeat' first
    | (with_reducible assumption) | (simp only [kept_mk]; with_reducible apply Kept.upd)
    | (with_reducible apply State.plainWrite_kept) | (with_reducible apply State.writeIf_kept)
    | (with_reducible apply State.writeRing_kept) | (with_reducible apply Kept.ite) | split

theorem State.writeLig_kept {z s : State} (h : Kept z s) (x : RegWr) :
    Kept z (State.writeLig s x) := by
  unfold State.writeLig
  try dsimp only
  repeat' first
    | (with_reducible assumption) | (intro _) | (simp only [kept_mk]; with_reducible apply Kept.upd)
    | (with_reducible apply State.setLp_kept) | (with_reducible apply State.plainWrite_kept)
    | (with_reducible apply State.writeIf_kept) | (with_reducible apply State.writeBut_kept) | (with_reducible apply Kept.ite)
    | (dsimp only) | split | (refine Kept.ofFst (by assumption) ?_) | (refine Kept.ofSnd (by assumption) ?_)

theorem State.writePal_kept {z s : State} (h : Kept z s) (x : RegWr) :
    Kept z (State.writePal s x) := by
  unfold State.writePal
  try dsimp only
  repeat' first
    | (with_reducible assumption) | (intro _) | (simp only [kept_mk]; with_reducible apply Kept.upd)
    | (with_reducible apply State.palReseed_kept) | (with_reducible apply State.mirrorSet_kept)
    | (with_reducible apply State.palEnable_kept) | (with_reducible apply State.palDisable_kept)
    | (with_reducible apply State.fldsWrite_kept) | (with_reducible apply State.plainWrite_kept)
    | (with_reducible apply State.writeIf_kept) | (with_reducible apply Kept.ite) | split

theorem State.writeEth_kept {z s : State} (h : Kept z s) (src : Src) (x : RegWr) :
    Kept z (State.writeEth s src x) := by
  unfold State.writeEth
  try dsimp only
  repeat' first
    | (with_reducible assumption) | (simp only [kept_mk]; with_reducible apply Kept.upd)
    | (simp only [kept_mk]; with_reducible refine Kept.mems ?_ (fun w => by
        obtain ⟨_, _, _, _, _⟩ := State.wf_all w
        refine ⟨?_, ?_, ?_, ?_, ?_⟩ <;> repeat' first
          | with_reducible assumption | exact mwf_nil _ | apply mwf_putBytes | apply mwf_mset | apply mwf_mupd | apply mwf_filter | refine mwf_foldl _ _ (fun _ _ _ => ?_) _ _ ?_ | split | (simp at *; assumption)))
    | (with_reducible apply State.txStart_kept) | (with_reducible apply State.filterWrite_kept)
    | (with_reducible apply State.rxqEnable_kept) | (with_reducible apply State.ethCapsWritten_kept)
    | (with_reducible apply State.plainWrite_kept) | (with_reducible apply State.writeBut_kept) | (with_reducible apply Kept.ite)
    | split

theorem State.writeZtx_kept {z s : State} (h : Kept z s) (x : RegWr) :
    Kept z (State.writeZtx s x) := by
  unfold State.writeZtx
  try dsimp only
  repeat' first
    | (with_reducible assumption) | (simp only [kept_mk]; with_reducible apply Kept.upd) | (with_reducible apply State.zOp_kept)
    | (with_reducible apply State.plainWrite_kept) | (with_reducible apply State.writeIf_kept) | (with_reducible apply Kept.ite)
    | split

theorem State.writeCr_kept {z s : State} (h : Kept z s) (p r o : Nat) (x : RegWr) :
    Kept z (State.writeCr s p r o x) := by
  unfold State.writeCr
  try dsimp only
  repeat' first
    | (with_reducible assumption) | (simp only [kept_mk]; with_reducible apply Kept.upd) | (with_reducible apply State.fset_kept)
    | (with_reducible apply State.free_kept) | (with_reducible apply State.crDoorbell_kept)
    | (with_reducible apply State.crEnable_kept) | (with_reducible apply State.crResume_kept)
    | (with_reducible apply State.plainWrite_kept) | (with_reducible apply State.writeIf_kept) | (with_reducible apply Kept.ite)
    | (dsimp only) | split | (refine Kept.ofFst (by assumption) ?_) | (refine Kept.ofSnd (by assumption) ?_)

theorem State.writeHif_kept {z s : State} (h : Kept z s) (x : RegWr) (dirty : HostStores) :
    Kept z (State.writeHif s x dirty) := by
  unfold State.writeHif
  try dsimp only
  repeat' first
    | (with_reducible assumption) | (simp only [kept_mk]; with_reducible apply Kept.upd) | (with_reducible apply State.bindWrite_kept)
    | (with_reducible apply State.attach_kept) | (with_reducible apply State.cplTail_kept)
    | (with_reducible apply State.plainWrite_kept) | (with_reducible apply State.writeIf_kept)
    | (with_reducible apply State.writeCr_kept) | (with_reducible apply Kept.ite) | split

theorem State.regWrite_kept {z s : State} (h : Kept z s) (src : Src) (dirty : HostStores) (x : RegWr) :
    Kept z (State.regWrite src dirty s x) := by
  unfold State.regWrite
  try dsimp only
  repeat' first
    | (with_reducible assumption) | (with_reducible apply State.hbmMapout_kept) | (with_reducible apply State.plainWrite_kept)
    | (with_reducible apply State.writeHbmErr_kept) | (with_reducible apply State.writeClk_kept)
    | (with_reducible apply State.writePwr_kept) | (with_reducible apply State.writeEvt_kept)
    | (with_reducible apply State.writeSch_kept) | (with_reducible apply State.writeTil_kept)
    | (with_reducible apply State.writeLig_kept) | (with_reducible apply State.writePal_kept)
    | (with_reducible apply State.writeEth_kept) | (with_reducible apply State.writeZtx_kept)
    | (with_reducible apply State.writeHif_kept) | (with_reducible apply Kept.ite) | split

theorem State.writeGo_kept {z s : State} (h : Kept z s) (src : Src) (a w v : Nat) (dirty : HostStores) :
    Kept z (State.writeGo s src a w v dirty) := by
  unfold State.writeGo
  try dsimp only
  repeat' first
    | (with_reducible assumption) | (with_reducible apply State.setSplit_kept) | (with_reducible apply State.regWrite_kept)
    | (with_reducible refine Kept.foldl ?_ (fun _ _ _ => ?_) _) | (with_reducible refine Kept.foldl1 ?_ (fun _ _ _ => ?_) _)

theorem State.access_kept {z s : State} (h : Kept z s) (b : BusOp) :
    Kept z (State.access s b).1 := by
  unfold State.access
  try dsimp only
  repeat' first
    | (with_reducible assumption) | (with_reducible apply State.busErr_kept) | (with_reducible apply State.readGo_kept)
    | (with_reducible apply State.writeGo_kept) | (with_reducible apply Kept.ite) | (with_reducible apply Kept.ite1)
    | (with_reducible apply Kept.ite2) | (dsimp only) | split | (refine Kept.ofFst (by assumption) ?_)
    | (refine Kept.ofSnd (by assumption) ?_)

theorem State.accessNow_kept {z s : State} (h : Kept z s) (b : BusOp) :
    Kept z (State.accessNow s b) := by
  unfold State.accessNow
  try dsimp only
  repeat' first
    | (with_reducible assumption) | (with_reducible apply State.emit_kept) | (with_reducible apply State.access_kept)
    | (with_reducible apply Kept.ite) | (dsimp only) | split | (refine Kept.ofFst (by assumption) ?_)
    | (refine Kept.ofSnd (by assumption) ?_)

theorem State.busOp_kept {z s : State} (h : Kept z s) (b : BusOp) :
    Kept z (State.busOp s b) := by
  unfold State.busOp
  try dsimp only
  repeat' first
    | (with_reducible assumption) | (intro _) | (simp only [kept_mk]; with_reducible apply Kept.upd)
    | (with_reducible apply State.emit_kept) | (with_reducible apply State.hostOp_kept) | (with_reducible apply State.accessNow_kept)
    | (with_reducible apply Kept.ite) | split

theorem State.earlyAccess_kept {z s : State} (h : Kept z s) (b : BusOp) :
    Kept z (State.earlyAccess s b) := by
  unfold State.earlyAccess
  try dsimp only
  repeat' first
    | (with_reducible assumption) | (simp only [kept_mk]; with_reducible apply Kept.upd) | (with_reducible apply State.setGate_kept)
    | (with_reducible apply State.accessNow_kept) | (with_reducible apply Kept.ite) | split

theorem State.waited_kept {z s : State} (h : Kept z s) (o : HostOp) : Kept z (State.waited s o) := by
  cases o
  · exact State.accessNow_kept h _
  · exact State.earlyAccess_kept h _
  · exact State.ioReadNow_kept h _ _ _
  · exact State.ioWriteNow_kept h _ _ _
  · exact State.memReadNow_kept h _ _
  · exact State.memWriteNow_kept h _ _

theorem State.replayAll_kept {z s : State} (h : Kept z s)  :
    Kept z (State.replayAll s) := by
  unfold State.replayAll
  try dsimp only
  repeat' first
    | (with_reducible assumption) | (simp only [kept_mk]; with_reducible apply Kept.upd) | (with_reducible apply State.waited_kept)
    | (with_reducible refine Kept.foldl ?_ (fun _ _ _ => ?_) _) | (with_reducible refine Kept.foldl1 ?_ (fun _ _ _ => ?_) _)

theorem State.again_kept {z s : State} (h : Kept z s) (o : HostOp) :
    Kept z (State.again s o) := by
  unfold State.again
  try dsimp only
  repeat' first
    | (with_reducible assumption) | (simp only [kept_mk]; with_reducible apply Kept.upd) | (with_reducible apply State.busOp_kept)
    | (with_reducible apply State.waited_kept) | (with_reducible apply Kept.ite) | split

theorem State.relockDivs_kept {z s : State} (h : Kept z s)  :
    Kept z (State.relockDivs s) := by
  unfold State.relockDivs
  try dsimp only
  repeat' first
    | (with_reducible assumption) | (simp only [kept_mk]; with_reducible apply Kept.upd) | (with_reducible apply State.again_kept)
    | (with_reducible refine Kept.foldl ?_ (fun _ _ _ => ?_) _) | (with_reducible refine Kept.foldl1 ?_ (fun _ _ _ => ?_) _)
    | (with_reducible apply Kept.ite) | split

end Sys2Proof.Machine
end

