-- ==== Sys2Proof/Laws/KeptAccess.lean ====
section
/-!
SUPPORT. The operations of Machine/Access.lean keep the fuses, the queue and the canonical form of the memories.
-/
namespace Sys2Proof.Machine

theorem State.put_kept {z s : State} (h : Kept z s) (src : Src) (a v : Nat) :
    Kept z (State.put s src a v) := by
  unfold State.put
  repeat' first
    | (with_reducible assumption) | (with_reducible apply State.busOp_kept)

theorem State.get_kept {z s : State} (h : Kept z s) (src : Src) (a : Nat) :
    Kept z (State.get s src a) := by
  unfold State.get
  repeat' first
    | (with_reducible assumption) | (with_reducible apply State.busOp_kept)

theorem State.ldgSnap_kept {z s : State} (h : Kept z s) (src : Src) (ok : Bool) :
    Kept z (State.ldgSnap s src ok) := by
  unfold State.ldgSnap
  try dsimp only
  repeat' first
    | (with_reducible assumption) | (simp only [kept_mk]; with_reducible apply Kept.upd) | (with_reducible apply State.snapshot_kept)
    | (with_reducible apply State.put_kept) | (with_reducible apply Kept.ite) | split

theorem State.attachBy_kept {z s : State} (h : Kept z s) (src : Src) (p v width rate : Nat) :
    Kept z (State.attachBy s src p v width rate) := by
  unfold State.attachBy
  repeat' first
    | (with_reducible assumption) | (with_reducible apply State.linkTrained_kept) | (with_reducible apply State.put_kept)
    | (with_reducible apply Kept.ite) | split

end Sys2Proof.Machine
end

