-- ==== Sys2Proof/Laws/KeptJexrex.lean ====
section
/-!
SUPPORT. The operations of Machine/Jexrex.lean keep the fuses, the queue and the canonical form of the memories.
-/
namespace Sys2Proof.Machine

theorem State.makerBit_kept {z s : State} (h : Kept z s)  :
    Kept z (State.makerBit s) := by
  unfold State.makerBit
  try dsimp only
  repeat' first
    | (with_reducible assumption) | (intro _) | (with_reducible apply State.fset_kept)

theorem State.setSess_kept {z s : State} (h : Kept z s) (n : Nat) (u : Sess) :
    Kept z (State.setSess s n u) := by
  unfold State.setSess
  try dsimp only
  repeat' first
    | (with_reducible assumption) | (simp only [kept_mk]; with_reducible apply Kept.upd)

theorem State.closeSess_kept {z s : State} (h : Kept z s) (n : Nat) :
    Kept z (State.closeSess s n) := by
  unfold State.closeSess
  try dsimp only
  repeat' first
    | (with_reducible assumption) | (intro _) | (simp only [kept_mk]; with_reducible apply Kept.upd)
    | (with_reducible apply State.makerBit_kept)

theorem State.endSess_kept {z s : State} (h : Kept z s) (n : Nat) :
    Kept z (State.endSess s n) := by
  unfold State.endSess
  try dsimp only
  repeat' first
    | (with_reducible assumption) | (simp only [kept_mk]; with_reducible apply Kept.upd) | (with_reducible apply State.emit_kept)
    | (with_reducible apply State.makerBit_kept) | (with_reducible apply Kept.ite) | split

theorem State.logShare_kept {z s : State} (h : Kept z s) (n role cred op status : Nat) (arg : List Byte) :
    Kept z (State.logShare s n role cred op status arg) := by
  unfold State.logShare
  try dsimp only
  repeat' first
    | (with_reducible assumption) | (simp only [kept_mk]; with_reducible apply Kept.upd) | (with_reducible apply State.logClose_kept)
    | (with_reducible apply Kept.ite) | split

theorem State.reply_kept {z s : State} (h : Kept z s) (x : Jex) (op status : Nat) (body : List Byte) :
    Kept z (State.reply s x op status body) := by
  unfold State.reply
  repeat' first
    | (with_reducible assumption) | (with_reducible apply State.emit_kept)

theorem State.jexRun_kept {z s : State} (h : Kept z s) (x : Jex) (op need : Nat) (long : Bool) (arg : List Byte) (go : State → Sess → State × Nat × List Byte) (hgo : ∀ s a0, Kept z s → Kept z (go s a0).1) :
    Kept z (State.jexRun s x op need long arg go) := by
  unfold State.jexRun
  try dsimp only
  repeat' first
    | (with_reducible assumption) | (with_reducible apply hgo) | (simp only [kept_mk]; with_reducible apply Kept.upd)
    | (with_reducible apply State.fset_kept) | (with_reducible apply State.logPut_kept) | (with_reducible apply State.closeSess_kept)
    | (with_reducible apply State.logShare_kept) | (with_reducible apply State.reply_kept) | (with_reducible apply Kept.ite) | split

theorem refuse_kept {z s : State} (h : Kept z s) (code : Nat) :
    Kept z (refuse s code).1 := by
  unfold refuse
  repeat' first
    | (with_reducible assumption) | (dsimp only) | (refine Kept.ofFst (by assumption) ?_) | (refine Kept.ofSnd (by assumption) ?_)

theorem accept_kept {z s : State} (h : Kept z s)  :
    Kept z (accept s).1 := by
  unfold accept
  repeat' first
    | (with_reducible assumption) | (dsimp only) | (refine Kept.ofFst (by assumption) ?_) | (refine Kept.ofSnd (by assumption) ?_)

theorem State.jexAccess_kept {z s : State} (h : Kept z s) (b : BusOp) :
    Kept z (State.jexAccess s b).1 := by
  unfold State.jexAccess
  repeat' first
    | (with_reducible assumption) | (with_reducible apply State.access_kept) | (with_reducible apply State.relockDivs_kept)
    | (dsimp only) | (refine Kept.ofFst (by assumption) ?_) | (refine Kept.ofSnd (by assumption) ?_)

theorem State.readReg_kept {z s : State} (h : Kept z s) (x : Jex) (off w : Nat) :
    Kept z (State.readReg s x off w) := by
  unfold State.readReg
  try dsimp only
  repeat' first
    | (with_reducible assumption) | (intro _) | (simp only [kept_mk]; with_reducible apply Kept.upd)
    | (with_reducible apply State.jexRun_kept) | (with_reducible apply State.jexAccess_kept) | (with_reducible apply Kept.ite)
    | (dsimp only) | split | (refine Kept.ofFst (by assumption) ?_) | (refine Kept.ofSnd (by assumption) ?_)

theorem State.writeReg_kept {z s : State} (h : Kept z s) (x : Jex) (off w v : Nat) :
    Kept z (State.writeReg s x off w v) := by
  unfold State.writeReg
  try dsimp only
  repeat' first
    | (with_reducible assumption) | (intro _) | (simp only [kept_mk]; with_reducible apply Kept.upd)
    | (with_reducible apply State.jexRun_kept) | (with_reducible apply refuse_kept) | (with_reducible apply accept_kept)
    | (with_reducible apply State.jexAccess_kept) | (with_reducible apply Kept.ite) | (dsimp only) | split
    | (refine Kept.ofFst (by assumption) ?_) | (refine Kept.ofSnd (by assumption) ?_)

theorem State.subscribe_kept {z s : State} (h : Kept z s) (x : Jex) :
    Kept z (State.subscribe s x) := by
  unfold State.subscribe
  try dsimp only
  repeat' first
    | (with_reducible assumption) | (intro _) | (simp only [kept_mk]; with_reducible apply Kept.upd)
    | (with_reducible apply State.setSess_kept) | (with_reducible apply State.jexRun_kept) | (with_reducible apply accept_kept)
    | (dsimp only) | (refine Kept.ofFst (by assumption) ?_) | (refine Kept.ofSnd (by assumption) ?_)

theorem State.getCert_kept {z s : State} (h : Kept z s) (x : Jex) :
    Kept z (State.getCert s x) := by
  unfold State.getCert
  try dsimp only
  repeat' first
    | (with_reducible assumption) | (intro _) | (with_reducible apply State.jexRun_kept)

theorem State.measureNow_kept {z s : State} (h : Kept z s)  :
    Kept z (State.measureNow s).2 := by
  unfold State.measureNow
  try dsimp only
  repeat' first
    | (with_reducible assumption) | (simp only [kept_mk]; with_reducible apply Kept.upd) | (with_reducible apply State.freeBytes_kept)
    | (with_reducible apply State.measure_kept) | (dsimp only) | split | (refine Kept.ofFst (by assumption) ?_)
    | (refine Kept.ofSnd (by assumption) ?_)

theorem State.attest_kept {z s : State} (h : Kept z s) (x : Jex) (nonce : List Byte) :
    Kept z (State.attest s x nonce) := by
  unfold State.attest
  try dsimp only
  repeat' first
    | (with_reducible assumption) | (intro _) | (with_reducible apply State.jexRun_kept)
    | (with_reducible apply State.measureNow_kept) | (dsimp only) | (refine Kept.ofFst (by assumption) ?_)
    | (refine Kept.ofSnd (by assumption) ?_)

theorem State.logRead_kept {z s : State} (h : Kept z s) (x : Jex) (from_ : Nat) :
    Kept z (State.logRead s x from_) := by
  unfold State.logRead
  try dsimp only
  repeat' first
    | (with_reducible assumption) | (intro _) | (with_reducible apply State.jexRun_kept)

theorem State.ledgerRead_kept {z s : State} (h : Kept z s) (x : Jex) (from_ : Option Nat) :
    Kept z (State.ledgerRead s x from_) := by
  unfold State.ledgerRead
  try dsimp only
  repeat' first
    | (with_reducible assumption) | (intro _) | (simp only [kept_mk]; with_reducible apply Kept.upd)
    | (with_reducible apply State.jexRun_kept) | split

theorem State.lldpRead_kept {z s : State} (h : Kept z s) (x : Jex) (j k : Nat) :
    Kept z (State.lldpRead s x j k) := by
  unfold State.lldpRead
  try dsimp only
  repeat' first
    | (with_reducible assumption) | (intro _) | (simp only [kept_mk]; with_reducible apply Kept.upd)
    | (with_reducible apply State.jexRun_kept)

theorem State.jexWake_kept {z s : State} (h : Kept z s) (x : Jex) :
    Kept z (State.jexWake s x) := by
  unfold State.jexWake
  try dsimp only
  repeat' first
    | (with_reducible assumption) | (intro _) | (with_reducible apply State.wakeUp_kept) | (with_reducible apply State.jexRun_kept)
    | (with_reducible apply accept_kept) | (dsimp only) | (refine Kept.ofFst (by assumption) ?_)
    | (refine Kept.ofSnd (by assumption) ?_)

theorem State.loadAnswer_kept {z s : State} (h : Kept z s) (r : LoadReq) :
    Kept z (State.loadAnswer s r) := by
  unfold State.loadAnswer
  try dsimp only
  repeat' first
    | (with_reducible assumption) | (with_reducible apply State.logPut_kept) | (with_reducible apply State.loadImage_kept)
    | (with_reducible apply State.reply_kept) | (with_reducible apply Kept.ite) | (dsimp only) | split
    | (refine Kept.ofFst (by assumption) ?_) | (refine Kept.ofSnd (by assumption) ?_)

theorem State.imageLoad_kept {z s : State} (h : Kept z s) (x : Jex) (full : Bool) (b : List Byte) :
    Kept z (State.imageLoad s x full b) := by
  unfold State.imageLoad
  try dsimp only
  repeat' first
    | (with_reducible assumption) | (simp only [kept_mk]; with_reducible apply Kept.upd) | (with_reducible apply State.fset_kept)
    | (with_reducible apply State.logPut_kept) | (with_reducible apply State.wakeUp_kept)
    | (with_reducible apply State.closeSess_kept) | (with_reducible apply State.reply_kept)
    | (with_reducible apply State.loadAnswer_kept) | (with_reducible apply Kept.ite) | split

theorem State.wakeDone_kept {z s : State} (h : Kept z s)  :
    Kept z (State.wakeDone s) := by
  unfold State.wakeDone
  try dsimp only
  repeat' first
    | (with_reducible assumption) | (simp only [kept_mk]; with_reducible apply Kept.upd) | (with_reducible apply State.awake_kept)
    | (with_reducible apply State.replayAll_kept) | (with_reducible apply State.loadAnswer_kept)
    | (with_reducible refine Kept.foldl ?_ (fun _ _ _ => ?_) _) | (with_reducible refine Kept.foldl1 ?_ (fun _ _ _ => ?_) _)
    | (with_reducible apply Kept.ite) | split

theorem State.fwBegin_kept {z s : State} (h : Kept z s) (x : Jex) (n : Nat) :
    Kept z (State.fwBegin s x n) := by
  unfold State.fwBegin
  try dsimp only
  repeat' first
    | (with_reducible assumption) | (intro _) | (simp only [kept_mk]; with_reducible apply Kept.upd)
    | (with_reducible apply State.jexRun_kept) | (with_reducible apply accept_kept) | (dsimp only)
    | (refine Kept.ofFst (by assumption) ?_) | (refine Kept.ofSnd (by assumption) ?_)

theorem State.fwChunk_kept {z s : State} (h : Kept z s) (x : Jex) (o : Nat) (d : List Byte) :
    Kept z (State.fwChunk s x o d) := by
  unfold State.fwChunk
  try dsimp only
  repeat' first
    | (with_reducible assumption) | (intro _) | (simp only [kept_mk]; with_reducible apply Kept.upd)
    | (with_reducible apply State.jexRun_kept) | (with_reducible apply accept_kept) | (with_reducible apply Kept.ite) | (dsimp only)
    | split | (refine Kept.ofFst (by assumption) ?_) | (refine Kept.ofSnd (by assumption) ?_)

theorem State.fwEnd_kept {z s : State} (h : Kept z s) (x : Jex) (wrote flashOk : Bool) :
    Kept z (State.fwEnd s x wrote flashOk) := by
  unfold State.fwEnd
  try dsimp only
  repeat' first
    | (with_reducible assumption) | (intro _) | (simp only [kept_mk]; with_reducible apply Kept.upd)
    | (with_reducible apply State.fset_kept) | (with_reducible apply State.jexRun_kept) | (with_reducible apply accept_kept)
    | (with_reducible apply Kept.ite) | (dsimp only) | split | (refine Kept.ofFst (by assumption) ?_)
    | (refine Kept.ofSnd (by assumption) ?_)

theorem State.fwTimeout_kept {z s : State} (h : Kept z s)  :
    Kept z (State.fwTimeout s) := by
  unfold State.fwTimeout
  try dsimp only
  repeat' first
    | (with_reducible assumption) | (simp only [kept_mk]; with_reducible apply Kept.upd)

theorem State.fwCommit_kept {z s : State} (h : Kept z s) (x : Jex) :
    Kept z (State.fwCommit s x) := by
  unfold State.fwCommit
  try dsimp only
  repeat' first
    | (with_reducible assumption) | (intro _) | (simp only [kept_mk]; with_reducible apply Kept.upd)
    | (with_reducible apply State.jexRun_kept) | (with_reducible apply accept_kept) | (dsimp only) | split
    | (refine Kept.ofFst (by assumption) ?_) | (refine Kept.ofSnd (by assumption) ?_)

theorem State.setSlot_kept {z s : State} (h : Kept z s) (i : Nat) (k : KSlot) :
    Kept z (State.setSlot s i k) := by
  unfold State.setSlot
  try dsimp only
  repeat' first
    | (with_reducible assumption) | (simp only [kept_mk]; with_reducible apply Kept.upd) | (with_reducible apply State.rewrite_kept)

theorem State.keyEnroll_kept {z s : State} (h : Kept z s) (x : Jex) (i : Nat) (key : List Byte) :
    Kept z (State.keyEnroll s x i key) := by
  unfold State.keyEnroll
  try dsimp only
  repeat' first
    | (with_reducible assumption) | (intro _) | (simp only [kept_mk]; with_reducible apply Kept.upd)
    | (with_reducible apply State.jexRun_kept) | (with_reducible apply accept_kept) | (with_reducible apply State.setSlot_kept)
    | (with_reducible apply Kept.ite) | (dsimp only) | split | (refine Kept.ofFst (by assumption) ?_)
    | (refine Kept.ofSnd (by assumption) ?_)

theorem State.keyRevoke_kept {z s : State} (h : Kept z s) (x : Jex) (i : Nat) (force : Bool) :
    Kept z (State.keyRevoke s x i force) := by
  unfold State.keyRevoke
  try dsimp only
  repeat' first
    | (with_reducible assumption) | (intro _) | (simp only [kept_mk]; with_reducible apply Kept.upd)
    | (with_reducible apply State.jexRun_kept) | (with_reducible apply accept_kept) | (with_reducible apply State.setSlot_kept)
    | (with_reducible apply Kept.ite) | (dsimp only) | split | (refine Kept.ofFst (by assumption) ?_)
    | (refine Kept.ofSnd (by assumption) ?_)

theorem State.credPut_kept {z s : State} (h : Kept z s) (c : Cred) :
    Kept z (State.credPut s c) := by
  unfold State.credPut
  try dsimp only
  repeat' first
    | (with_reducible assumption) | (intro _) | (simp only [kept_mk]; with_reducible apply Kept.upd)
    | (with_reducible apply State.rewrite_kept) | split

theorem State.credAdd_kept {z s : State} (h : Kept z s) (x : Jex) (key : List Byte) (role : Nat) (name : List Byte) :
    Kept z (State.credAdd s x key role name) := by
  unfold State.credAdd
  try dsimp only
  repeat' first
    | (with_reducible assumption) | (intro _) | (simp only [kept_mk]; with_reducible apply Kept.upd)
    | (with_reducible apply State.jexRun_kept) | (with_reducible apply refuse_kept) | (with_reducible apply accept_kept)
    | (with_reducible apply State.credPut_kept) | (with_reducible apply Kept.ite) | (dsimp only) | split
    | (refine Kept.ofFst (by assumption) ?_) | (refine Kept.ofSnd (by assumption) ?_)

theorem State.closeCred_kept {z s : State} (h : Kept z s) (i : Nat) :
    Kept z (State.closeCred s i) := by
  unfold State.closeCred
  try dsimp only
  repeat' first
    | (with_reducible assumption) | (intro _) | (with_reducible apply State.closeSess_kept)
    | (with_reducible refine Kept.foldl ?_ (fun _ _ _ => ?_) _) | (with_reducible refine Kept.foldl1 ?_ (fun _ _ _ => ?_) _)

theorem State.credRemove_kept {z s : State} (h : Kept z s) (x : Jex) (i : Nat) :
    Kept z (State.credRemove s x i) := by
  unfold State.credRemove
  try dsimp only
  repeat' first
    | (with_reducible assumption) | (intro _) | (simp only [kept_mk]; with_reducible apply Kept.upd)
    | (with_reducible apply State.rewrite_kept) | (with_reducible apply State.jexRun_kept) | (with_reducible apply accept_kept)
    | (with_reducible apply State.closeCred_kept) | (with_reducible apply Kept.ite) | (dsimp only) | split
    | (refine Kept.ofFst (by assumption) ?_) | (refine Kept.ofSnd (by assumption) ?_)

theorem State.netConfig_kept {z s : State} (h : Kept z s) (x : Jex) (b : List Byte) :
    Kept z (State.netConfig s x b) := by
  unfold State.netConfig
  try dsimp only
  repeat' first
    | (with_reducible assumption) | (intro _) | (simp only [kept_mk]; with_reducible apply Kept.upd)
    | (with_reducible apply State.rewrite_kept) | (with_reducible apply State.jexRun_kept) | (with_reducible apply accept_kept)
    | (dsimp only) | (refine Kept.ofFst (by assumption) ?_) | (refine Kept.ofSnd (by assumption) ?_)

theorem State.trimWrite_kept {z s : State} (h : Kept z s) (x : Jex) (b : List Byte) :
    Kept z (State.trimWrite s x b) := by
  unfold State.trimWrite
  try dsimp only
  repeat' first
    | (with_reducible assumption) | (intro _) | (simp only [kept_mk]; with_reducible apply Kept.upd)
    | (with_reducible apply State.rewrite_kept) | (with_reducible apply State.jexRun_kept) | (with_reducible apply refuse_kept)
    | (with_reducible apply accept_kept) | (with_reducible apply Kept.ite) | (dsimp only) | split
    | (refine Kept.ofFst (by assumption) ?_) | (refine Kept.ofSnd (by assumption) ?_)

theorem State.rootDisable_kept {z s : State} (h : Kept z s) (x : Jex) (i : Nat) :
    Kept z (State.rootDisable s x i) := by
  unfold State.rootDisable
  try dsimp only
  repeat' first
    | (with_reducible assumption) | (intro _) | (simp only [kept_mk]; with_reducible apply Kept.upd)
    | (with_reducible apply State.zRetireRoot_kept) | (with_reducible apply State.rewrite_kept)
    | (with_reducible apply State.jexRun_kept) | (with_reducible apply accept_kept) | (dsimp only)
    | (refine Kept.ofFst (by assumption) ?_) | (refine Kept.ofSnd (by assumption) ?_)

theorem State.jexReset_kept {z s : State} (h : Kept z s) (x : Jex) :
    Kept z (State.jexReset s x) := by
  unfold State.jexReset
  try dsimp only
  repeat' first
    | (with_reducible assumption) | (intro _) | (simp only [kept_mk]; with_reducible apply Kept.upd)
    | (with_reducible apply State.snapDue_kept) | (with_reducible apply State.resetBegin_kept)
    | (with_reducible apply State.closeSess_kept) | (with_reducible apply State.jexRun_kept) | (with_reducible apply accept_kept)
    | (with_reducible refine Kept.foldl ?_ (fun _ _ _ => ?_) _) | (with_reducible refine Kept.foldl1 ?_ (fun _ _ _ => ?_) _)
    | (with_reducible apply Kept.ite) | (dsimp only) | split | (refine Kept.ofFst (by assumption) ?_)
    | (refine Kept.ofSnd (by assumption) ?_)

theorem State.makerChallenge_kept {z s : State} (h : Kept z s) (x : Jex) (mask : Nat) :
    Kept z (State.makerChallenge s x mask) := by
  unfold State.makerChallenge
  try dsimp only
  repeat' first
    | (with_reducible assumption) | (intro _) | (simp only [kept_mk]; with_reducible apply Kept.upd)
    | (with_reducible apply State.freeBytes_kept) | (with_reducible apply State.jexRun_kept) | (with_reducible apply Kept.ite)
    | split

theorem State.makerUnlock_kept {z s : State} (h : Kept z s) (x : Jex) (sig : List Byte) :
    Kept z (State.makerUnlock s x sig) := by
  unfold State.makerUnlock
  try dsimp only
  repeat' first
    | (with_reducible assumption) | (intro _) | (simp only [kept_mk]; with_reducible apply Kept.upd)
    | (with_reducible apply State.makerBit_kept) | (with_reducible apply State.setSess_kept)
    | (with_reducible apply State.jexRun_kept) | (with_reducible apply accept_kept) | (with_reducible apply Kept.ite) | (dsimp only)
    | split | (refine Kept.ofFst (by assumption) ?_) | (refine Kept.ofSnd (by assumption) ?_)

theorem State.makerDo_kept {z s t : State} (h : Kept z s) {f a : Nat} (e : State.makerDo s f a = some t) : Kept z t := by
  unfold State.makerDo at e
  dsimp only at e
  repeat' split at e
  all_goals first
    | (cases e; done)
    | (simp only [Option.some.injEq, Prod.mk.injEq] at e; obtain ⟨_, _, rfl⟩ := e
       repeat' first | with_reducible assumption | (simp only [kept_mk]; with_reducible apply Kept.upd) | with_reducible apply State.ledFact_kept | with_reducible apply State.setRole_kept | with_reducible apply State.setChan_kept | with_reducible apply State.setSlot_kept | with_reducible apply State.zeroChannel_kept | with_reducible refine Kept.foldl ?_ (fun _ _ _ => ?_) _ | with_reducible apply State.closeCred_kept | with_reducible apply Kept.ite)
    | (simp only [Option.some.injEq] at e; subst e
       repeat' first | with_reducible assumption | (simp only [kept_mk]; with_reducible apply Kept.upd) | with_reducible apply State.ledFact_kept | with_reducible apply State.setRole_kept | with_reducible apply State.setChan_kept | with_reducible apply State.setSlot_kept | with_reducible apply State.zeroChannel_kept | with_reducible refine Kept.foldl ?_ (fun _ _ _ => ?_) _ | with_reducible apply State.closeCred_kept | with_reducible apply Kept.ite)

theorem State.makerFn_kept {z s : State} (h : Kept z s) (x : Jex) (f a : Nat) :
    Kept z (State.makerFn s x f a) := by
  unfold State.makerFn
  try dsimp only
  repeat' first
    | (with_reducible assumption) | (intro _) | (simp only [kept_mk]; with_reducible apply Kept.upd)
    | (with_reducible apply State.jexRun_kept) | (with_reducible apply accept_kept) | (with_reducible apply Kept.ite) | (dsimp only)
    | split | (refine Kept.ofFst (by assumption) ?_) | (refine Kept.ofSnd (by assumption) ?_)
    | (refine State.makerDo_kept ?_ (by assumption))

theorem State.challengeOver_kept {z s : State} (h : Kept z s)  :
    Kept z (State.challengeOver s) := by
  unfold State.challengeOver
  try dsimp only
  repeat' first
    | (with_reducible assumption) | (simp only [kept_mk]; with_reducible apply Kept.upd)

theorem State.grantOver_kept {z s : State} (h : Kept z s) (n : Nat) :
    Kept z (State.grantOver s n) := by
  unfold State.grantOver
  try dsimp only
  repeat' first
    | (with_reducible assumption) | (intro _) | (simp only [kept_mk]; with_reducible apply Kept.upd)
    | (with_reducible apply State.makerBit_kept)

theorem State.enrollFirst_kept {z s : State} (h : Kept z s) (x : Jex) (code : List Byte) :
    Kept z (State.enrollFirst s x code) := by
  unfold State.enrollFirst
  try dsimp only
  repeat' first
    | (with_reducible assumption) | (intro _) | (simp only [kept_mk]; with_reducible apply Kept.upd)
    | (with_reducible apply State.fset_kept) | (with_reducible apply State.fsat_kept) | (with_reducible apply State.freeBytes_kept)
    | (with_reducible apply State.closeSess_kept) | (with_reducible apply State.jexRun_kept) | (with_reducible apply refuse_kept)
    | (with_reducible apply accept_kept) | (with_reducible apply State.credPut_kept) | (with_reducible apply Kept.ite) | (dsimp only)
    | split | (refine Kept.ofFst (by assumption) ?_) | (refine Kept.ofSnd (by assumption) ?_)

theorem State.handshakeFail_kept {z s : State} (h : Kept z s) (addr : Nat) :
    Kept z (State.handshakeFail s addr) := by
  unfold State.handshakeFail
  try dsimp only
  repeat' first
    | (with_reducible assumption) | (intro _) | (simp only [kept_mk]; with_reducible apply Kept.upd)
    | (with_reducible apply State.fsat_kept) | (with_reducible apply State.logPut_kept) | (with_reducible apply Kept.ite) | split

theorem State.handshake_kept {z s : State} (h : Kept z s) (addr : Nat) (key : List Byte) (ok : Bool) :
    Kept z (State.handshake s addr key ok) := by
  unfold State.handshake
  try dsimp only
  repeat' first
    | (with_reducible assumption) | (intro _) | (simp only [kept_mk]; with_reducible apply Kept.upd)
    | (with_reducible apply State.free_kept) | (with_reducible apply State.setSess_kept) | (with_reducible apply State.endSess_kept)
    | (with_reducible apply State.handshakeFail_kept) | (with_reducible apply Kept.ite) | (dsimp only) | split
    | (refine Kept.ofFst (by assumption) ?_) | (refine Kept.ofSnd (by assumption) ?_)

theorem State.lockoutOver_kept {z s : State} (h : Kept z s) (addr : Nat) :
    Kept z (State.lockoutOver s addr) := by
  unfold State.lockoutOver
  try dsimp only
  repeat' first
    | (with_reducible assumption) | (intro _) | (simp only [kept_mk]; with_reducible apply Kept.upd)

theorem State.operatorFlush_kept {z s : State} (h : Kept z s) (ok : Bool) :
    Kept z (State.operatorFlush s ok) := by
  unfold State.operatorFlush
  repeat' first
    | (with_reducible assumption) | (with_reducible apply State.fset_kept) | (with_reducible apply State.logFlush_kept)
    | (with_reducible apply Kept.ite) | split

end Sys2Proof.Machine
end

