-- ==== Sys2Proof/Laws/Memory.lean ====
section
/-!
SUPPORT. An access within one line of device memory (R269, R272, R276): what it reads or stores, and what it leaves alone.
-/
namespace Sys2Proof.Machine

theorem linePieces_one (a n : Nat) (hn : 1 ≤ n) (h : a % 512 + n ≤ 512) : linePieces a n = [(a, n)] := by
  have h0 : (a + n - 1) / 512 - a / 512 + 1 = 1 := by omega
  unfold linePieces
  rw [if_neg (by omega), h0]
  simp only [List.range_one, List.map_cons, List.map_nil, Nat.add_zero]
  have h1 : max a (a / 512 * 512) = a := by omega
  have h2 : min (a + n) ((a / 512 + 1) * 512) = a + n := by omega
  rw [h1, h2, Nat.add_sub_cancel_left]

/-- What State.inLine says, taken apart. -/
theorem State.inLine_all {s : State} {p a n d : Nat} (h : s.inLine p a n d = true) :
    a < pagedBase ∧ 1 ≤ n ∧ a % 512 + n ≤ 512 ∧ s.loc p a = .mem p a d ∧ s.closed (.mem p a d) = false ∧ s.lineBad p a d = false ∧
      s.scrubs p = false ∧ s.waitsSwitch p a d = false ∧ mfind s.hbm.late (lateKey p a) = none := by
  have h := h
  simp only [State.inLine, Bool.and_eq_true, decide_eq_true_eq, beq_iff_eq, Bool.not_eq_eq_eq_not, Bool.not_true, and_assoc,
    Option.isNone_iff_eq_none] at h
  obtain ⟨h1, h2, h3, h4, h5, h6, h7, h8⟩ := h
  have hc : ((s.chan (d / 2 ^ 31)).state != 0) = false := (Bool.or_eq_false_iff.mp h5).1
  have hw : s.waitsSwitch p a d = false := by
    have : (s.chan (d / 2 ^ 31)).state = 0 := by simpa using hc
    unfold State.waitsSwitch
    rw [this]
    cases s.relocated p a <;> rfl
  exact ⟨h1, h2, h3, h4, h5, h6, h7, hw, h8⟩

theorem State.plain_all {s : State} {p a n d : Nat} (h : s.plain p a n d = true) : s.inLine p a n d = true ∧ s.bias p a = 0 := by
  simpa [State.plain] using h

theorem State.inLine_poisoned {s : State} {p a n d : Nat} (h : s.inLine p a n d = true) : s.poisoned (.mem p a d) = false := by
  obtain ⟨_, _, _, _, hc, hb, _⟩ := State.inLine_all h
  simp only [State.closed] at hc
  simp only [State.poisoned, hb, Bool.false_or]
  exact hc

/-- The cache keeps the memory, the poison, the pages' bias and every unit's state but its own statistics. -/
theorem State.llcTouch_same (s : State) (p l : Nat) (r : MReq) (w : Bool) :
    (s.llcTouch p l r w).mem = s.mem ∧ (s.llcTouch p l r w).poison = s.poison ∧ (s.llcTouch p l r w).hif = s.hif ∧
    (s.llcTouch p l r w).out = s.out ∧ (s.llcTouch p l r w).sch = s.sch ∧ (s.llcTouch p l r w).evt = s.evt ∧
    (s.llcTouch p l r w).fab = s.fab ∧ (s.llcTouch p l r w).tiles = s.tiles := by
  unfold State.llcTouch State.finc State.fset State.setLlc
  dsimp only
  repeat' split
  all_goals simp

theorem State.fget_setLlc (s : State) (k : Nat) (l : List LlcLine) (f : Fld) (r : Nat) (hf : f.src = .stored r) :
    (s.setLlc k l).fget f = s.fget f := State.fget_congr rfl f r hf

/-- The cache changes no register but its two counters. -/
theorem State.llcTouch_fget (s : State) (p l : Nat) (r : MReq) (w : Bool) (f : Fld) (x : Nat) (hf : f.src = .stored x)
    (h1 : f.key ≠ (HBM_LLC_STAT_HITS p).key) (h2 : f.key ≠ (HBM_LLC_STAT_MISSES p).key) : (s.llcTouch p l r w).fget f = s.fget f := by
  unfold State.llcTouch
  dsimp only
  repeat' split
  all_goals (try rw [State.fget_setLlc _ _ _ _ x hf])
  all_goals first
    | rw [State.fget_finc_ne _ _ _ _ x hf h1]
    | rw [State.fget_finc_ne _ _ _ _ x hf h2]

theorem State.inPaged_low (s : State) (p a : Nat) (h : a < pagedBase) : s.inPaged p a = false := by
  have : ¬ pagedBase ≤ a := by omega
  simp [State.inPaged, this]

theorem State.useFrame_low (s : State) (p a : Nat) (h : a < pagedBase) : s.useFrame p a = s := by simp [State.useFrame, State.inPaged_low _ _ _ h]

theorem State.readEntry_low (s : State) (p a : Nat) (h : a < pagedBase) : s.readEntry p a = s := by simp [State.readEntry, State.inPaged_low _ _ _ h]

/-- A read within a line answers the line's bytes and only touches the cache. -/
theorem State.memRead_plain {s : State} {p a n d : Nat} (h : s.plain p a n d = true) (req : MReq) (dev : Bool) :
    s.memRead p a n req dev =
      (s.llcTouch p (d / 512) req false, ⟨(List.range n).map (fun i => s.memByte (d + i)), [], [], [], []⟩) := by
  obtain ⟨h, hb⟩ := State.plain_all h
  obtain ⟨h0, h1, h2, h3, _, _, hs, _, hl⟩ := State.inLine_all h
  have hp := State.inLine_poisoned h
  unfold State.memRead
  rw [linePieces_one a n h1 h2]
  cases dev <;> simp [State.readPiece, h3, hp, State.snoop, hb, MRes.empty, hs, hl, State.useFrame_low _ _ _ h0, State.readEntry_low _ _ _ h0]

/-- CXL.mem's read of a line answers the line's bytes whatever the bias, without a snoop. -/
theorem State.memRead_cxl {s : State} {p a n d : Nat} (h : s.inLine p a n d = true) (req : MReq) :
    s.memRead p a n req false =
      (s.llcTouch p (d / 512) req false, ⟨(List.range n).map (fun i => s.memByte (d + i)), [], [], [], []⟩) := by
  obtain ⟨h0, h1, h2, h3, _, _, hs, _, hl⟩ := State.inLine_all h
  have hp := State.inLine_poisoned h
  unfold State.memRead
  rw [linePieces_one a n h1 h2]
  simp [State.readPiece, h3, hp, MRes.empty, hs, hl, State.useFrame_low _ _ _ h0, State.readEntry_low _ _ _ h0]

theorem State.markDirty_low (s : State) (p a : Nat) (h : a < pagedBase) : s.markDirty p a = s := by simp [State.markDirty, State.inPaged_low _ _ _ h]

/-- A write within a line puts its bytes there; a whole line also clears its poison. -/
theorem State.memWrite_inLine {s : State} {p a d : Nat} {bs : List Byte} (hp : p < 16) (h : s.inLine p a bs.length d = true) (req : MReq) (dev : Bool)
    (hb : dev = true → s.bias p a = 0) :
    ∃ t, s.memWrite p a bs req dev = ({ t with mem := putBytes s.mem (fun i => d + i) 0 bs }, MRes.empty) ∧
      (t = s.llcTouch p (d / 512) req true ∨ t = (s.llcTouch p (d / 512) req true).lineGood p a d) := by
  obtain ⟨h0, h1, h2, h3, h4, h5, h6, h7, _⟩ := State.inLine_all h
  unfold State.memWrite
  rw [linePieces_one a bs.length h1 h2]
  have hs : (if dev = true then s.snoop p a d true else s) = s := by
    cases dev
    · rfl
    · simp [State.snoop, hb rfl]
  have hl : ¬ (16 ≤ p) := by omega
  have hw : s.writes p p = true := by simp [State.writes, hp]
  have hm := (State.llcTouch_same s p (d / 512) req true).1
  simp only [List.map_cons, List.map_nil, Nat.sub_self, List.drop_zero, List.take_length, List.foldl_cons, List.foldl_nil, State.writePiece, h3, hs, h4,
    h5, h6, h7, hw, Bool.not_true, Bool.and_false, State.useFrame_low _ _ _ h0, State.readEntry_low _ _ _ h0, Bool.false_and, Bool.false_eq_true, if_false, ge_iff_le, hl, State.markDirty_low _ _ _ h0]
  by_cases hn : bs.length = 512
  · refine ⟨(s.llcTouch p (d / 512) req true).lineGood p a d, ?_, .inr rfl⟩
    simp [hn, State.lineGood, hm]
  · refine ⟨s.llcTouch p (d / 512) req true, ?_, .inl rfl⟩
    simp [hn, hm]

/-- The byte at `d + i` after bytes have been put from `d` on. -/
theorem mget_putBytes (m : NMap Byte) (d j : Nat) (bs : List Byte) (x : Nat) :
    mget 0 (putBytes m (fun i => d + i) j bs) x = if d + j ≤ x ∧ x < d + j + bs.length then bs.getD (x - (d + j)) 0 else mget 0 m x := by
  induction bs generalizing m j with
  | nil => simp only [putBytes, List.length_nil, Nat.add_zero]; rw [if_neg (by omega)]
  | cons b bs ih =>
    rw [putBytes, ih, mget_mset]
    by_cases h1 : x = d + j
    · subst h1; rw [if_neg (by omega), if_pos rfl, if_pos (by simp only [List.length_cons]; omega)]; simp
    · by_cases h2 : d + (j + 1) ≤ x ∧ x < d + (j + 1) + bs.length
      · rw [if_pos h2, if_pos (by simp only [List.length_cons]; omega)]
        have : x - (d + j) = (x - (d + (j + 1))) + 1 := by omega
        rw [this, List.getD_cons_succ]
      · rw [if_neg h2, if_neg h1, if_neg (by simp only [List.length_cons]; omega)]

/-- The bytes of a write within a line, and every other byte of memory. -/
theorem State.memWrite_bytes {s : State} {p a d : Nat} {bs : List Byte} (hp : p < 16) (h : s.inLine p a bs.length d = true) (req : MReq) (dev : Bool)
    (hb : dev = true → s.bias p a = 0) (x : Nat) :
    (s.memWrite p a bs req dev).1.memByte x = if d ≤ x ∧ x < d + bs.length then bs.getD (x - d) 0 else s.memByte x := by
  obtain ⟨t, ht, _⟩ := State.memWrite_inLine hp h req dev hb
  rw [ht]
  simp only [State.memByte, mget_putBytes, Nat.add_zero]

end Sys2Proof.Machine
end

