-- ==== Sys2Proof/Machine/MemKeys.lean ====
section
/-!
DEFINITION. Memory encryption (R283 to R287): the derived keys, the controllers' key store, and the form in which a line lies in its channel.
-/
namespace Sys2Proof.Machine

/-- The 64 bytes derived for owner `o` and key index `i` (R284): the data key, then the tweak key. -/
def memKey (o i : Nat) : List Byte :=
  shake256 (leBytes 32 (Config.memoryKey i).toNat ++ [0x45, 0x54, 0x39, 0x2D, 0x4D, 0x45, 0x4D, 0x4B, 0x45, 0x59] ++ [byteOf o]) 64

/-- The key store (R284, R287): owner and index of every derived key. An owner has its current index and every index that pages of its channels still
carry; the free key is always there. An index that no page carries is erased. -/
def State.keyStore (s : State) : List (Nat × Nat) :=
  (24, 0) :: s.hbm.own.flatMap (fun e =>
    ((List.range 8).filter (fun i => i == e.2.cur || e.2.live.any (fun c => decide (0 < s.tagCount c i)))).map (fun i => (e.1, i)))

/-- Owner and index of the key under which the line at DPA `d` lies (R285): its page's tag names it. -/
def State.lineKey (s : State) (d : Nat) : Nat × Nat :=
  let c := d / 2 ^ 31
  let i := s.tagOf c (d % 2 ^ 31 / 2 ^ 21)
  if i < 8 then ((s.chan c).owner, i) else (24, 0)

/-- The 512 bytes that lie in the channel for the line of DPA `d` (R283): AES-256-XTS under the line's key, the tweak its DPA divided by 512. -/
def State.storedLine (s : State) (d : Nat) : List Byte :=
  let k := s.lineKey d
  xtsSeal (memKey k.1 k.2) (d / 512) ((List.range 512).map (fun i => s.memByte (d / 512 * 512 + i)))

end Sys2Proof.Machine
end

