-- ==== Sys2Proof/Tests/Slice0.lean ====
section
/-!
SUPPORT. Small tests: the commands that WellFormed refuses, and for every statement's hypotheses a concrete state and operands that meet them, clause
by clause, with the outcome of the command there. The terms are written from the spec's layouts of its tables, records and descriptors.
-/
open Sys2Proof Sys2Proof.Machine
namespace Sys2Proof.Tests

set_option Elab.async false

/-- A section of partition 0: tiles 0 to 3, channel 0, sub-port 0 of ports 0 and 1, every route, 16 contexts on chip and 16 in all. -/
def sect0 : Sect :=
  { key := 1, prioCeil := 3, preFloor := 0, pmin := 0, pmax := 3, onchip := 16, host := 16, name := [], tiles := 4, waysA := 3, waysB := 3, chans := 1,
    ports := 0x11, spill := 1, routesA := 2 ^ 129 - 1, routesB := 2 ^ 129 - 1, d2d := 1, dig := List.replicate 32 0 }

/-- A running device: clocks on, firmware up, an image with partition 0 ACTIVE, function 0 bound to it, an installer's session 0. -/
def up : State :=
  { State.reset with
    gen := { GenS.powerOn with readyMs := some 100 }
    fab := { State.reset.fab with
      image := some { id := 1, version := 1, keySlot := 0,
                      dev := { portMode := List.replicate 16 1, exch := [], gate := 0, sparePolicy := 0, shared := [], dig := List.replicate 32 0 },
                      sects := [(0, sect0)] }
      roles := [(0, 32), (1, 32), (2, 32), (3, 32)] ++ State.reset.fab.roles }
    hbm := { State.reset.hbm with chan := [(0, ⟨0, 0, 0, 1⟩)], own := [(0, ⟨[0], [], 1, 1⟩)] }
    sec := { State.reset.sec with run := some ⟨1, 1, 0, true, List.replicate 32 0, []⟩, sess := [(0, ⟨List.replicate 57 1, some 0, false, 0, false⟩)] }
    nv := { NvS.fresh with creds := [(0, ⟨List.replicate 57 1, 2, []⟩)] }
    hif := { State.reset.hif with present := true, bme := [0, 1], msixOff := [] } }.fsets
  ([(GEN_BOOT_READY, 1), (CLK_EN_EN 0, 0xFFFFFFFF), (CLK_EN_EN 1, 0xFFFFFFFF), (FAB_PART_STATE_P 0, 1), (HIF_BIND_F0_PARTITION, 0),
    (HIF_BIND_FN_EN, 1)] ++ (List.range 5).map (fun n => (CLK_TILE_EN_EN n, 0xFFFFFFFF)))

/-- `n` bytes of `v`, least significant first, at address `a` of partition 0, whose one channel lays them at the same device address. -/
def poke (a n v : Nat) (s : State) : State := { s with mem := putBytes s.mem (fun i => a + i) 0 ((List.range n).map (fun i => byteOf (v / 256 ^ i))) }

/-- The same in the inkwell of tile 0. -/
def pokeInk (a n v : Nat) (s : State) : State := { s with ink := putBytes s.ink (fun i => a + i) 0 ((List.range n).map (fun i => byteOf (v / 256 ^ i))) }

/-- The state after a command that answers a next state. -/
def after (c : Instr) (s : State) : State := match exec c s with | .next t => t | _ => s

def ran (c : Instr) (s : State) : Bool := match exec c s with | .next _ => true | _ => false

-- O1 to O9: register rows ---------------------------------------------------------------------------------------------------------------------------

theorem test_registerRead : up.ready (.host 0) 0x41002 = false ∧ up.ready (.host 0) EVT_MGMT_CFG.off = true ∧ regAt EVT_MGMT_CFG.off = some EVT_MGMT_CFG ∧
    up.mayRead (.host 0) EVT_MGMT_CFG.off = true ∧ (after (.registerRead (.host 0) EVT_MGMT_CFG.off 4) up).out = [.readData (.host 0) (up.readVal EVT_MGMT_CFG)] := by decide +kernel

theorem test_registerRead_resume : up.ready (.host 0) 0xA080FC = true ∧ within 0xA080FC 0xA08000 0x100 16 = some (0, 0xFC) ∧
    up.mayRead (.host 0) 0xA080FC = true ∧ up.mayRead (.host 0) 0xA08100 = false := by decide +kernel

theorem test_registerWrite : up.takes (.sess 7) EVT_MGMT_CFG.off 0xFFFFFFFF = true ∧ up.takes (.host 0) EVT_MGMT_CFG.off 3 = false ∧
    (after (.registerWrite (.sess 7) EVT_MGMT_CFG.off 4 0xFFFFFFFF) up).fget EVT_MGMT_CFG_MIN_SEV = 7 := by decide +kernel

theorem test_registerWrite_refused : up.ready (.host 0) EVT_MGMT_CFG.off = true ∧ up.busWrites (.host 0) EVT_MGMT_CFG.off 3 = false ∧
    (after (.registerWrite (.host 0) EVT_MGMT_CFG.off 4 3) up).fields = up.fields := by decide +kernel

/-- A 64-bit register written and read in two words (R11). -/
def upHeld : State := after (.lowWordWrite (.host 0) (ZTX_P_OP_ARG 0).off 7) up

theorem test_lowWord : up.ready (.host 0) (ZTX_P_OP_ARG 0).off = true ∧ regAt (ZTX_P_OP_ARG 0).off = some (ZTX_P_OP_ARG 0) ∧
    (upHeld.splitOf (.host 0)).held = some ((ZTX_P_OP_ARG 0).off, 7) ∧
    ((after (.lowWordRead (.host 0) (ZTX_P_OP_ARG 0).off) up).splitOf (.host 0)).latch = some ((ZTX_P_OP_ARG 0).off, 0xFFFFFFFF) := by decide +kernel

theorem test_highWord : up.ready (.host 0) ((ZTX_P_OP_ARG 0).off + 4) = true ∧
    upHeld.ready (.host 0) ((ZTX_P_OP_ARG 0).off + 4) = true ∧ placeOf (ZTX_P_OP_ARG 0).off = .part 0 ∧
    (after (.highWordWrite (.host 0) (ZTX_P_OP_ARG 0).off 0xFFFFFFFF) upHeld).fget (ZTX_P_OP_ARG_CONN 0) = 7 ∧
    (after (.highWordWrite (.host 0) (ZTX_P_OP_ARG 0).off 0xFFFFFFFF) upHeld).fget (ZTX_P_OP_ARG_NEW_CONN 0) = 0xFFFFFFFF ∧
    (after (.highWordWrite (.host 0) (ZTX_P_OP_ARG 0).off 9) up).fget (ZTX_P_OP_ARG_NEW_CONN 0) = 9 := by decide +kernel

/-- The writes of ZTX_P0_OP_ARG by function 0 are taken whatever they hold. -/
theorem test_highWord_taken (x : Nat) : up.busWrites (.host 0) (ZTX_P_OP_ARG 0).off x = true := rfl

theorem test_buserrClear : up.ready (.host 0) GEN_BUSERR_STATUS.off = true ∧
    (after (.buserrClear (.host 0)) (after (.registerRead (.sess 0) 0x60000 4) up)).fget GEN_BUSERR_STATUS_VALID = 0 ∧
    (after (.registerRead (.sess 0) 0x60000 4) up).fget GEN_BUSERR_STATUS_CAUSE = 3 := by decide +kernel

/-- The last ring of the last tile of partition 0, halted, HEAD at the end of its range. -/
def upRing : State :=
  { up with tiles := [(3, { Tile.init with smHalt := [1] })] }.fsets
    [((TU.sm 1).tail 3, 4), ((TU.sm 1).head 3, 0xFFFF), (TU.mx.enable 0, 1), (TU.mx.tail 0, 3), (TIL_MX_STATUS_HALTED 0, 1)]

theorem test_tileRingEnable : TU.ofCode 3 = some (.sm 1) ∧ upRing.takes (.host 0) (ringOff 3 3 0) 1 = true ∧ upRing.takes (.host 0) (ringOff 3 3 0) 0 = true ∧
    (after (.tileRingEnable (.host 0) 3 3 true) upRing).fget ((TU.sm 1).enable 3) = 1 := by decide +kernel

theorem test_tileRingAbort : upRing.takes (.host 0) (ringOff 0 0 0) (setBit 1 1) = true ∧
    (after (.tileRingAbort (.host 0) 0 0 1) upRing).fget (TU.mx.head 0) = 3 ∧ upRing.halted 0 .mx = true ∧
    (after (.tileRingAbort (.host 0) 0 0 1) upRing).halted 0 .mx = false := by decide +kernel

theorem test_tileRingResume : upRing.takes (.host 0) (ringOff 3 3 0) (setBit 0xFFFFFFF9 2) = true ∧ Nat.testBit 0xFFFFFFF9 1 = false ∧
    upRing.halted 3 (.sm 1) = true ∧ (after (.tileRingResume (.host 0) 3 3 0xFFFFFFF9) upRing).halted 3 (.sm 1) = false := by decide +kernel

theorem test_tileRingTailWrite : up.takes (.host 0) (ringOff 0 0 0xC) (up.slots 0 .mx) = true ∧
    ahead (TU.mx.ixBits) (up.slots 0 .mx % 2 ^ TU.mx.ixBits) (up.fget (TU.mx.head 0)) = up.slots 0 .mx ∧
    (after (.tileRingTailWrite (.host 0) 0 0 (up.slots 0 .mx)) up).fget (TU.mx.tail 0) = up.slots 0 .mx ∧
    (after (.tileRingTailWrite (.host 0) 0 0 (up.slots 0 .mx + 1)) up).halted 0 .mx = true := by decide +kernel

/-- The watch on. -/
def upWatch : State := after (.watchEnable (.host 0) 0 1) up

theorem test_watchEnable : up.takes (.host 0) (SCH_NW_PCTRL 0).off (setBit 0xFFFFFFFF 0) = true ∧ upWatch.fbit (SCH_NW_PCTRL_ENABLE 0) = true ∧
    (upWatch.nwp 0).partialStep = false ∧
    ((after (.watchEnable (.host 0) 0 1) (up.fset (SCH_SQ_CTRL_ENABLE 0) 1)).nwp 0).partialStep = true := by decide +kernel

theorem test_watchDisable : upWatch.takes (.host 0) (SCH_NW_PCTRL 0).off (clearBit 1 0) = true ∧ upWatch.fbit (SCH_NW_PCTRL_ENABLE 0) = true ∧
    (after (.watchDisable (.host 0) 0 1) upWatch).fget (SCH_NW_PCTRL_ENABLE 0) = 0 := by decide +kernel

theorem test_signalCounterWrite : up.takes (.host 0) (SCH_SIG 0 255).off 0xFFFFFFFF = true ∧
    (after (.signalCounterWrite (.host 0) 0 255 0xFFFFFFFF 2) up).fget (SCH_SIG_VALUE 0 255) = 1 := by decide +kernel

/-- A bunting of one member in the memory of partition 0 at 0x1000, its table of slot 0 at 0x4000 with one entry, and a plan request at 0x8000. -/
def upSq : State :=
  ((((((((up.fsets [(SCH_SQ_BUNTING_BASE 0, 0x1000 / 32), (SCH_SQ_PLAN_BASE 0, 0x8000 / 2048), (SCH_SQ_STATUS_FORMED 0, 1), (SCH_SQ_EPOCH_EPOCH 0, 1)])
    |> poke 0x1000 8 7) |> poke 0x1008 2 1) |> poke 0x100C 4 0x010101) |> poke 0x1010 8 0x2000) |> poke 0x1018 8 0x3000)
    |> poke 0x1030 4 100) |> poke 0x1034 2 4) |> poke 0x8000 2 4

def upPlan : State := ((upSq |> poke 0x8008 8 0x3FF0000000000000) |> poke 0x8040 1 1) |> poke 0x8010 8 0

theorem test_sqJoin : upSq.takes (.host 0) (SCH_SQ_CTRL 0).off (setBit 0 1) = true ∧
    upSq.buntCheck 0 = .inr ⟨7, 1, 0, 1, 1, 1, 0x2000, 0x3000⟩ ∧ upSq.fbit (SCH_SQ_CTRL_ENABLE 0) = false ∧
    (after (.sqJoin (.host 0) 0 0) upSq).fget (SCH_SQ_STATUS_JOINED 0) = 1 := by decide +kernel

theorem test_sqPlan : upPlan.takes (.host 0) (SCH_SQ_CTRL 0).off (setBit 0 2) = true ∧ upPlan.bunt 0 = some ⟨7, 1, 0, 1, 1, 1, 0x2000, 0x3000⟩ ∧
    (upPlan.memGet 0 (upPlan.fget (SCH_SQ_PLAN_BASE 0) * 2 ^ 11) 1024).map (planBad ⟨7, 1, 0, 1, 1, 1, 0x2000, 0x3000⟩) = some false ∧
    upPlan.fbit (SCH_SQ_STATUS_FORMED 0) = true ∧ upPlan.fbit (SCH_SQ_CTRL_ENABLE 0) = false ∧
    (after (.sqPlan (.host 0) 0 0) upPlan).fget (SCH_SQ_STATUS_PLAN_CODE 0) = 0 := by decide +kernel

/-- A table of one CLOSE entry. -/
def upTab : State :=
  (((upSq.fset (SCH_SQ_TABLE_BASE 0 0) (0x4000 / 64) |> poke 0x4000 2 1) |> poke 0x4004 4 0x10001) |> poke 0x4008 4 1) |> poke 0x4040 1 6

/-- The sequencer enabled, and running. -/
def upRun : State := upTab.fsets [(SCH_SQ_CTRL_ENABLE 0, 1), (SCH_SQ_STATUS_RUNNING 0, 1)]

theorem test_sqEnable : upSq.takes (.host 0) (SCH_SQ_CTRL 0).off (setBit 0xFFFFFFE0 0) = true ∧ upSq.fbit (SCH_SQ_CTRL_ENABLE 0) = false ∧
    (after (.sqEnable (.host 0) 0 0) upTab).fget (SCH_SQ_STATUS_RUNNING 0) = 1 := by decide +kernel

theorem test_sqResume : upRun.takes (.host 0) (SCH_SQ_CTRL 0).off (setBit 1 4) = true ∧ upRun.fbit (SCH_SQ_STATUS_RUNNING 0) = true ∧
    upRun.fbit (SCH_SQ_CTRL_ENABLE 0) = true ∧
    (after (.sqResume (.host 0) 0 1) (upRun.fset (SCH_SQ_STATUS_HALTED 0) 1)).fget (SCH_SQ_STATUS_HALTED 0) = 0 := by decide +kernel

theorem test_sqCancel : upRun.takes (.host 0) (SCH_SQ_CTRL 0).off (setBit 1 3) = true ∧ upRun.fbit (SCH_SQ_CTRL_ENABLE 0) = true ∧
    (after (.sqCancel (.host 0) 0 1) (upRun.fset (SCH_SQ_NEXT_REQ 0) 1)).fget (SCH_SQ_NEXT_REQ 0) = 0 := by decide +kernel

theorem test_epochRequest : upRun.takes (.host 0) (SCH_SQ_NEXT 0).off 0xC000FFFF = true ∧
    (after (.epochRequest (.host 0) 0 0xC000FFFF) upRun).fget (SCH_SQ_NEXT_REQ 0) = 1 ∧
    (after (.epochRequest (.host 0) 0 0xC000FFFF) upRun).fget (SCH_SQ_NEXT_EPOCH 0) = 0xFFFF := by decide +kernel

theorem test_palEnable : up.takes (.host 0) (PAL_CTRL 0).off (setBit 0 0) = true ∧ up.fbit (PAL_CTRL_ENABLE 0) = false ∧ up.mirror 0 = 0 ∧
    up.firstOut 0 [(up.digestAddr 0 0, 64 * ((up.tensorTable 0 (up.epochNow 0)).map (·.2)).getD 0),
        (up.fget (PAL_DIRTY_BASE_BASE 0) * 512, ceilDiv (up.shardLines 0) 8),
        (up.fget (PAL_XCHG_BASE_BASE 0) * 512, if up.repsOf 0 ≤ 1 then 0 else 2 * up.repsOf 0 * up.xchgLen 0)] = none ∧
    (after (.palEnable (.host 0) 0 0) up).fget (PAL_CTRL_ENABLE 0) = 1 := by decide +kernel

def upPal : State := up.fsets [(PAL_CTRL_ENABLE 0, 1), (PAL_CTRL_MIRROR 0, 2), (PAL_MIRROR_CONN_CONN 0, 5), (PAL_SENT_SEQ_SEQ 0, 9)]

theorem test_palReseed : upPal.takes (.host 0) (PAL_CTRL 0).off (setBit 5 4) = true ∧ upPal.fbit (PAL_CTRL_ENABLE 0) = true ∧
    upPal.fget (PAL_MIRROR_CONN_CONN 0) ≠ 0xFFFFFFFF ∧ upPal.tensors 0 (upPal.epochNow 0) = [] ∧ 5 / 2 % 4 = 2 ∧
    (after (.palReseed (.host 0) 0 5) upPal).fget (PAL_SENT_SEQ_SEQ 0) = 0 ∧
    (after (.palReseed (.host 0) 0 5) upPal).fget (PAL_STATUS_UNMIRRORED 0) = 1 := by decide +kernel

theorem test_hbmMapout : up.takes (.sess 0) HBM_MAPOUT.off (setBit 0 31) = true ∧ up.stackThere 0 = true ∧ (up.chan 0).state = 0 ∧
    (up.chan 0).owner < 24 ∧ ((after (.hbmMapout (.sess 0) 0) up).chan 0).state = 3 := by decide +kernel

theorem test_hbmMapout_free : up.takes (.sess 0) HBM_MAPOUT.off (setBit 255 31) = true ∧ up.stackThere (255 / 32) = true ∧ (up.chan 255).state = 0 ∧
    24 ≤ (up.chan 255).owner ∧ ((after (.hbmMapout (.sess 0) 255) up).chan 255).state = 1 ∧
    (after (.hbmMapout (.sess 0) 255) up).led.mapped = [255] := by decide +kernel

theorem test_txRingDoorbell : up.takes (.host 0) (ETH_TX_PTR 1 0).off 0xFFFF = true ∧ up.takes (.sess 0) (ETH_TX_PTR 15 3).off 0xFFFF = true ∧
    (after (.txRingDoorbell (.host 0) 1 0 0xFFFF) up).fget (ETH_TX_PTR_TAIL 1 0) = 0xFFFF := by decide +kernel

theorem test_filterWord0Write : up.takes (.sess 0) (ETH_FILTER 15 63).off 0x84F01F00 = true ∧
    (after (.filterWord0Write (.sess 0) 15 63 0x84F01F00) up).fget (ETH_FILTER_QUEUE 15 63) = 31 ∧
    (after (.filterWord0Write (.sess 0) 15 63 0x84F01F00) up).fget (ETH_FILTER_SUBPORTS 15 63) = 15 := by decide +kernel

theorem test_rxQueueEnable : up.takes (.sess 0) (ETH_Q_CFG 15 31).off (setBit 7 31) = true ∧ up.fbit (ETH_Q_CFG_ENABLE 15 31) = false ∧
    (after (.rxQueueEnable (.sess 0) 15 31 7) up).fget (ETH_Q_CFG_ENABLE 15 31) = 1 := by decide +kernel

/-- An open descriptor of partition 0 that waits for a HELLO on sub-port 0 of port 0, at address 0x1000, of a peer whose private key is 57 zeros, and the
engine on. -/
def upZ : State :=
  (((up.fsets [(ZTX_CTRL_ENABLE, 1), (ZTX_P_CTRL_ENABLE 0, 1), (ZTX_P_OPEN_DESC_BASE 0, 0x1000 / 128), (ETH_STATUS_MODE 0, 1), (ETH_LINK_UP 0 0, 1),
    (ZTX_P_OP_ARG_CONN 0, 0)])
    |> poke 0x1000 1 1) |> poke 0x1007 1 13) |> poke 0x1010 8 0x42 |> poke 0x1040 57 (leNat idPublic)

def upZ1 : State := after (.ztxOpen (.host 0) 0) upZ

/-- A connection of partition 0 in state `st`. -/
def conn0 (st : Nat) : Conn :=
  { upZ.newConn 0 ((upZ.memGet 0 0x1000 128).getD []) (List.replicate 32 1) with
    state := st, nonceR := List.replicate 32 2, keys := List.replicate 72 3, seg := 12, maxAck := 0, rate := Ratio.nat 1000000000 }

def upC (st : Nat) : State := { upZ with zt := { upZ.zt with ctx := [(0, conn0 st)] } }

theorem test_ztxOpen_refused : (upZ |> poke 0x1007 1 14).takes (.host 0) (ZTX_P_OP 0).off 0x10000000 = true ∧ (upZ |> poke 0x1007 1 14).zOn = true ∧
    ((upZ |> poke 0x1007 1 14).memGet 0 0x1000 128).map (fun d => (upZ |> poke 0x1007 1 14).descOk 0 d) = some false ∧
    (after (.ztxOpen (.host 0) 0) (upZ |> poke 0x1007 1 14)).fget (ZTX_P_OP_STATUS_CODE 0) = 4 := by decide +kernel

theorem test_ztxOpen : upZ.takes (.host 0) (ZTX_P_OP 0).off 0x10000000 = true ∧ upZ.fbit (ZTX_P_OP_STATUS_BUSY 0) = false ∧
    (upZ.memGet 0 (upZ.fget (ZTX_P_OPEN_DESC_BASE 0) * 128) 128).map (fun d => (upZ.descOk 0 d, (leAt d 3 1).testBit 2, leAt d 0 1,
      upZ.peersFull 0 (leAt d 0x10 8))) = some (true, false, 1, false) ∧
    (upZ.connsOf 0).length < ((upZ.sect 0).map (·.host)).getD 0 ∧ (upZ.zSlot 0).isSome = true ∧ upZ1.fget (ZTX_P_OP_STATUS_CODE 0) = 0 ∧
    (mfind upZ1.zt.ctx 0).map (·.state) = some 1 := by decide +kernel

theorem test_ztxClose : (upC 3).takes (.host 0) (ZTX_P_OP 0).off 0x20000000 = true ∧ (upC 3).partConn 0 0 = some (0, conn0 3) ∧
    (after (.ztxClose (.host 0) 0) (upC 3)).fget (ZTX_P_OP_STATUS_CODE 0) = 0 ∧ (upC 1).partConn 0 0 = some (0, conn0 1) ∧
    (after (.ztxClose (.host 0) 0) (upC 1)).fget (ZTX_P_OP_STATUS_CODE 0) = 1 := by decide +kernel

theorem test_ztxClose_none : (upC 3 |>.fset (ZTX_P_OP_ARG_CONN 0) 9).takes (.host 0) (ZTX_P_OP 0).off 0x20000000 = true ∧
    (upC 3 |>.fset (ZTX_P_OP_ARG_CONN 0) 9).partConn 0 9 = none ∧
    (after (.ztxClose (.host 0) 0) (upC 3 |>.fset (ZTX_P_OP_ARG_CONN 0) 9)).fget (ZTX_P_OP_STATUS_CODE 0) = 1 := by decide +kernel

theorem test_ztxRelease : (upC 5).takes (.host 0) (ZTX_P_OP 0).off 0x30000000 = true ∧ (upC 5).partConn 0 0 = some (0, conn0 5) ∧ (conn0 5).reqs = [] ∧
    (upC 5).zt.opens = [] ∧ (after (.ztxRelease (.host 0) 0) (upC 5)).zt.ctx = [] ∧
    (after (.ztxRelease (.host 0) 0) (upC 5)).zt.gens = [(0, 1)] := by decide +kernel

theorem test_ztxRebind : (upC 3).takes (.host 0) (ZTX_P_OP 0).off 0x40000000 = true ∧
    (after (.ztxRebind (.host 0) 0) (upC 3)).fget (ZTX_P_OP_STATUS_CODE 0) = 1 ∧
    (after (.ztxRebind (.host 0) 0) ({ upC 3 with zt := { upZ.zt with ctx := [(0, conn0 3), (1, conn0 3)] } }.fset (ZTX_P_OP_ARG_NEW_CONN 0) 1)).fget
      (ZTX_P_OP_STATUS_CODE 0) = 0 := by decide +kernel

theorem test_ztxQuery : (upC 3).takes (.host 0) (ZTX_P_OP 0).off 0x50000000 = true ∧
    (after (.ztxQuery (.host 0) 0) (upC 3)).fget (ZTX_P_OP_RESULT_VALUE 0) = 0x70000000 := by decide +kernel

/-- Partition 0 attached, its link up, command ring 0 and completion ring on. -/
def upHost : State :=
  { up with hif := { up.hif with part := [(0, { HifP.init with attached := true })] } }.fsets
    [(HIF_STATUS_DL_UP, 1), (HIF_STATUS_WIDTH, 16), (HIF_STATUS_RATE, 6), (HIF_STATUS_HDM_COMMITTED, 1), (HIF_P_STATUS_HOST_LOST 0, 0), (HIF_P_CR_CFG_ENABLE 0 0, 1),
     (HIF_P_CR_CFG_SIZE_LOG2 0 0, 6), (HIF_P_CR_BASE_BASE 0 0, 0x10),
     (HIF_P_CPL_BASE_BASE 0, 0x20), (SCH_PCTRL_ENABLE 0, 1)]

theorem test_crDoorbell : upHost.takes (.host 0) (HIF_P_CR_DB 0 0).off 64 = true ∧
    ahead 16 64 (upHost.fget (HIF_P_CR_HEAD_HEAD 0 0)) ≤ 2 ^ upHost.crSize 0 0 ∧ 2 ^ upHost.crSize 0 0 = 64 ∧
    (after (.crDoorbell (.host 0) 0 0 64) upHost).fget (HIF_P_CR_DB_TAIL 0 0) = 64 := by decide +kernel

theorem test_crDoorbell_far : 2 ^ upHost.crSize 0 0 < ahead 16 65 (upHost.fget (HIF_P_CR_HEAD_HEAD 0 0)) ∧ upHost.fget (HIF_P_FAULT_VALID 0) = 0 ∧
    (after (.crDoorbell (.host 0) 0 0 65) upHost).fget (HIF_P_CR_CFG_HALTED 0 0) = 1 ∧
    (after (.crDoorbell (.host 0) 0 0 65) upHost).fget (HIF_P_FAULT_CODE 0) = 3 := by decide +kernel

theorem test_crResume : (upHost.fset (HIF_P_CR_CFG_HALTED 0 0) 1).takes (.host 0) (HIF_P_CR_CFG 0 0).off (setBit 0x80000006 30) = true ∧
    upHost.fbit (HIF_P_CR_CFG_ENABLE 0 0) = true ∧
    (after (.crResume (.host 0) 0 0 0x80000006) (upHost.fset (HIF_P_CR_CFG_HALTED 0 0) 1)).fget (HIF_P_CR_CFG_HALTED 0 0) = 0 := by decide +kernel

theorem test_bindWrite : up.takes (.sess 0) HIF_BIND.off 0xFFFF001F = true ∧ (∀ q < 16, (up.hp q).attached = false) ∧ up.hif.bias = [] ∧
    (after (.bindWrite (.sess 0) 0xFFFF001F []) up).fget HIF_BIND_FN_EN = 0xFFFF ∧
    (after (.bindWrite (.sess 0) 0xFFFF001F []) up).fget HIF_BIND_F0_PARTITION = 31 := by decide +kernel

theorem test_attach : (upHost.fset (HIF_P_STATUS_HOST_LOST 0) 1).takes (.host 0) (HIF_P_CTRL 0).off (setBit 0x40000000 31) = true ∧
    (upHost.fset (HIF_P_STATUS_HOST_LOST 0) 1).linkReady 0 = true ∧ (upHost.hp 0).unread = [] ∧ (upHost.sp 0).tasks = [] ∧ upHost.evt.irqHeld = [] ∧
    (after (.attach (.host 0) 0 0x40000000 0 0) (upHost.fset (HIF_P_STATUS_HOST_LOST 0) 1)).fget (HIF_P_STATUS_HOST_LOST 0) = 0 := by decide +kernel

theorem test_clockEnableWrite : up.takes (.sess 0) (CLK_EN 1).off (2 ^ 32 - 1) = true ∧ State.reset.takes .fw (CLK_EN 0).off (2 ^ 32 - 1) = true ∧
    (∀ j < 32, State.reset.gateThere j = true → (after (.clockEnableWrite .fw 0 (2 ^ 32 - 1)) State.reset).gateOn j = true) := by decide +kernel

def upQuiet : State := up.fsets ([(CLK_EN_EN 0, 7), (CLK_EN_EN 1, 0)] ++ (List.range 5).map (fun n => (CLK_TILE_EN_EN n, 0)))

theorem test_clkDivWrite : upQuiet.takes (.sess 0) CLK_DIV.off 0x04030201 = true ∧ (mfind upQuiet.sec.sess 0).map upQuiet.sessRole = some 2 ∧ upQuiet.fget (CLK_EN_EN 0) / 8 = 0 ∧
    (∀ i < 5, upQuiet.fget (CLK_TILE_EN_EN i) = 0) ∧
    (after (.clkDivWrite (.sess 0) 0x04030201) upQuiet).fget CLK_DIV_PERIPH = 3 ∧
    (after (.clkDivWrite (.sess 0) 0x04030201) upQuiet).clk.divBusy = true := by decide +kernel

theorem test_dividerRelockComplete : (after (.clkDivWrite (.sess 0) 0x04030201) upQuiet).clk.waiting = [] ∧
    (after .dividerRelockComplete (after (.clkDivWrite (.sess 0) 0x04030201) upQuiet)).clk.divBusy = false := by decide +kernel

theorem test_arithLimitWrite : up.takes (.sess 0) CLK_ARITH_LIMIT.off 0x0046002B = true ∧
    (after (.arithLimitWrite (.sess 0) 0x0046002B) up).fget CLK_ARITH_LIMIT_K_MAX = 70 := by decide +kernel

theorem test_pwrCapWrite : up.takes (.sess 0) PWR_CAP.off 0xFFFF = true ∧ (after (.pwrCapWrite (.sess 0) 0xFFFF) up).fget PWR_CAP_SUSTAINED_W = 0xFFFF := by
  decide +kernel

/-- The device without an image. -/
def upBare : State := { up with fab := State.reset.fab, hbm := State.reset.hbm }.fset (FAB_PART_STATE_P 0) 0

theorem test_furl : upBare.takes (.sess 0) PWR_FURL.off (setBit 0 31) = true ∧ upBare.fget PWR_FURL_STATE = 0 ∧ upBare.fab.job = none ∧
    (after (.furl (.sess 0) 0) upBare).fget PWR_FURL_STATE = 1 := by decide +kernel

theorem test_pwrWake : (upBare.fset PWR_FURL_STATE 2).takes (.sess 0) PWR_FURL.off (setBit 0 30) = true ∧
    (after (.pwrWake (.sess 0) 0) (upBare.fset PWR_FURL_STATE 2)).fget PWR_FURL_STATE = 3 := by decide +kernel

theorem test_adminDisableWrite : up.takes (.sess 0) (EVT_ADMIN_TILE 3).off 0x80000000 = true ∧ up.fget (EVT_ADMIN_TILE_DISABLE 3) = 0 ∧
    (after (.adminDisableWrite (.sess 0) 3 0x80000000) up).fget (EVT_ADMIN_TILE_DISABLE 3) = 0x80000000 := by decide +kernel

theorem test_ldgSnap : up.takes (.sess 0) LDG_CTRL.off 1 = true ∧ (after (.ldgSnap (.sess 0) true) up).fget LDG_STATUS_LAST_REASON = 5 := by
  decide +kernel

-- O10 to O14: fabric, clocks, power, resets -------------------------------------------------------------------------------------------------------

/-- A task of partition 0 on tile 0, in state `st`. -/
def task0 (st : TSt) : Task :=
  { d := { kind := 0, level := 2, phase := 5, notify := false, early := false, idem := true, slowRead := false, tiles := 1, tset := 0, model := 0xFF,
           taskId := 77, step := 0, mb := 0, epoch := 0, launch := 0, w0 := 0xFFFF, w1 := 0xFFFF, v0 := 0, v1 := 0, postSig := 0xFFFF, postInc := 0,
           regions := [], user := [] }
    rcd := List.replicate 512 (byteOf 0), level := 2, src := 0, entry := 0, st, ready := true, tiles := [0], done := [], started := [], slots := [], was := .running, wasDone := [],
    saved := [], retried := 0, bad := none, aborted := false, fault := none, disp := 0 }

def upTask (st : TSt) : State := { upHost with sch := [(0, { SchP.init with tasks := [(0, task0 st)], nextArr := 1, nextDisp := 1 })] }

-- O10 to O14: fabric, clocks, power, resets -------------------------------------------------------------------------------------------------------

def upOff : State := { up with clk := { up.clk with offs := [8, 39] } }.fset (ETH_STATUS_MODE 15) 4

theorem test_clockDisableEffect : upOff.clk.offs.contains 39 = true ∧ upOff.clk.offs.contains 8 = true ∧ upOff.clk.waiting.any (HostOp.earlyAt 39) = false ∧
    (after (.clockDisableEffect 39) upOff).fget (ETH_STATUS_MODE 15) = 0 := by decide +kernel

def upDrain : State := up.fset (FAB_PART_STATE_P 0) 2

theorem test_partitionDrainEnd : upDrain.fget (FAB_PART_STATE_P 0) = 2 ∧ upDrain.drained 0 = true ∧
    (after (.partitionDrainEnd 0) upDrain).fget (FAB_PART_STATE_P 0) = 3 := by decide +kernel

theorem test_reloadTimeout : upDrain.fget (FAB_PART_STATE_P 0) = 2 ∧ (after (.reloadTimeout 0) upDrain).fget (FAB_PART_STATE_P 0) = 3 := by decide +kernel

/-- An image of the device section alone: every gate but the first three may change, no sub-port, no exchange. It is signed with the private key of 57
zeros. -/
def img0 : List Byte :=
  let dev := List.replicate 16 (byteOf 0) ++ List.replicate 32 (byteOf 255) ++ [byteOf 0x2A] ++ List.replicate 463 (byteOf 0)
  leBytes 4 0x4F4A4C46 ++ leBytes 2 1 ++ leBytes 2 0x0E09 ++ [byteOf 3, byteOf 0] ++ leBytes 2 1 ++ leBytes 4 722 ++ leBytes 8 5 ++ leBytes 4 2 ++
    leBytes 4 0 ++ leBytes 4 0x40 ++ leBytes 4 608 ++ List.replicate 24 (byteOf 0) ++
    leBytes 4 1 ++ leBytes 4 0x60 ++ leBytes 4 512 ++ leBytes 4 0 ++ leBytes 16 307360814040243245531751403540560444617 ++ dev ++
    leBytes 114
      25675313107879657684772117767873280557509608971166483505676613272325742573524416664483257282469405571110577555744897910314938961930845648908389196939030088835610355864169614356138343963906761974464049973901184071042088202103308335611555198234923295539203127925457339437730

def upScrub : State :=
  { up with fab := { up.fab with job := some { full := true, part := 0, img := parseImage img0, bytes := img0, left := [0] } } }.fsets
    [(FAB_PART_STATE_P 0, 3), (FAB_STATUS_BUSY, 1)]

theorem test_scrubComplete : (upScrub.fab.job.map (·.left)) = some [0] ∧ upScrub.fget (FAB_PART_STATE_P 0) = 3 := by decide +kernel

theorem test_imageStoreComplete : ({ up with fab := { up.fab with store := some ([byteOf 1], 7) } }.fab.store) = some ([byteOf 1], 7) ∧
    (after (.imageStoreComplete true) { up with fab := { up.fab with store := some ([byteOf 1], 7) } }).nv.floor = 7 ∧
    (after (.imageStoreComplete false) { up with fab := { up.fab with store := some ([byteOf 1], 7) } }).nv.floor = 0 := by decide +kernel

theorem test_tileFailure : up.role 0 = 1 ∧ up.role 151 = 2 ∧ up.tilePart 151 = none ∧ (after (.tileFailure 0) up).role 0 = 3 ∧
    (after (.tileFailure 151) up).role 151 = 3 ∧ (after (.tileFailure 151) up).led.failed = [151] := by decide +kernel

theorem test_tileFmaxMeasure : up.role 151 = 2 ∧ (up.tileTask 151).isNone = true ∧ mfind up.pwr.measured 151 = none ∧ up.agedMhz 151 ≤ 3000 ∧
    mget 0 (after (.tileFmaxMeasure 151 (some 3001)) up).led.meas 151 = 1 ∧
    mget 0 (after (.tileFmaxMeasure 151 (some 3001)) up).led.drift 151 = 1 := by decide +kernel

/-- Tile 1 is slow, and K waits for 60. -/
def upSlow : State := { up with fuse := { up.fuse with fmax := [(1, 2500)] }, pwr := { up.pwr with kWait := some 60 } }

theorem test_tileExchangeForK_between : upSlow.fbit (SCH_SQ_CTRL_ENABLE 0) = false ∧ (upSlow.sqp 0).rel = [] := by decide +kernel

theorem test_tileExchangeForK : upSlow.tilePart 1 = some 0 ∧ upSlow.tileK 1 < 60 ∧ (upSlow.tileTask 1).isNone = true ∧
    (upSlow.spares (dieOf 1)).find? (fun n => decide (60 ≤ upSlow.tileK n)) = some 72 ∧
    (after (.tileExchangeForK 1) upSlow).tilePart 72 = some 0 ∧ (after (.tileExchangeForK 1) upSlow).role 1 ≠ 1 := by decide +kernel

theorem test_monitorWindowEnd : (after (.monitorWindowEnd 70000 0) up).fget CLK_MON_STATUS_REF_COUNT = 0xFFFF := by decide +kernel

theorem test_missingEdge : (after (.missingEdge 0) up).fget CLK_MON_STATUS_REF_FAIL = 1 ∧
    (up.fsets [(CLK_SRC_RECOV_EN, 1), (ETH_LINK_UP 0 0, 1)]).recAvail = true ∧
    (after (.missingEdge 1) (up.fsets [(CLK_SRC_RECOV_EN, 1), (ETH_LINK_UP 0 0, 1)])).fget CLK_MON_STATUS_RECOV_FAIL = 1 := by decide +kernel

def upRelock : State := { up with clk := { up.clk with relock := some (2, true) } }.fset CLK_SRC_HOLDOVER 1

theorem test_pllRelockComplete : upRelock.srcPasses 2 = true ∧ (after .pllRelockComplete upRelock).fget CLK_SRC_ACTIVE = 2 ∧
    (after .pllRelockComplete upRelock).fget CLK_SRC_HOLDOVER = 0 := by decide +kernel

theorem test_arithKStep : up.clk.divBusy = false ∧ up.fget PWR_FURL_STATE = 0 ∧
    (after .arithKStep (up.fsets [(CLK_ARITH_K, 50), (CLK_ARITH_TARGET, 60)])).fget CLK_ARITH_K = 51 ∧
    (after .arithKStep (up.fsets [(CLK_ARITH_K, 50), (CLK_ARITH_TARGET, 43)])).fget CLK_ARITH_K = 49 := by decide +kernel

def samp0 : Samp := { volt := 4800, amp := 1000, energy := 500000, sense := [], issue := [], lines := [], bytes := [] }

theorem test_controllerTick : up.gen.causes = [] ∧ up.gen.vin ≠ 0 ∧ (List.range 152).all (fun t => (up.tilePhase t).isNone) = true := by decide +kernel

theorem test_modelCorrection : (upTask .running).tilePart 0 = some 0 ∧ (upTask .running).tilePhase 0 = some 5 ∧
    (List.range 151).all (fun u => ((upTask .running).tilePhase (u + 1)).isNone) = true ∧ ((upTask .running).memGet 0 ((upTask .running).phaseAddr 0 5) 32).isSome = true ∧
    ran .modelCorrection (upTask .running) = true := by decide +kernel

theorem test_thermalRead : (after (.thermalRead [110]) up).fget PWR_THERM_HOTTEST_C = 110 ∧ (after (.thermalRead [110]) up).fget PWR_STATUS_THROTTLING = 1 ∧
    (after (.thermalRead []) up).fget PWR_STATUS_THROTTLING = 0 := by decide +kernel

theorem test_kPropPeriod : up.partTiles 0 = [0, 1, 2, 3] ∧ up.fbit (SCH_SQ_CTRL_ENABLE 0) = false ∧ (List.range 15).all (fun q => (up.partTiles (q + 1)).isEmpty) = true := by decide +kernel

/-- The module without input power. -/
def down : State := after .vinFall up

theorem test_vin : down.gen.vin = 0 ∧ up.gen.vin = 1 ∧ (after .vinRise down).gen.rails = true ∧ (after .vinRise down).gen.causes = [1] ∧
    (after .vinOvervoltage up).gen.vin = 2 ∧ (after .vinOvervoltage up).fget GEN_PINS_FAULT_N = 0 := by decide +kernel

theorem test_vinOvervoltageClear : (after .vinOvervoltage up).gen.vin = 2 ∧ (after .vinOvervoltage up).gen.causes = [] ∧
    (after .vinOvervoltageClear (after .vinOvervoltage up)).fget GEN_BOOT_STAGE = 1 := by decide +kernel

/-- Power loss in the microsecond of an FW_COMMIT that raised the floor from 1 to 9 (R411). -/
def upCut : State := { up with nv := { up.nv with fwFloor := 9 }, sec := { up.sec with commit := some (1, up.now) } }

theorem test_vinFall_commit : upCut.sec.commit = some (1, upCut.now) ∧ 1 ≤ upCut.nv.fwFloor ∧ up.sec.commit = none ∧
    (after .vinFall up).nv = up.nv := by decide +kernel

theorem test_railFault : up.gen.rails = true ∧ up.pointChecked 23 = true ∧ (after (.railFault 23) up).gen.causes = [4] ∧
    (after (.railFault 23) up).gen.rails = false := by decide +kernel

theorem test_thermalTrip : up.gen.rails = true ∧ up.gen.vin ≠ 0 ∧ tripHeld up.gen.causes = false ∧ (after .thermalTrip (after (.railFault 23) up)).gen.causes.contains 5 = true ∧ (after .thermalTrip up).fget GEN_PINS_THERMTRIP_N = 0 ∧ (after .thermalTrip up).nv.trip = true := by
  decide +kernel

theorem test_sysResetAssert : up.gen.causes.getLast? ≠ some 2 ∧ (after .sysResetAssert up).gen.causes = [2] ∧
    (after .sysResetAssert up).fields = [] := by decide +kernel

theorem test_deviceReset : (after .sysResetAssert up).released = true ∧ (after .deviceReset (after .sysResetAssert up)).gen.cause = 2 ∧
    (after .deviceReset (after .sysResetAssert up)).nv.boots = 2 := by decide +kernel

/-- In stage `n` of the boot, with firmware of SVN `v` in the flash. -/
def boot (n v : Nat) : State :=
  { State.reset with nv := { NvS.fresh with fw := ⟨v, 1, 0, true, List.replicate 32 0, []⟩, fwFloor := 1 } }.fset GEN_BOOT_STAGE n

theorem test_bootStageComplete : (boot 3 0).powered = true ∧ (boot 3 0).fget GEN_BOOT_READY = 0 ∧ (boot 3 0).fget SEC_STATUS_RECOVERY = 0 ∧
    (after (.bootStageComplete [] []) (boot 3 0)).fget SEC_STATUS_RECOVERY = 1 ∧ (after (.bootStageComplete [] []) (boot 3 1)).fget GEN_BOOT_STAGE = 4 ∧
    (after (.bootStageComplete [] []) (boot 0 1)).fget GEN_BOOT_STAGE = 1 ∧ (after (.bootStageComplete [] []) (boot 7 1)).fget GEN_BOOT_READY = 1 := by
  decide +kernel

theorem test_prepareOff : up.gen.prepare = false ∧ (after .prepareOff up).gen.prepare = true ∧ (after .prepareOff up).gen.snaps = [2] := by decide +kernel

theorem test_readyOff : (after .prepareOff up).gen.readyOff = false ∧ (after .prepareOff up).gen.resetAfter = false ∧
    (after .readyOff (after .prepareOff up)).gen.readyOff = true ∧ (after .readyOff (after .prepareOff up)).nv.orderly = true := by decide +kernel

theorem test_smb : up.gen.vin ≠ 0 ∧ (after .smbTemp up).out = [.smb [byteOf 0, byteOf 0, byteOf (up.fget PWR_THERM_THROTTLE_C), byteOf 0]] ∧
    (after .smbStatus up).out.length = 1 := by decide +kernel

theorem test_fatal : up.fatal = false ∧ (after .d2dBlockRetry up) = up ∧ (after .d2dRetryExhausted up).fget EVT_FATAL_CAUSE = 1 ∧
    (after .entropyFailure up).fget SEC_STATUS_RNG_FAULT = 1 ∧ (after .controlStoreParityError up).fget EVT_FATAL_CAUSE = 3 := by decide +kernel

/-- An event of severity 2 for the management path waits. -/
def upEv : State := up.devEv 0x05 2 1 0

/-- One for partition 0, whose ring of 16 slots is on and full. -/
def upFull : State := (up.partEv 0x05 2 0 1 0).fsets [(EVT_P_CFG_ENABLE 0, 1), (EVT_P_CFG_SIZE_LOG2 0, 4), (EVT_P_PTR_HEAD 0, 16)]

theorem test_eventDelivery : (upEv.evt.pend.map (fun e => (e.parts, e.nmi, e.sev))) = [([], false, 2)] ∧ (after .eventDelivery upEv).evt.pend = [] ∧
    (after .eventDelivery upEv).nv.faultSeq = 1 := by decide +kernel

/-- A failed ledger write waits for its retry: the fault record is held with it. -/
def upEvBad : State := { upEv with gen := { upEv.gen with flashBad := true } }

theorem test_eventDelivery_held : (after .eventDelivery upEvBad).nv.faults = upEvBad.nv.faults ∧
    (after .eventDelivery upEvBad).gen.recs.length = upEvBad.gen.recs.length + 1 ∧ (after .eventDelivery upEvBad).fget LDG_STATUS_WRITE_FAULT = 1 := by decide +kernel

theorem test_eventDelivery_full : (upFull.evt.pend.map (fun e => (e.parts, e.nmi, e.pennant, e.sev))) = [([(0, 0)], false, false, 2)] ∧
    upFull.fget (EVT_P_CFG_MIN_SEV 0) ≤ 2 ∧ upFull.fbit (EVT_P_CFG_ENABLE 0) = true ∧
    upFull.evtSlots 0 ≤ ahead 16 (upFull.fget (EVT_P_PTR_HEAD 0)) (upFull.fget (EVT_P_PTR_TAIL 0)) ∧
    (after .eventDelivery upFull).fget (EVT_P_STATUS_RING_FULL 0) = 1 ∧ (after .eventDelivery upFull).mem = upFull.mem := by decide +kernel

theorem test_ledgerSnapshot : (after .prepareOff up).gen.snaps = [2] ∧
    (after (.ledgerSnapshot true) (after .prepareOff up)).fget LDG_STATUS_LAST_REASON = 2 ∧
    (after (.ledgerWriteRetry false) (after .prepareOff up)).gen.snaps = [2] ∧
    (after (.ledgerWriteRetry false) (after .prepareOff up)).fget LDG_STATUS_WRITE_FAULT = 1 := by decide +kernel

-- O15 to O17: the management path ------------------------------------------------------------------------------------------------------------------

/-- A request of session 0, and the session's data. -/
def x0 : Jex := ⟨0, 9, false, true⟩
def u0 : Sess := ⟨List.replicate 57 1, some 0, false, 0, false⟩

theorem test_reads : up.performs x0 u0 1 1 false = true ∧ up.ready (.sess 0) GEN_DEVID.off = true ∧ regAt GEN_DEVID.off = some GEN_DEVID ∧
    up.performs x0 u0 2 2 false = true ∧ up.performs x0 u0 3 1 false = true ∧ up.performs x0 u0 4 1 false = true ∧
    up.performs x0 u0 5 1 false = true ∧ up.sec.run.isSome = true ∧ up.performs x0 u0 6 1 false = true ∧ up.performs x0 u0 7 1 false = true ∧
    up.performs x0 u0 8 1 false = true ∧ subOk 15 3 = true ∧ (up.fset PWR_FURL_STATE 2).performs x0 u0 9 1 false = true := by decide +kernel

theorem test_readReg : (after (.readReg x0 GEN_DEVID.off 4) up).out = [.jex 0 1 0 9 (leBytes 4 (up.readVal GEN_DEVID))] ∧
    (after (.writeReg x0 EVT_MGMT_CFG.off 4 0xFFFFFFFF) up).fget EVT_MGMT_CFG_MIN_SEV = 7 ∧
    (after (.wake x0) (up.fset PWR_FURL_STATE 2)).fget PWR_FURL_STATE = 3 := by decide +kernel

theorem test_subscribe : mfind (after (.subscribe x0) up).sec.sess 0 = some { u0 with subscribed := true } ∧
    (after (.getCert x0) up).out = [.jex 0 4 0 9 up.nv.cert] ∧ ran (.attest x0 []) up = true := by decide +kernel

/-- The certificate of the part of State.reset (R415, R406): 370 bytes, its DEVICE_ID the one that derives from its key, and its key the public key
of the fused identity key. -/
theorem test_certificate : State.reset.nv.cert.length = 370 ∧ leAt State.reset.nv.cert 0x10 8 = State.reset.deviceId ∧
    bytesAt State.reset.nv.cert 0x30 57 = State.reset.fuse.pubKey := by decide +kernel

theorem test_ledgerRead : (after (.ledgerRead x0 none) up).out = [.jex 0 7 0 9 []] ∧ (after (.ledgerRead x0 (some 0)) up).out = [.jex 0 7 0 9 []] ∧
    (after (.lldpRead x0 15 3) up).out = [.jex 0 8 0 9 []] ∧ subOk 16 0 = false ∧
    (after (.lldpRead x0 16 0) up).out = [.jex 0 8 1 9 []] ∧ ran (.logRead x0 0) up = true := by decide +kernel

/-- An ENROLLED image key, and a running firmware of SVN 1. -/
def upInst : State :=
  { up with
    fuse := { up.fuse with fwKeys := [List.replicate 57 0, idPublic], makerKey := idPublic }
    nv := { up.nv with slots := [(0, ⟨1, idPublic⟩), (1, ⟨2, List.replicate 57 6⟩)], creds := up.nv.creds ++ [(5, ⟨[], 1, []⟩)] }
    sec := { up.sec with
      sess := [(0, { u0 with maker := 0x3F })] }
    led := { up.led with failed := [150], mapped := [255] } }

/-- The firmware path open with an image of 178 bytes, signed with the private key of 57 zeros under key 1. -/
def upFw : State :=
  { upInst with sec := { upInst.sec with
      fw := some (0, leBytes 4 0x46395445 ++ leBytes 4 0x0E090001 ++ [byteOf 0x20, byteOf 1, byteOf 64, byteOf 0] ++ leBytes 4 7 ++ leBytes 4 178 ++
        leBytes 4 64 ++ List.replicate 40 (byteOf 0) ++ leBytes 114
          11348133604144495582947710345794401636754125088457958098926569460294441747545675538660195342994318840273117353847986701354228187803797231031942801299240324892394678229598098723894916304759716769891409778204891109882023493496023098858362193009370997475690322410640947899165) } }

def u1 : Sess := { u0 with maker := 0x3F }

theorem test_installer : upInst.performs x0 u1 0x10 2 true = true ∧ upInst.performs x0 u1 0x11 2 true = true ∧ upFw.performs x0 u1 0x12 2 true = true ∧
    upFw.performs x0 u1 0x13 2 true = true ∧ upInst.performs x0 u1 0x14 2 true = true ∧ upInst.performs x0 u1 0x15 2 true = true ∧
    upInst.performs x0 u1 0x16 2 true = true ∧ upInst.performs x0 u1 0x17 2 true = true ∧ upInst.performs x0 u1 0x18 2 true = true ∧
    upInst.performs x0 u1 0x19 2 false = true ∧ upInst.performs x0 u1 0x1A 2 true = true ∧ upInst.performs x0 u1 0x1B 2 true = true ∧
    upInst.performs x0 u1 0x1C 2 false = true ∧ upInst.performs x0 u1 0x20 2 false = true ∧ upInst.performs x0 u1 0x22 3 true = true := by decide +kernel

theorem test_imageLoad : (upInst.logPut true (upInst.recRole u1) (recCred u1) 0x10 0xFFFF (bytesAt img0 0x10 12)).imgCheck true img0 = none ∧
    (upInst.sect 0).isSome = true ∧ upInst.fget PWR_FURL_STATE = 0 := by decide +kernel

theorem test_bodiesFit : (img0 ++ []).length < jexMax ∧ (([] : List Byte) ++ []).length < jexMax ∧ [byteOf 3].length ≤ jexMax := by decide +kernel

theorem test_imageLoad_rejected : (upInst.logPut true (upInst.recRole u1) (recCred u1) 0x10 0xFFFF (bytesAt [] 0x10 12)).imgCheck true [] = some (1, 0xFF) ∧
    (after (.imageLoad x0 true [] []) upInst).fget FAB_REJECT_CODE = 1 ∧
    (after (.imageLoad x0 true [] []) upInst).out = [.jex 0 0x10 5 9 [byteOf 1]] := by decide +kernel

theorem test_fwEnd : (upFw.sec.fw.map (fun b => (b.1, fwHeader b.2, leAt b.2 9 1, leAt b.2 0xA 1))) = some (0, true, 1, 64) ∧ upFw.nv.fwFloor ≤ 64 ∧ (upFw.sec.fw.map (fun b => upFw.fwSigned b.2)) = some true ∧
    (after (.fwEnd x0 true true) upFw).nv.fw.svn = 64 ∧ (after (.fwEnd x0 true true) upFw).nv.fw.version = 7 ∧ (after (.fwEnd x0 false false) upFw).nv.fw = upFw.nv.fw ∧
    (after (.fwEnd x0 true true) upFw).fget SEC_STATUS_FW_PENDING = 1 := by decide +kernel

theorem test_fwChunk : 174 + [byteOf 1, byteOf 2, byteOf 3, byteOf 4].length ≤ ((upFw.sec.fw.map (·.2.length)).getD 0) ∧
    ((after (.fwChunk x0 174 [byteOf 1, byteOf 2, byteOf 3, byteOf 4]) upFw).sec.fw.map (fun b => (leAt b.2 174 4, b.2.length))) = some (0x04030201, 178) ∧
    (after (.fwBegin x0 3) upInst).sec.fw = some (0, [byteOf 0, byteOf 0, byteOf 0]) ∧
    (after (.fwCommit x0) upInst).nv.fwFloor = 1 := by decide +kernel

theorem test_keyslots : (mget KSlot.empty upInst.nv.slots 3).state = 0 ∧ (mget KSlot.empty upInst.nv.slots 0).state = 1 ∧
    mget KSlot.empty (after (.keyslotEnroll x0 3 (List.replicate 57 7)) upInst).nv.slots 3 = ⟨1, List.replicate 57 7⟩ ∧
    (mget KSlot.empty (after (.keyslotRevoke x0 0 true) upInst).nv.slots 0).state = 2 := by decide +kernel

theorem test_keyslotRevoke_plain : (∀ b, upInst.nv.image = some b → leAt b 0x1C 1 ≠ 0) ∧
    (mget KSlot.empty (after (.keyslotRevoke x0 0 false) upInst).nv.slots 0).state = 2 :=
  ⟨(fun b h => by
    have e : upInst.nv.image = none := by decide +kernel
    exact nomatch e.symm.trans h), by decide +kernel⟩

/-- The stored image is signed under the key of slot 0. -/
def upStored : State := { upInst with nv := { upInst.nv with image := some (List.replicate 0x20 (byteOf 0)) } }

theorem test_keyslotRevoke_used : upStored.performs x0 u1 0x16 2 true = true ∧ upStored.nv.image = some (List.replicate 0x20 (byteOf 0)) ∧
    leAt (List.replicate 0x20 (byteOf 0)) 0x1C 1 = 0 ∧ (after (.keyslotRevoke x0 0 false) upStored).nv.slots = upStored.nv.slots ∧
    (after (.keyslotRevoke x0 0 false) upStored).out = [.jex 0 0x16 5 9 []] := by decide +kernel

theorem test_creds : upInst.nv.creds.any (fun e => e.2.key == bytesAt [byteOf 9] 0 57) = false ∧ upInst.nv.creds.length < 32 ∧
    (List.range 32).find? (fun i => !mhas upInst.nv.creds i) = some 1 ∧ (mfind upInst.nv.creds 5).map (·.role) = some 1 ∧
    (mfind (after (.credAdd x0 [byteOf 9] 1 []) upInst).nv.creds 1).map (·.role) = some 1 ∧
    mfind (after (.credRemove x0 5) upInst).nv.creds 5 = none := by decide +kernel

/-- A trim record whose fields are all 0 but those that name it. -/
def trim0 : List Byte := leBytes 4 0x394D5254 ++ leBytes 2 1 ++ List.replicate 506 (byteOf 0)

theorem test_settings : trimOk trim0 = true ∧ (∀ e ∈ upInst.zt.ctx, e.2.root ≠ 7) ∧ (after (.netConfig x0 [byteOf 3]) upInst).nv.net = some [byteOf 3] ∧
    (after (.rootDisable x0 7) upInst).nv.rootEn = 0x7F := by decide +kernel

/-- An OPEN connection of root 0, and one of root 1. -/
def upRoots : State := { upInst with zt := { upInst.zt with ctx := [(0, conn0 3), (1, { conn0 3 with desc := patch (conn0 3).desc 6 [byteOf 1] })] } }

theorem test_rootDisable : upRoots.performs x0 u1 0x1B 2 true = true ∧ (mkeys upRoots.zt.ctx).Nodup ∧ (upRoots.zt.ctx.all (fun e => e.2.reqs.isEmpty)) = true ∧
    (after (.rootDisable x0 0) upRoots).zt.ctx.map (fun e => (e.1, e.2.state)) = [(0, 5), (1, 3)] := by decide +kernel

theorem test_reset : upInst.gen.prepare = false ∧ upInst.gen.readyOff = false ∧ (after (.reset x0) upInst).gen.resetAfter = true ∧
    (after (.reset x0) upInst).gen.snaps = [2] := by decide +kernel

/-- The signature over an empty challenge under the maker key whose private key is 57 zeros. -/
def makerSig : List Byte := leBytes 114
  21812650338656344451832870647479290251661129873140859712412965996036736810166388497977946177827034570413536438114940801856135889471875437760930395152082283116367916117657446116197416685066266229993416800934182778991096804178296666459843449202481112904280344064317237431927

def upMaker : State := { upInst with sec := { upInst.sec with challenge := some (0xFFFFFFFFFFFFFFFF, 0, []) } }

theorem test_maker : upInst.fget SEC_STATUS_RNG_FAULT = 0 ∧ upMaker.performs x0 u1 0x21 2 false = true ∧
    ((after (.makerChallenge x0 0x3F) upInst).sec.challenge.map (fun c => (c.1, c.2.1))) = some (0x3F, 0) ∧
    edVerify upMaker.fuse.makerKey [0x45, 0x54, 0x39, 0x2D, 0x4D, 0x41, 0x4B, 0x45, 0x52] (shake256 [] 64) makerSig = true ∧
    mfind (after (.makerUnlock x0 makerSig) upMaker).sec.sess 0 = some { u1 with maker := 0xFFFFFFFFFFFFFFFF } ∧
    (after .challengeExpiry upMaker).sec.challenge = none := by decide +kernel

theorem test_makerFn : upInst.led.failed.contains 150 = true ∧ upInst.led.mapped.contains 255 = true ∧ (List.range 6).all (fun f => u1.maker.testBit f) = true ∧
    (mget KSlot.empty upInst.nv.slots 1).state = 2 ∧ (after (.makerFn x0 0 150) upInst).led.failed = [] ∧
    (after (.makerFn x0 1 255) upInst).led.mapped = [] ∧ (after (.makerFn x0 2 1) upInst).nv.slots = [(0, ⟨1, idPublic⟩)] ∧
    (after (.makerFn x0 3 0) upInst).nv.rootEn = 0xFF ∧ (after (.makerFn x0 4 0) upInst).nv.creds = [] ∧
    (after (.makerFn x0 5 0) upInst).led.mapped = [255] := by decide +kernel

/-- The channel that a maker function returns holds a byte. -/
def upLeft : State := { upInst with mem := [(255 * 2 ^ 31, byteOf 5)] }

theorem test_makerFn_zeroes : upLeft.memByte (255 * 2 ^ 31) = byteOf 5 ∧ (after (.makerFn x0 1 255) upLeft).mem = [] ∧
    (after (.makerFn x0 1 255) upInst).chan 255 = Chan.init := by decide +kernel

theorem test_makerGrantExpiry : mfind (after (.makerGrantExpiry 0) upInst).sec.sess 0 = some u0 := by decide +kernel

/-- A device without credentials, with an open session for the setup. -/
def upSetup : State := { up with nv := { up.nv with creds := [] }, sec := { up.sec with sess := [(0, { u0 with cred := none })] } }
def upCode : State := { upSetup with fuse := { upSetup.fuse with setup := leBytes 32 39796761649016206033046467587577566291394148647136556563640740213269594269790 } }

theorem test_enrollFirst : upCode.performs x0 { u0 with cred := none } 0x30 0 false = true ∧ upCode.nv.creds = [] ∧
    upCode.fget SEC_STATUS_SETUP_LOCKED = 0 ∧ shake256 (setupCode [byteOf 0x61]) 32 = upCode.fuse.setup ∧
    (mfind (after (.enrollFirst x0 [byteOf 0x61]) upCode).nv.creds 0).map (·.role) = some 2 := by decide +kernel

theorem test_enrollFirst_wrong : upSetup.performs x0 { u0 with cred := none } 0x30 0 false = true ∧
    shake256 (setupCode [byteOf 0x41]) 32 ≠ upSetup.fuse.setup ∧ (after (.enrollFirst x0 [byteOf 0x41]) upSetup).sec.wrong = 1 := by decide +kernel

theorem test_tlsHandshake : up.jexServed = true ∧ up.sec.refused.contains 1 = false ∧ up.fget SEC_STATUS_RNG_FAULT = 0 ∧
    (List.range 8).find? (fun n => match mfind up.sec.sess n with | some v => v.closing | none => true) = some 1 ∧
    up.nv.creds.any (fun e => e.2.key == bytesAt (List.replicate 57 1) 0 57) = true ∧
    (mfind (after (.tlsHandshake 1 (List.replicate 57 1) true) up).sec.sess 1).map (·.maker) = some 0 ∧
    (after (.tlsHandshake 1 [] false) up).fget SEC_AUTH_FAIL_COUNT = 1 := by decide +kernel

theorem test_tlsHandshake_refused :
    { up with sec := { up.sec with refused := [1] } }.sec.refused.contains 1 = true ∧
    (after (.tlsHandshake 1 (List.replicate 57 1) true) { up with sec := { up.sec with refused := [1] } }).nv.logSeq = up.nv.logSeq + 1 ∧
    (after (.tlsHandshake 1 (List.replicate 57 1) true) { up with sec := { up.sec with refused := [1] } }).sec.sess = up.sec.sess := by decide +kernel

theorem test_sessions_end : mfind (after (.sessionIdleTimeout 0) up).sec.sess 0 = none ∧ (after (.tlsSessionClose 0) up).out = [.tlsClose 0] ∧
    (after (.handshakeLockoutExpiry 1) { up with sec := { up.sec with refused := [1] } }).sec.refused = [] ∧
    (after .fwBeginTimeout upInst).sec.fw = none := by decide +kernel

def upRec : State := { up with sec := { up.sec with openRec := some ⟨0, [byteOf 1]⟩, held := [[byteOf 2]] } }

theorem test_log : upRec.sec.openRec.isSome = true ∧ (after .logRecordClose upRec).sec.held = [[byteOf 2], [byteOf 1]] ∧
    (after (.operatorLogFlush true) upRec).nv.log = [[byteOf 2]] ∧ (after (.operatorLogFlush false) upRec).fget SEC_STATUS_LOG_FAULT = 1 := by decide +kernel

theorem test_wakeComplete : (up.fset PWR_FURL_STATE 3).clk.waiting = [] ∧ up.fab.waits = [] ∧
    (after .wakeComplete (up.fset PWR_FURL_STATE 3)).fget PWR_FURL_STATE = 0 := by decide +kernel

-- O18 and O19: the host ----------------------------------------------------------------------------------------------------------------------------

/-- Ring 0 of partition 0 with TAIL 4, and the host's stores of a command of operation `o` with the body `b`, of at most 60 bytes, at HEAD. -/
def upCr : State := (upHost.fsets [(HIF_P_CR_DB_TAIL 0 0, 4), (HIF_WIN_BASE 0, 0)])
def slot0 (o : Nat) (b : List Byte) : HostStores := [(0x10000, leBytes 4 (0x10000 + o * 2 ^ 17 + b.length * 2 ^ 24) ++ b)]
def cmd0 (o : Nat) (b : List Byte) : CrCmd := ⟨o, b.length, 0, b, true⟩

/-- A task descriptor's command in three slots. -/
def slots1 : HostStores :=
  [(0x10000, leBytes 4 (0x10000 + 1 * 2 ^ 17 + 2 * 2 ^ 22 + 128 * 2 ^ 24) ++ List.replicate 60 (byteOf 7)),
   (0x10040, leBytes 4 (0x10001 + 0x1F * 2 ^ 17 + 1 * 2 ^ 22) ++ List.replicate 60 (byteOf 7)),
   (0x10080, leBytes 4 (0x10002 + 0x1F * 2 ^ 17 + 2 * 2 ^ 22) ++ List.replicate 60 (byteOf 7))]

theorem test_cmdNop : upCr.commands 0 0 0 (slot0 0 []) (cmd0 0 []) = true ∧
    (after (.cmdNop 0 0 (slot0 0 [])) upCr).fget (HIF_P_CR_HEAD_HEAD 0 0) = 1 := by decide +kernel

theorem test_cmdTask : upCr.commands 0 0 1 slots1 ⟨1, 128, 2, List.replicate 128 (byteOf 7), true⟩ = true ∧ upCr.crTasks 0 0 = true := by
  decide +kernel

theorem test_cmdTaskRef : upCr.commands 0 0 2 (slot0 2 (leBytes 8 0x1000 ++ leBytes 4 2)) (cmd0 2 (leBytes 8 0x1000 ++ leBytes 4 2)) = true ∧
    upCr.plain 0 0x1000 128 0x1000 = true ∧ upCr.hostClass 0 0x1000 false = 0 ∧ upCr.crTasks 0 0 = true ∧
    ((after (.cmdTaskRef 0 0 (slot0 2 (leBytes 8 0x1000 ++ leBytes 4 2))) upCr).crOf 0 0).item = 1 ∧
    (after (.cmdTaskRef 0 0 (slot0 2 (leBytes 8 0x1000 ++ leBytes 4 1))) upCr).fget (HIF_P_CR_HEAD_HEAD 0 0) = 1 := by decide +kernel

theorem test_cmdWrite : upCr.commands 0 0 3 (slot0 3 (leBytes 8 0x11FE ++ leBytes 2 0xABCD)) (cmd0 3 (leBytes 8 0x11FE ++ leBytes 2 0xABCD)) = true ∧
    upCr.plain 0 0x11FE 2 0x11FE = true ∧ upCr.hostClass 0 0x11FE true = 0 ∧
    (after (.cmdWrite 0 0 (slot0 3 (leBytes 8 0x11FE ++ leBytes 2 0xABCD))) upCr).mem = [(0x11FE, byteOf 0xCD), (0x11FF, byteOf 0xAB)] := by decide +kernel

theorem test_cmdSignal : upCr.commands 0 0 4 (slot0 4 (leBytes 4 255 ++ leBytes 4 3)) (cmd0 4 (leBytes 4 255 ++ leBytes 4 3)) = true ∧
    upCr.crHeld 0 0 = false ∧ (after (.cmdSignal 0 0 (slot0 4 (leBytes 4 255 ++ leBytes 4 3))) upCr).fget (SCH_SIG_VALUE 0 255) = 3 := by decide +kernel

theorem test_cmdBias : upCr.commands 0 0 5 (slot0 5 (leBytes 8 0x200000 ++ leBytes 8 0x100000001)) (cmd0 5 (leBytes 8 0x200000 ++ leBytes 8 0x100000001)) = true ∧
    upCr.pagesInSpace 0 0x200000 1 = true ∧ upCr.loc 0 0x200000 = .mem 0 0x200000 0x200000 ∧ upCr.bias 0 0x200000 = 0 ∧
    (after (.cmdBias 0 0 [] (slot0 5 (leBytes 8 0x200000 ++ leBytes 8 0x100000001))) upCr).bias 0 0x200000 = 1 := by decide +kernel

/-- The slot at HEAD has not matched since time 6. -/
def upMiss (now : Nat) : State := { upCr with now, hif := { upCr.hif with cr := [(0, ⟨some 6, 0⟩)] } }

theorem test_slotReread : (upMiss 70).crLive 0 0 = true ∧ (upMiss 70).crCommand 0 0 = some none ∧ ((upMiss 70).crOf 0 0).mism = some 6 ∧
    (after (.slotReread 0 0 []) (upMiss 70)).fget (HIF_P_CR_CFG_HALTED 0 0) = 1 ∧ (after (.slotReread 0 0 []) (upMiss 69)).fields = (upMiss 69).fields ∧
    ((upMiss 70).hostStores (slot0 0 [])).crCommand 0 0 = some (some (cmd0 0 [])) ∧
    ((after (.slotReread 0 0 (slot0 0 [])) (upMiss 70)).crOf 0 0).mism = none := by decide +kernel

/-- The window of function 1, the decoder of function 0 committed, and page 0 of the memory SHARED. -/
def upWin : State := { upHost with hif := { upHost.hif with bias := [(1, 1)] }, mem := [(0x1000, byteOf 9)] }

theorem test_bar2Io : upWin.fget PWR_FURL_STATE = 0 ∧ upWin.clk.divBusy = false ∧ upWin.ioPart 16 = none ∧ upWin.ioPart 0 = none ∧ upWin.ioPart 1 = some 0 ∧
    upWin.plain 0 (upWin.winAddr 1 0x1000) 4 0x1000 = true ∧ upWin.hostClass 0 (upWin.winAddr 1 0x1000) true = 0 ∧
    upWin.hostClass 0 (upWin.winAddr 1 0x1000) false = 0 ∧
    (after (.bar2IoRead 1 0x1000 1) upWin).out = [.cpl 1 (some [byteOf 9]) false] ∧ (after (.bar2IoRead 16 0 4) upWin).out = [.cpl 16 none false] ∧
    (after (.bar2IoWrite 1 0x1000 [byteOf 5]) upWin).mem = [(0x1000, byteOf 5)] := by decide +kernel

theorem test_windowEnd : inWindow (2 ^ 36 - 4) 4 = true ∧ inWindow (2 ^ 36) 4 = false ∧ after (.bar2IoRead 1 (2 ^ 36) 4) upWin = upWin ∧
    after (.cxlMemWrite (2 ^ 36) [byteOf 1]) upWin = upWin := by decide +kernel

theorem test_cxlMem : upWin.fbit HIF_STATUS_HDM_COMMITTED = true ∧ upWin.fnPart 0 = some 0 ∧
    upWin.inLine 0 (upWin.winAddr 0 0x200000) 64 0x200000 = true ∧ upWin.bias 0 (upWin.winAddr 0 0x200000) = 1 ∧
    upWin.hostClass 0 (upWin.winAddr 0 0x200000) true = 0 ∧ upWin.hostClass 0 (upWin.winAddr 0 0x200000) false = 0 ∧
    (after (.cxlMemRead 0x200000 1) upWin).out = [.memData [byteOf 0] false] ∧
    (after (.cxlMemWrite 0x200000 [byteOf 5]) upWin).memByte 0x200000 = byteOf 5 := by decide +kernel

theorem test_hostLoss : (upHost.hp 0).attached = true ∧ upHost.hostLost 0 = false ∧ (after (.hostLoss 1 0) upHost).fget (HIF_P_STATUS_HOST_LOST 0) = 1 ∧
    ((after (.hostLoss 1 0) upHost).hp 0).losses = 1 ∧ (after (.hostLoss 1 16) upHost).fget HIF_STATUS_DL_UP = 0 := by decide +kernel

/-- The link up, partition 0 not attached yet. -/
def upNew : State := { upHost with hif := { upHost.hif with part := [] } }

theorem test_firstAttach : (upNew.hp 0).attached = false ∧ upNew.linkReady 0 = true ∧ (upNew.sp 0).tasks = [] ∧ (upNew.sp 0).counted = [] ∧
    upNew.connsOf 0 = [] ∧ upNew.zt.opens = [] ∧ upNew.evt.irqHeld.contains 0 = false ∧
    ((after (.firstAttach 0 0 0) upNew).hp 0).attached = true := by decide +kernel

/-- A record waits for the completion ring. -/
def upCpl : State := { upHost with hif := { upHost.hif with part := [(0, { HifP.init with attached := true, waiting := [List.replicate 32 (byteOf 4)] })] } }

theorem test_cplRecordWrite : upCpl.hostLost 0 = false ∧ (upCpl.hp 0).waiting = [List.replicate 32 (byteOf 4)] ∧
    ahead 32 (upCpl.fget (HIF_P_CPL_HEAD_HEAD 0)) (upCpl.fget (HIF_P_CPL_TAIL_TAIL 0)) < 2 ^ upCpl.cplSize 0 ∧
    (after (.cplRecordWrite 0) upCpl).fget (HIF_P_CPL_HEAD_HEAD 0) = 1 ∧ ((after (.cplRecordWrite 0) upCpl).hp 0).waiting = [] := by decide +kernel

theorem test_cplInterrupt : (upCpl.fset (HIF_P_CPL_HEAD_HEAD 0) 1).fnOf 0 = some 1 ∧ (upCpl.hp 0).lastIrq = none ∧
    (after (.cplInterrupt 0) (upCpl.fset (HIF_P_CPL_HEAD_HEAD 0) 1)).out = [.msix 1 (upCpl.fget (HIF_P_CPL_CFG_VECTOR 0))] := by decide +kernel

/-- The vector of the completion ring is masked in function 1's table. -/
def upMasked : State :=
  { upCpl with hif := { upCpl.hif with masked := [2048 + upCpl.fget (HIF_P_CPL_CFG_VECTOR 0)] } }.fset (HIF_P_CPL_HEAD_HEAD 0) 1

theorem test_cplInterrupt_masked : upMasked.hif.msixOff.contains 1 = false ∧ upMasked.fnOf 0 = some 1 ∧ (after (.cplInterrupt 0) upMasked).out = [] ∧
    (after (.cplInterrupt 0) upMasked).hif.pba = [2048 + upCpl.fget (HIF_P_CPL_CFG_VECTOR 0)] := by decide +kernel

theorem test_hostPresent : (after .hostFunctionsPresent (State.reset.fset GEN_PINS_PWR_GOOD 1)).hif.present = true ∧
    (after .hostFunctionsPresent State.reset).hif.present = false ∧ up.hif.present = true ∧
    (after .hdmDecoderCommit up).fget HIF_STATUS_HDM_COMMITTED = 1 := by decide +kernel

-- O20 to O22: the tiles' rings -----------------------------------------------------------------------------------------------------------------------

/-- Tile 0 with the matrix ring at 0x1000, the nib ring at 0x2000 and mover 0's at 0x3000, one descriptor in each. -/
def upTile : State :=
  (upTask .running).fsets [(TIL_MX_RING_BASE 0, 0x40), (TIL_MX_CTRL_ENABLE 0, 1), (TU.mx.tail 0, 1), (TIL_NB_RING_BASE 0, 0x80), (TIL_NB_CTRL_ENABLE 0, 1),
    (TU.nb.tail 0, 1), (TIL_SM_RING_BASE 0 0, 0x60), (TIL_SM_CTRL_ENABLE 0 0, 1), ((TU.sm 0).tail 0, 1)]

theorem test_mxNop : upTile.mxReady 0 0 = true ∧ (after (.mxNop 0) upTile).fget (TU.mx.head 0) = 1 ∧ (after (.mxNop 0) upTile).fget (TU.mx.doneF 0) = 1 := by
  decide +kernel

/-- An MMA of 1 × 1 elements, K = 1, of FP32: A at 0x8000 is 2.0, B at 0x8040 is 3.0; ZERO. -/
def upMma : State :=
  ((((((upTile |> pokeInk 0x1000 1 1) |> pokeInk 0x1001 1 1) |> pokeInk 0x1008 2 1) |> pokeInk 0x100A 2 1) |> pokeInk 0x100C 4 1)
    |> pokeInk 0x1010 16 0x00000040000080400000004000008000) |> pokeInk 0x8000 4 0x40000000 |> pokeInk 0x8040 4 0x40400000

theorem test_mxMma : upMma.mxReady 0 1 = true ∧ (upMma.mxSlot 0).drainAfter = false ∧ Fmt.ofCode (upMma.mxSlot 0).fmtA = some .fp32 ∧
    Fmt.ofCode (upMma.mxSlot 0).fmtB = some .fp32 ∧ (after (.mxMma 0) upMma).accGet 0 1 0 0 = rne48 (fp32 0x40C00000) ∧
    (after (.mxMma 0) upMma).bank 0 = 1 := by decide +kernel

/-- A DRAIN of one element to the inkwell at 0x9000 as FP32, times 1.0; and one to row 0 of the blotter, mapped to block 3. -/
def upDrainMx : State :=
  ({ upTile with acc := [(0, rne48 (fp32 0x40C00000))] } |> pokeInk 0x1000 1 2) |> pokeInk 0x1008 4 0x10001 |> pokeInk 0x1030 4 0x9000
    |> pokeInk 0x1034 4 0x40 |> pokeInk 0x1038 4 0x3F800000
def upDrainBl : State :=
  (({ upTile with acc := [(0, rne48 (fp32 0x40C00000))] }.fset (TIL_BL_MAP_V 0 0 0) 0x83 |> pokeInk 0x1000 1 2) |> pokeInk 0x1005 2 0x040A)
    |> pokeInk 0x1008 4 0x10001 |> pokeInk 0x1038 4 0x3F800000

theorem test_mxDrain : upDrainMx.mxReady 0 2 = true ∧ (upDrainMx.mxSlot 0).dest = 0 ∧ (after (.mxDrain 0) upDrainMx).inkNat 0 0x9000 4 = 0x40C00000 := by
  decide +kernel

theorem test_mxDrain_blotter : upDrainBl.mxReady 0 2 = true ∧ (upDrainBl.mxSlot 0).dest = 1 ∧ upDrainBl.blotRow 0 0 = some (3 * 4096) ∧
    (after (.mxDrain 0) upDrainBl).blot = [(3 * 4096, rne48 (fp32 0x40C00000))] := by decide +kernel

/-- A LOAD of one FP32 element from 0x9000. -/
def upLoadMx : State :=
  ((upTile |> pokeInk 0x1000 1 3) |> pokeInk 0x1008 4 0x10001 |> pokeInk 0x1030 4 0x9000 |> pokeInk 0x1034 4 0x40) |> pokeInk 0x9000 4 0x40C00000

theorem test_mxLoad : upLoadMx.mxReady 0 3 = true ∧ (upLoadMx.mxSlot 0).et5 = false ∧ (after (.mxLoad 0) upLoadMx).bank 0 = 1 ∧
    (after (.mxLoad 0) upLoadMx).accGet 0 1 0 0 = rne48 (fp32 0x40C00000) := by decide +kernel

/-- A sampled descriptor under recomputation on tile 0, and one summary in flight. -/
def upWatch1 : State :=
  { upWatch with tiles := [(0, { Tile.init with shadow := some ⟨List.replicate 64 (byteOf 0), 0, Summary.init 0⟩ })],
                 nw := [(0, { NwP.init with flight := [{ Summary.init 0 with total := 3 }] })] }

theorem test_watch : ((upWatch1.tile 0).shadow.isSome) = true ∧ ((after (.shadowRecomputeDone 0) upWatch1).tile 0).shadow = none ∧
    (upWatch1.nwp 0).dead = [] ∧ upWatch1.plain 0 (upWatch1.nwAddr 0 0) 512 (upWatch1.nwAddr 0 0) = true ∧
    (mget NwAcc.init ((after (.watchSummary 0) upWatch1).nwp 0).acc 0).total = 3 ∧
    upWatch.fbit (SCH_NW_PCTRL_ENABLE 0) = true ∧ up.fbit (SCH_NW_PCTRL_ENABLE 0) = false ∧
    (after (.watchIdle 0) (up.fset (SCH_NW_PSTATUS_IDLE 0) 0)).fget (SCH_NW_PSTATUS_IDLE 0) = 1 := by decide +kernel

/-- A nib descriptor of operation `o` with `i` inputs and `n` outputs, whose streams at 0x4000 hold one element of format `f` each, of BASE 0x8000,
0x8100, ...; status stream none. -/
def upNib (o i n f : Nat) : State :=
  (List.range (i + n)).foldl (fun s k => s |> pokeInk (0x4000 + 32 * k) 32 (f * 2 ^ 8 + (2 ^ 32 + 2 ^ 48) + (0x8000 + 0x100 * k) * 2 ^ 64 + 2 ^ 128 +
      2 ^ 160 + 2 ^ 192 + 2 ^ 224))
    ((upTile |> pokeInk 0x2000 16 (o + i * 2 ^ 16 + n * 2 ^ 24 + (if i + n = 0 then 0 else 0x4000) * 2 ^ 64)) |> pokeInk 0x2018 4 0xFFFFFFFF)

theorem test_nibNop : (upNib 0 0 0 0).nbReady 0 0 = true ∧ (after (.nibNop 0) (upNib 0 0 0 0)).fget (TU.nb.head 0) = 1 := by decide +kernel

/-- MAP of one element of FP32, by a program of one word: r4 = in0 + in0 and so on as R119 numbers its fields. -/
def upMap : State := ((upNib 1 1 1 0 |> pokeInk 0x200C 4 0x5000 |> pokeInk 0x2010 2 1) |> pokeInk 0x5000 4 (0x01 * 2 ^ 24 + 4 * 2 ^ 19)) |> pokeInk 0x8000 4 0x40000000

theorem test_nibMap : upMap.nbReady 0 1 = true ∧ (upMap.nbSlot 0).outs.all Strm.one = true ∧ (upMap.nbSlot 0).ins.all Strm.one = true ∧
    (after (.nibMap 0) upMap).inkNat 0 0x8100 4 = 0x40800000 := by decide +kernel

theorem test_nibReduce : (upNib 2 1 1 0).nbReady 0 2 = true ∧ ((upNib 2 1 1 0).nbSlot 0).ins.all Strm.one = true ∧
    (after (.nibReduce 0) (upNib 2 1 1 0 |> pokeInk 0x8000 4 0x40000000)).inkNat 0 0x8100 4 = 0x40000000 := by decide +kernel

theorem test_nibSoftmax : (upNib 3 1 1 0).nbReady 0 3 = true ∧ ((upNib 3 1 1 0).nbSlot 0).hasStatus = false ∧
    (upNib 3 2 1 0 |> pokeInk 0x2018 4 0x6000).nbReady 0 3 = true ∧ ((upNib 3 2 1 0 |> pokeInk 0x2018 4 0x6000).nbSlot 0).hasStatus = true := by decide +kernel

theorem test_nibCompress : (upNib 4 2 1 0).nbReady 0 4 = true ∧ ((upNib 4 2 1 0).nbSlot 0).outs.all Strm.one = true ∧
    (upNib 4 2 1 0 |> pokeInk 0x2018 4 0x6000).nbReady 0 4 = true ∧
    (after (.nibCompress 0) (upNib 4 2 1 0 |> pokeInk 0x8000 4 0x40000000 |> pokeInk 0x8100 4 0x40000000)).inkNat 0 0x8200 4 = 0x40000000 ∧
    (after (.nibCompress 0) (upNib 4 2 1 0 |> pokeInk 0x8000 4 0x40000000 |> pokeInk 0x2018 4 0x6000)).inkNat 0 0x6000 4 = 0 := by decide +kernel

theorem test_nibExpand : (upNib 5 2 1 0).nbReady 0 5 = true ∧ (upNib 5 2 1 0 |> pokeInk 0x2018 4 0x6000).nbReady 0 5 = true ∧
    (after (.nibExpand 0) (upNib 5 2 1 0 |> pokeInk 0x2020 4 0x3F800000)).inkNat 0 0x8200 4 = 0x3F800000 := by decide +kernel

/-- MXPACK of one FP32 element to E4M3, with its scale at 0x8200. -/
def upPack : State := (((upNib 6 1 2 0 |> pokeInk 0x4021 1 4) |> pokeInk 0x4041 1 8)) |> pokeInk 0x8000 4 0x40000000

theorem test_nibMxpack : upPack.nbReady 0 6 = true ∧ ((upPack.nbSlot 0).ins ++ (upPack.nbSlot 0).outs).all Strm.one = true ∧
    (upPack.nbSlot 0).outs.map (fun o => (o.base, o.range)) = [(0x8100, (0x8100, 0x8100)), (0x8200, (0x8200, 0x8200))] ∧
    overlaps (0x8100, 0x8100) (0x8200, 0x8200) = false ∧
    ran (.nibMxpack 0) upPack = true := by decide +kernel

def upUnpack : State := (upNib 7 2 1 0 |> pokeInk 0x4001 1 4) |> pokeInk 0x4021 1 8

theorem test_nibMxunpack : upUnpack.nbReady 0 7 = true ∧ ((upUnpack.nbSlot 0).ins ++ (upUnpack.nbSlot 0).outs).all Strm.one = true ∧
    (after (.nibMxunpack 0) (upUnpack |> pokeInk 0x8000 1 0x38 |> pokeInk 0x8100 1 127)).inkNat 0 0x8200 4 = 0x3F800000 := by decide +kernel

/-- An ET-5 program of one END. -/
def upEt5 : State := ((upNib 8 0 0 0 |> pokeInk 0x200C 4 0x5000 |> pokeInk 0x2010 2 1) |> pokeInk 0x2014 4 0xFFFF) |> pokeInk 0x5000 8 (0x3F * 2 ^ 56)

theorem test_nibEt5 : upEt5.nbReady 0 8 = true ∧ (after (.nibEt5 0) upEt5).fget (TU.nb.head 0) = 1 := by decide +kernel

/-- A WAIT for `c` descriptors of the matrix array. -/
def upWait (c : Nat) : State := (upNib 9 0 0 0 |> pokeInk 0x201C 4 c)

theorem test_nibWait : (upWait 0).nbReady 0 9 = true ∧ (upWait 0).waitMet 0 0 0 = true ∧ (upWait 1).nbReady 0 9 = true ∧
    (upWait 1).waitMet 0 ((upWait 1).nbSlot 0).d.subop ((upWait 1).nbSlot 0).d.count = false ∧
    ((after (.nibWait 0) (upWait 1)).tile 0).nbWait = some (0, 1) ∧
    (after (.nibWait 0) (upWait 1)).fget (TIL_NB_STATUS_WAITING 0) = 1 := by decide +kernel

theorem test_nibWaitMet : ((after (.nibWait 0) (upWait 1)).fset (TU.mx.doneF 0) 1).waitMet 0 0 1 = true ∧
    (after (.nibWaitMet 0) ((after (.nibWait 0) (upWait 1)).fset (TU.mx.doneF 0) 1)).fget (TU.nb.doneF 0) = 1 := by decide +kernel

theorem test_nibPost : (upNib 10 0 0 0 |> pokeInk 0x201C 4 4).nbReady 0 10 = true ∧
    (after (.nibPost 0) (upNib 10 0 0 0 |> pokeInk 0x201C 4 4)).fget (TU.mx.tail 0) = 4 ∧
    (after (.nibPost 0) (upNib 10 0 0 0 |> pokeInk 0x201C 4 0xFFFF)).halted 0 .mx = true := by decide +kernel

/-- A mover descriptor of operation `o`; COPY moves one FP32 element of memory at 0x7000 to the inkwell at 0x8000, or back where `back` is 1. -/
def upSm (o back : Nat) : State :=
  let strm := fun (sp base : Nat) => sp + 2 ^ 32 + 2 ^ 48 + base * 2 ^ 64 + 2 ^ 128 + 2 ^ 160 + 2 ^ 192 + 2 ^ 224
  ((upTile |> pokeInk 0x3000 1 o) |> pokeInk 0x3020 32 (if back = 0 then strm 1 0x7000 else strm 0 0x8000))
    |> pokeInk 0x3040 32 (if back = 0 then strm 0 0x8000 else strm 1 0x7000)

theorem test_moverNop : (upSm 0 0).smReady 0 0 0 = true ∧ (after (.moverNop 0 0) (upSm 0 0)).fget ((TU.sm 0).head 0) = 1 := by decide +kernel

theorem test_moverCopy : (upSm 1 0).smReady 0 0 1 = true ∧ (upSm 1 0).tilePart 0 = some 0 ∧ (upSm 1 0).taskBad 0 = false ∧
    ((upSm 1 0).smSlot 0 0).src.space = 1 ∧ ((upSm 1 0).smSlot 0 0).src.one = true ∧ ((upSm 1 0).smSlot 0 0).dst.one = true ∧
    ((upSm 1 0).shadowLocks 0).stall [] [((upSm 1 0).smSlot 0 0).dst.range] = false ∧ (upSm 1 0).plain 0 0x7000 4 0x7000 = true ∧
    (after (.moverCopy 0 0 []) (upSm 1 0 |> poke 0x7000 4 0x12345678)).inkNat 0 0x8000 4 = 0x12345678 := by decide +kernel

theorem test_moverCopy_out : (upSm 1 1).smReady 0 0 1 = true ∧ ((upSm 1 1).smSlot 0 0).dst.space = 1 ∧
    ((upSm 1 1).smSlot 0 0).src.one = true ∧ ((upSm 1 1).smSlot 0 0).dst.one = true ∧
    ((upSm 1 1).shadowLocks 0).stall [((upSm 1 1).smSlot 0 0).src.range] [] = false ∧
    leNat ((List.range 4).map (fun i => (after (.moverCopy 0 0 []) (upSm 1 1 |> pokeInk 0x8000 4 0x12345678)).memByte (0x7000 + i))) = 0x12345678 := by
  decide +kernel

theorem test_moverWait : (upSm 2 0).smReady 0 0 2 = true ∧ (upSm 2 0).waitMet 0 0 0 = true ∧ (upSm 2 0 |> pokeInk 0x3004 4 1).smReady 0 0 2 = true ∧
    (upSm 2 0 |> pokeInk 0x3004 4 1).waitMet 0 0 1 = false ∧
    mfind ((after (.moverWait 0 0) (upSm 2 0 |> pokeInk 0x3004 4 1)).tile 0).smWait 0 = some (0, 1) ∧
    (after (.moverWaitMet 0 0) ((after (.moverWait 0 0) (upSm 2 0 |> pokeInk 0x3004 4 1)).fset (TU.mx.doneF 0) 1)).fget ((TU.sm 0).doneF 0) = 1 := by
  decide +kernel

-- O23: the blotter ----------------------------------------------------------------------------------------------------------------------------------

/-- Regions 0 (resident in block 5 of tile 0, two sources) and 1 (a source, SPILLED) of partition 0, opened in the step, with their descriptors at 0x1000,
and region 2, which is not open. Each has its own view block; BACKING is at `dst`. -/
def regD0 (id flags n dst : Nat) : Nat :=
  7 + id * 2 ^ 32 + 1 * 2 ^ 48 + 1 * 2 ^ 64 + 2 * 2 ^ 72 + flags * 2 ^ 80 + n * 2 ^ 88 + 32 * id * 2 ^ 96 + dst * 2 ^ 128 + (dst + 0x8000) * 2 ^ 192 +
    (if n = 0 then (2 ^ 192 - 1) * 2 ^ 256 else (2 ^ 192 - 2 ^ 16 + 1) * 2 ^ 256)
def upBlAt (base : Nat) : State :=
  (({ up with tiles := [(0, { Tile.init with regions := [(0, ⟨7, 1, 0, [5], false, 0⟩), (1, ⟨7, 2, 1, [], false, 0⟩)] })],
              blot := [(5 * 4096, rne48 (fp32 0x40000000))] }.fset (SCH_REGION_BASE_BASE 0) (0x1000 / 64)
    |> poke 0x1000 64 (regD0 0 0 1 (base + 0x10000))) |> poke 0x1040 64 (regD0 1 1 0 (base + 0x20000))) |> poke 0x1080 64 (regD0 2 0 0 (base + 0x30000))
def upBl : State := upBlAt 0

/-- The same with BACKING and DRAIN_DST in the paged window, of four pages that are not resident. -/
def upBlPage : State := (upBlAt pagedBase).fsets [(SCH_PAGE_CFG_PAGES 0, 4), (SCH_PAGE_CFG_FRAMES 0, 2), (SCH_PAGE_TABLE_BASE 0, 1), (SCH_PAGE_FRAMES_BASE 0, 4)]

/-- Can the engine start operation `k` on region `r` at once, and is the memory it needs resident? -/
def canBl (s : State) (k r : Nat) : Option (Bool × Bool) := (s.regDesc 0 r).map (fun d => (s.blReady 0 0 k r d, (s.blAbsent 0 0 ⟨k, r⟩ d).isEmpty))

theorem test_blotter : [(1, 2), (2, 0), (3, 1), (4, 0), (5, 0), (6, 0)].all (fun e => canBl upBl e.1 e.2 == some (true, true)) = true ∧
    upBl.region 0 2 = none ∧ (upBl.region 0 0).map Region.state = some 1 ∧ (upBl.region 0 1).map (fun g => (g.state, g.blocks)) = some (2, []) := by
  decide +kernel

theorem test_blotter_stalls : canBl upBlPage 5 0 = some (true, false) := by
  decide +kernel

theorem test_blotterFill_good : ((upBl.regDesc 0 1).map (fun d => (upBl.blFillGo 0 0 1 d).2)) = some false := by decide +kernel

theorem test_blotterFold_good : ((upBl.regDesc 0 0).map (fun d => (upBl.blFoldGo 0 0 0 d).2)) = some false := by decide +kernel

theorem test_blotterOpen : ((after (.blotterOpen 0 2) upBl).region 0 2).map (fun g => (g.state, g.blocks)) = some (1, [0]) ∧
    ((after (.blotterClose 0 0) upBl).region 0 0).map (fun g => (g.state, g.blocks)) = some (0, []) := by decide +kernel

/-- A running task of tile 0 names region 0. -/
def upBlHeld : State :=
  { upBl with sch := [(0, { SchP.init with tasks := [(0, { task0 .running with d := { (task0 .running).d with regions := [0, 0xFFFF] } })] })] }

theorem test_blotter_held : [1, 2, 3, 4, 5, 6].all (fun k => upBlHeld.blHeld 0 0 ⟨k, 0⟩) = true ∧ blOk 0 0 = true ∧ upBlHeld.tilePart 0 = some 0 ∧
    ((after (.blotterDrain 0 0) upBlHeld).tile 0).blQueue = [⟨5, 0⟩] := by decide +kernel

theorem test_blotterOpComplete : (after (.blotterOpen 0 2) upBl).fbit (TIL_BL_STATUS_BUSY 0) = true ∧ ((after (.blotterOpen 0 2) upBl).tile 0).blQueue = [] ∧
    (after (.blotterOpen 0 2) upBl).paused 0 = false ∧ ((after (.blotterOpen 0 2) upBl).tile 0).blStall = none ∧
    (after (.blotterOpen 0 2) upBl).tilePart 0 = some 0 ∧ ((after (.blotterOpen 0 2) upBl).sqp 0).bl = [] ∧
    (after (.blotterOpComplete 0) (after (.blotterOpen 0 2) upBl)).fget (TIL_BL_DONE_COUNT 0) = 1 := by decide +kernel

-- O24: the ligature units ---------------------------------------------------------------------------------------------------------------------------

/-- A table of one tensor of one line at 0x1000: SGD, FP16 gradient at 0x3000 of GC 32, STATE at 0x2000, FLAGS `fl`. The line is the tensor's. -/
def upTen (fl : Nat) : State :=
  (((((((((up.fsets [(LIG_TT_BASE_BASE 0 0, 0x1000 / 128), (LIG_TT_CFG_EPOCH 0 0, 1), (LIG_TT_CFG_COUNT 0 0, 1), (SCH_SQ_EPOCH_EPOCH 0, 1)]
    |> poke 0x1005 1 fl) |> poke 0x1006 2 0x2001) |> poke 0x1008 8 32) |> poke 0x1014 4 1) |> poke 0x1018 8 0x2000) |> poke 0x1020 8 0x3000)
    |> poke 0x1028 2 1) |> poke 0x1060 4 4) |> poke 0x21C8 4 4) |> poke 0x21CC 2 1

def lineAt (s : State) (a n : Nat) : List Byte := (List.range n).map (fun i => s.memByte (a + i))
def entOf (s : State) : List Byte := (s.memGet 0 0x1000 128).getD []
def note0 (n peers : Nat) : LNote := ⟨0, 1, n, peers⟩
def upd0 (s : State) (peers : Nat) (norm : Option (Nat × Nat × Nat)) : LUpd := ⟨note0 5 peers, entOf s, 0x1000, 0, norm, false, true⟩
def withLig (x : LigP) (s : State) : State := { s with lig := [(0, x)] }
def upLig (fl : Nat) : State := upTen fl |> withLig { LigP.init with on := true, notes := [note0 5 0], flag := some false }

theorem test_ligatureUpdateStart : (upLig 0).fbit (PAL_CTRL_ENABLE 0) = false ∧ ((upLig 0).lp 0).past 5 = false ∧ ((upLig 0).lp 0).takes 5 = true ∧
    ((upLig 0).ligEntry 0 (note0 5 0)).2 = some (0x1000, entOf (upTen 0)) ∧ (upLig 0).ligOutside 0 (entOf (upTen 0)) = none ∧
    (upLig 0).plain 0 0x2000 512 0x2000 = true ∧ teLines (entOf (upTen 0)) = 1 ∧ teState (entOf (upTen 0)) = 0x2000 ∧ teFirst (entOf (upTen 0)) = 0 ∧
    ((upLig 0).fget EVT_ADMIN_UNIT_LIG_DISABLE).testBit ((upLig 0).ligUnit 0 0x2000) = false ∧
    leAt (lineAt (upLig 0) 0x2000 512) 0x1C0 4 = 0 ∧ leAt (lineAt (upLig 0) 0x2000 512) 0x1C4 4 = 0 ∧
    leAt (lineAt (upLig 0) 0x2000 512) 0x1CC 2 = 1 ∧ leAt (lineAt (upLig 0) 0x2000 512) 0x1C8 4 = teStep (entOf (upTen 0)) ∧ teStep (entOf (upTen 0)) = 4 ∧
    ((upLig 0).gradLine 0 (entOf (upTen 0)) 0).2.isSome = true ∧
    ((after (.ligatureUpdateStart 0 0) (upLig 0)).lp 0).cur = some 5 := by decide +kernel

theorem test_ligatureUpdateStart_frozen : (teFlags (entOf (upTen 8))).testBit 3 = true ∧ ((upLig 8).ligEntry 0 (note0 5 0)).2 = some (0x1000, entOf (upTen 8)) ∧
    (after (.ligatureUpdateStart 0 0) (upLig 8)).mem = (upLig 8).mem ∧ ((after (.ligatureUpdateStart 0 0) (upLig 8)).lp 0).upds.length = 1 := by decide +kernel

theorem test_normExchangeArrival : (upd0 (upTen 0) (2 ^ 127) none).note.peers = 2 ^ 127 ∧
    mfind ((after (.normExchangeArrival 0 127 0 9) (upTen 0)).lp 0).sums 127 = some 9 ∧
    ((after (.normExchangeArrival 0 127 0 0) (upTen 0 |> withLig { LigP.init with upds := [upd0 (upTen 0) (2 ^ 127) none] })).lp 0).upds.map (·.norm) =
      [some (ligNorm (entOf (upTen 0)) [0, 0])] := by decide +kernel

/-- Step 5 is complete. -/
def upStep : State :=
  upTen 0 |> withLig { LigP.init with on := true, cur := some 5, flag := some false, upds := [upd0 (upTen 0) 0 (some (1, 2, 0x3F800000))] }

theorem test_stepCommit : (upStep.lp 0).complete 5 = true ∧ upStep.fastReduced 0 = true ∧ upStep.plain 0 (0x1000 + 0x54) 28 0x1054 = true ∧
    (after (.stepCommit 0) upStep).fget (LIG_STEP_STEP 0) = 5 ∧ leNat ((List.range 4).map (fun i => (after (.stepCommit 0) upStep).memByte (0x1060 + i))) = 5 ∧
    (after (.stepCommit 0) (upTen 0 |> withLig { LigP.init with on := true, cur := some 5, flag := some false })).fget (LIG_STEP_STEP 0) = 5 := by
  decide +kernel

def upRoll : State := upTen 0 |> withLig { LigP.init with on := true, cur := some 5, flag := some true, rolling := true }

theorem test_rollbackComplete : (upRoll.lp 0).upds = [] ∧ (upRoll.lp 0).notes = [] ∧ (upRoll.lp 0).back = [] ∧ upRoll.fget (LIG_JRNL_USED_USED 0) = 0 ∧
    upRoll.fastReduced 0 = true ∧ (after (.rollbackComplete 0) upRoll).fget (LIG_STEP_STEP 0) = 5 ∧
    (after (.rollbackComplete 0) upRoll).fget (LIG_SKIPS_COUNT 0) = 1 ∧ (after (.rollbackComplete 0) upRoll).fget (LIG_PSTATUS_SKIPPED 0) = 1 := by decide +kernel

/-- A slow-tier list of one record at 0x4000 for step 5, which is past. -/
def slow0 (upd : Option LUpd) : LSlow := ⟨note0 5 0, 0x4000, 1, upd⟩
def upSlowLig : State := upTen 1 |> poke 0x1020 8 0 |> withLig { LigP.init with on := true, last := some 5, slow := [slow0 none] }

theorem test_slowUpdateStart : (upSlowLig.lp 0).past 5 = true ∧ upSlowLig.fatal = false ∧
    (upSlowLig.ligEntry 0 (note0 5 0)).2 = some (0x1000, entOf upSlowLig) ∧ upSlowLig.slowOutside 0 (slow0 none) (entOf upSlowLig) = none ∧
    upSlowLig.plain 0 0x4000 128 0x4000 = true ∧ recLine (lineAt upSlowLig 0x4000 128) = teFirst (entOf upSlowLig) ∧
    bitsAt (teFlags (entOf upSlowLig)) 1 3 = 0 ∧ teStep (entOf upSlowLig) ≠ 5 ∧
    ((after (.slowUpdateStart 0) upSlowLig).lp 0).slow.map (fun w => w.upd.map (·.done)) = [some true] := by decide +kernel

def upSlowEnd : State :=
  upTen 1 |> withLig { LigP.init with on := true, last := some 5, slow := [slow0 (some ⟨note0 5 0, entOf (upTen 1), 0x1000, 0, some (0, 0, 0), true, true⟩)] }

theorem test_slowUpdateComplete : (upSlowEnd.lp 0).slowStep = some 5 ∧
    ((upSlowEnd.lp 0).slow.filter (fun w => w.note.step == 5)).all
      (fun w => match w.upd with | some u => u.frozen && u.done && u.norm.isSome | none => false) = true ∧
    (after (.slowUpdateComplete 0) upSlowEnd).fget (LIG_SLOW_DONE_STEP 0) = 5 := by decide +kernel

-- O25 and O26: tasks, paging, spilling --------------------------------------------------------------------------------------------------------------

/-- A MARKER's descriptor: its waits need nothing, its record is sent at its end. -/
def mark0 : List Byte :=
  [byteOf 2, byteOf 1, byteOf 0, byteOf 1, byteOf 0, byteOf 0xFF, byteOf 0xFF, byteOf 0] ++ leBytes 8 77 ++ leBytes 4 0xFFFFFFFF ++ leBytes 4 0 ++
    leBytes 8 0 ++ leBytes 4 0xFFFFFFFF ++ leBytes 8 0 ++ leBytes 4 0xFFFF ++ List.replicate 16 (byteOf 255) ++ List.replicate 64 (byteOf 0)
def upIn (src : Nat) : State := { upHost with sch := [(0, { SchP.init with inq := [(src, 5, 0, mark0)] })] }

theorem test_taskFetch : (upIn 7).active 0 = true ∧ (upIn 7).stopped = false ∧ (upIn 7).asleep = false ∧ ((upIn 7).sp 0).nextIn = some (7, 5, 0, mark0) ∧
    (upIn 7).fbit (SCH_PCTRL_ENABLE 0) = true ∧ (upIn 7).taskCheck 0 (parseTask mark0) mark0 = ([], 0, none) ∧ (parseTask mark0).model = 0xFF ∧
    ((upIn 8).sp 0).nextIn = some (8, 5, 0, mark0) ∧
    ((after (.taskFetch 0) (upIn 7)).sp 0).tasks.map (fun e => (e.1, e.2.src, e.2.d.taskId)) = [(0, 7, 77)] ∧
    ((after (.taskFetch 0) (upIn 8)).sp 0).tasks.map (fun e => (e.1, e.2.src)) = [(5, 8)] := by decide +kernel

/-- A queued COMPUTE task of step `n` that reads the slow tier, with the watch off. -/
def taskQ (n : Nat) (rdy : Bool) : Task :=
  { task0 .queued with d := { (task0 .queued).d with kind := 1, step := n, slowRead := true, tset := 0xFF, tiles := 1 }, ready := rdy, tiles := [] }
def upQ (k : Task) : State := { upHost with sch := [(0, { SchP.init with tasks := [(9, k)], nextArr := 10 })] }

theorem test_taskReady : (upQ (taskQ 0xFFFFFFFF false)).isReady 0 (taskQ 0xFFFFFFFF false) = true ∧
    (mfind ((after (.taskReady 0 9) (upQ (taskQ 0xFFFFFFFF false))).sp 0).tasks 9).map (·.ready) = some true := by decide +kernel

/-- A MARKER of ring 0 that adds 3 to signal 255, and a PREFETCH of nothing. -/
def task3 (kind : Nat) : Task := { taskQ 0xFFFFFFFF false with d := { (taskQ 0xFFFFFFFF false).d with kind, postSig := 255, postInc := 3 } }

theorem test_taskReady_ends : [2, 3].all (fun k => (upQ (task3 k)).isReady 0 (task3 k) && (task3 k).tiles.isEmpty) = true ∧
    (after (.taskReady 0 9) (upQ (task3 2))).fget (SCH_SIG_VALUE 0 255) = 3 ∧
    ((after (.taskReady 0 9) (upQ (task3 3))).sp 0).tasks = [] := by decide +kernel

def upLag : State := (upQ (taskQ 9 false)).fsets [(LIG_STEP_STEP 0, 8), (LIG_SLOW_DONE_STEP 0, 0)]

theorem test_taskReady_lagging : upLag.isReady 0 (taskQ 9 false) = false ∧ upLag.readyBut4 0 (taskQ 9 false) = true ∧
    (after (.taskReady 0 9) upLag).fget (LIG_PSTATUS_LAGGING 0) = 1 := by decide +kernel

theorem test_schedulingRound : (upQ (taskQ 0 true)).hlqRoom 0 = true ∧ touchPages (taskQ 0 true).rcd = [] ∧ ((upQ (taskQ 0 true)).sp 0).counted = [] := by
  decide +kernel

theorem test_schedulingRound_places : (upQ (taskQ 0 true)).choose 0 (taskQ 0 true) = some [0] ∧
    (mfind ((after (.schedulingRound 0) (upQ (taskQ 0 true))).sp 0).tasks 9).map (fun k => (k.st, k.tiles)) = some (.launching, [0]) := by decide +kernel

theorem test_pageLoadsComplete : (upTask .launching).tilePart 0 = some 0 ∧ recPages (task0 .launching).rcd = [] ∧ (task0 .launching).d.early = false ∧
    (after (.pageLoadsComplete 0) (upTask .launching)).inkRead 0 0 32 = taskWord 0 (task0 .launching).d ∧
    (mfind ((after (.pageLoadsComplete 0) (upTask .launching)).sp 0).tasks 0).map Task.st = some .running := by decide +kernel

/-- An EARLY task that waits for signal 0 to reach 1. -/
def early0 (st : TSt) : Task := { task0 st with d := { (task0 st).d with early := true, w0 := 0, v0 := 1 } }
def upEarly (st : TSt) (done : NSet) : State := { upHost with sch := [(0, { SchP.init with tasks := [(0, { early0 st with done })] })] }

theorem test_pageLoadsComplete_early : (upEarly .launching []).waitsMet 0 (early0 .launching).d = false ∧
    (mfind ((after (.pageLoadsComplete 0) (upEarly .launching [])).sp 0).tasks 0).map Task.st = some .remote := by decide +kernel

theorem test_earlyWaitsMet : ((upEarly .remote [0]).fset (SCH_SIG_VALUE 0 0) 1).waitsMet 0 (early0 .remote).d = true ∧
    (mfind ((after (.earlyWaitsMet 0 0) ((upEarly .remote [0]).fset (SCH_SIG_VALUE 0 0) 1)).sp 0).tasks 0).map Task.st = some .running := by
  decide +kernel

def upPost : State :=
  { upHost with sch := [(0, { SchP.init with tasks := [(0, { task0 .running with d := { (task0 .running).d with postSig := 255, postInc := 3, notify := true } })] })] }
def upBadTask : State := { upHost with sch := [(0, { SchP.init with tasks := [(0, { task0 .running with fault := some (0, 1, 5) })] })] }

theorem test_taskComplete : upPost.ringsDone (task0 .running) = true ∧ (after (.taskComplete 0 0) upPost).fget (SCH_SIG_VALUE 0 255) = 3 ∧
    ((after (.taskComplete 0 0) upPost).hp 0).waiting.length = 1 ∧ ((after (.taskComplete 0 0) upPost).sp 0).tasks = [] := by decide +kernel

/-- Software has aborted one of its rings. -/
def upAborted : State := { upHost with sch := [(0, { SchP.init with tasks := [(0, { task0 .running with aborted := true })] })] }

theorem test_taskComplete_aborted : upAborted.ringsDone (task0 .running) = true ∧ (upAborted.tile 0).blQueue = [] ∧
    ((after (.taskComplete 0 0) upAborted).hp 0).waiting.map (fun r => (leAt r 1 1)) = [1] := by decide +kernel

theorem test_taskComplete_fault : ((after (.taskComplete 0 0) upBadTask).hp 0).waiting.map (fun r => (leAt r 1 1)) = [2] ∧
    ((after (.taskComplete 0 0) upBadTask).sp 0).tasks = [] := by decide +kernel

def upRetry : State := { upHost with sch := [(0, { SchP.init with tasks := [(0, { task0 .retry with bad := some 0x1000 })] })] }

theorem test_taskRetry : upRetry.poisoned (upRetry.loc 0 0x1000) = false ∧
    (mfind ((after (.taskRetry 0 0) upRetry).sp 0).tasks 0).map (fun k => (k.st, k.retried)) = some (.queued, 1) := by decide +kernel

/-- Model 3 of partition 0, being loaded: 2 bytes from host address 0x5000 to 0x6000. -/
def upModel : State :=
  (((((upHost.fset (SCH_MODEL_BASE_BASE 0) (0x1000 / 256) |> poke 0x1060 1 1) |> poke 0x1062 1 1) |> poke 0x1068 8 0x5000) |> poke 0x1070 8 0x6000)
    |> poke 0x1078 8 2)

theorem test_modelLoadComplete : meState (upModel.modelEnt 0 3) = 1 ∧ upModel.hostLost 0 = false ∧ upModel.plain 0 0x6000 2 0x6000 = true ∧
    upModel.plain 0 (upModel.modelAddr 0 3 + 2) 1 0x1062 = true ∧ meDev (upModel.modelEnt 0 3) = 0x6000 ∧
    (after (.modelLoadComplete 0 3 [(0x5000, [byteOf 8, byteOf 9])]) upModel).memByte 0x6001 = byteOf 9 ∧
    (after (.modelLoadComplete 0 3 [(0x5000, [byteOf 8, byteOf 9])]) upModel).memByte 0x1062 = byteOf 2 := by decide +kernel

def tsk (st was : TSt) : Task := { task0 st with was := was, slots := [(0, 0)], saved := if st = .restoring then [(0, ⟨Tile.init, []⟩)] else [] }
def upSpill (st was : TSt) : State := { upHost with sch := [(0, { SchP.init with tasks := [(0, tsk st was)] })] }

theorem test_tileSpillComplete : ((upSpill .spilling .launching).sp 0).tasks.map (fun e => (e.2.st, e.2.done, e.2.slots, e.2.was)) =
      [(.spilling, [], [(0, 0)], .launching)] ∧ (upSpill .spilling .launching).tilePart 0 = some 0 := by decide +kernel

theorem test_restoreComplete : ((upSpill .restoring .running).sp 0).tasks.map (fun e => (e.2.st, e.2.done, e.2.slots, e.2.saved.length)) =
      [(.restoring, [], [(0, 0)], 1)] ∧ (upSpill .restoring .running).tilePart 0 = some 0 ∧ Tile.init.blQueue = [] ∧ Tile.init.blStall.isNone = true := by decide +kernel

theorem test_tileRestore : ((upSpill .spilled .running).nextReady 0).map (·.1) = some 0 ∧ ((upSpill .spilled .running).tile 0).regions = [] ∧
    (upSpill .spilled .running).fbit (TIL_BL_STATUS_BUSY 0) = false := by decide +kernel

/-- Page 0 of the paged window in transit to frame 0; the host's page and the frames lie at 0. -/
def upPage : State :=
  { upHost with sch := [(0, { SchP.init with transit := [(1, 0)], demand := [(0, 2), (0, 3)], frames := [] })] }.fsets
    [(SCH_PAGE_CFG_PAGES 0, 4), (SCH_PAGE_CFG_FRAMES 0, 2), (SCH_PAGE_TABLE_BASE 0, 1), (SCH_PAGE_FRAMES_BASE 0, 4), (SCH_PAGE_HOST_BASE 0, 1)]
    |> poke 0x1018 8 1

theorem test_pageInComplete : mfind (upPage.sp 0).transit 1 = some 0 ∧ upPage.hostLost 0 = false ∧ (upPage.sp 0).tasks = [] ∧
    upPage.connsOf 0 = [] ∧ (upPage.sp 0).counted = [] ∧ upPage.tiles = [] := by decide +kernel

theorem test_demandPageFault : (upPage.sp 0).demand.contains (0, 2) = true ∧ upPage.pageEntry 0 2 % 4 = 0 ∧ upPage.pageEntry 0 3 % 4 = 1 ∧
    upPage.frameFor 0 = some 1 ∧ mfind (upPage.sp 0).frames 1 = none ∧
    mfind ((after (.demandPageFault 0 0 2) upPage).sp 0).transit 2 = some 1 ∧
    ((after (.demandPageFault 0 0 3) upPage).sp 0).counted = [(0, 3)] := by decide +kernel

-- O27: entries of a schedule table -----------------------------------------------------------------------------------------------------------------

/-- upRun with one entry of kind `k`, one template at 0x5000, one transfer at 0x5100, one group at 0x5200 and two members, of which the device is
member `self`. -/
def upEnt (k self : Nat) : State :=
  (((((((((((upRun |> poke 0x4040 1 k) |> poke 0x400C 4 0x10001) |> poke 0x4010 8 0x5000) |> poke 0x4018 8 0x5100) |> poke 0x4020 8 0x5200)
    |> poke 0x4028 2 1) |> poke 0x1008 4 (2 + self * 65536)) |> poke 0x100C 4 0x020101) |> poke 0x5000 1 2) |> poke 0x5030 16 (2 ^ 128 - 1))
    |> poke 0x5102 1 255) |> poke 0x5104 4 16
def hd (s : State) : SHdr := (s.sqHdr 0 0).getD ⟨0, 0, 0, 0, 0, 0, 0, 0, 0, 0, 0, 0, 0, 0⟩
def bt (s : State) : Bunt := (s.bunt 0).getD ⟨0, 0, 0, 0, 0, 0, 0, 0⟩
def en (s : State) : SEnt := parseSEnt ((s.sqEnt 0 0).getD [])
def rels (s : State) (k : Nat) : Bool := s.releases 0 k (hd s) (bt s) 0 (en s) false

theorem test_sqTask : rels (upEnt 1 0) 1 = true ∧ ((upEnt 1 0).sqItem 0 (hd (upEnt 1 0)) (en (upEnt 1 0))).isSome = true ∧
    ((after (.sqTask 0) (upEnt 1 0)).sp 0).inq.map (fun q => (q.1, (parseTask q.2.2.2).taskId)) = [(8, 0)] := by decide +kernel

def upXfer : State := upEnt 2 0 |> poke 0x5100 2 1

theorem test_sqXfer : rels upXfer 2 = true ∧ (upXfer.sqItem 0 (hd upXfer) (en upXfer)).isSome = true ∧
    (after (.sqXfer 0) upXfer).zt.int.map (·.bytes) = [16] := by decide +kernel

theorem test_sqDrain : rels (upEnt 3 0) 3 = true ∧ ((after (.sqDrain 0) (upEnt 3 0)).sqp 0).fin = [0] := by decide +kernel

theorem test_sqFold : rels (upEnt 4 0) 4 = true ∧ ((after (.sqFold 0) (upEnt 4 0)).sqp 0).fin = [0] := by decide +kernel

/-- The template names region 0, resident in a block of tile 0, whose engine is busy. -/
def upFold (k : Nat) : State :=
  { upEnt k 0 with tiles := [(0, { Tile.init with regions := [(0, ⟨7, 1, 0, [5], false, 0⟩)] })] }.fset (TIL_BL_STATUS_BUSY 0) 1 |> poke 0x5030 2 0

theorem test_sqDrain_region : rels (upFold 3) 3 = true ∧ (upFold 3).regionTile 0 0 = some 0 ∧ (upFold 3).tilePart 0 = some 0 ∧
    (upFold 3).regionBusy 0 0 = false ∧ (upFold 3).fbit (TIL_BL_STATUS_BUSY 0) = true ∧
    ((after (.sqDrain 0) (upFold 3)).sqp 0).bl = [(0, 0, 5, 0)] := by decide +kernel

/-- Region 0 is a FOLD_SOURCE. -/
def upSource : State := (upFold 3).fset (SCH_REGION_BASE_BASE 0) (0x1800 / 64) |> poke 0x1800 64 (regD0 0 1 0 0x10000)

theorem test_sqDrain_source : rels upSource 3 = true ∧ (upSource.regDesc 0 0).any RegD.source = true ∧
    ((after (.sqDrain 0) upSource).sqp 0).fin = [0] := by decide +kernel

theorem test_sqFold_region : rels (upFold 4) 4 = true ∧ (upFold 4).regionTile 0 0 = some 0 ∧
    ((after (.sqFold 0) (upFold 4)).tile 0).blQueue = [⟨4, 0⟩] := by decide +kernel

/-- A tensor of 32 elements, its source at 0x6000 and its GRAD_BASE at 0x7000, in a group of the device alone. -/
def upReduce : State :=
  (((((((upEnt 5 0).fsets [(LIG_TT_BASE_BASE 0 0, 0x2000 / 128), (LIG_TT_CFG_EPOCH 0 0, 1), (LIG_TT_CFG_COUNT 0 0, 1)] |> poke 0x5204 1 1)
    |> poke 0x5208 1 1) |> poke 0x5218 8 0x6000) |> poke 0x5228 8 32) |> poke 0x2020 8 0x7000) |> poke 0x6000 4 0x3C004000)

theorem test_sqReduce : rels upReduce 5 = true ∧ (upReduce.sqItem 0 (hd upReduce) (en upReduce)).map (fun g => (gSlow g, gMembers g, gLines g, (leAt g 5 1).testBit 1)) =
      some (false, [0], 1, false) ∧ upReduce.gradBase 0 (hd upReduce).epoch 0 = some 0x7000 ∧
    (upReduce.sqItem 0 (hd upReduce) (en upReduce)).map gSrc = some 0x6000 ∧
    upReduce.plain 0 0x6000 512 0x6000 = true ∧ upReduce.plain 0 0x7000 64 0x7000 = true ∧
    (after (.sqReduce 0) upReduce).memByte 0x7001 = byteOf 0x40 ∧ ((after (.sqReduce 0) upReduce).lp 0).notes.length = 1 := by decide +kernel

theorem test_sqClose : rels (upEnt 6 1) 6 = true ∧ (bt (upEnt 6 1)).self ≠ 0 := by decide +kernel

theorem test_sqMark : rels (upEnt 7 0) 7 = true ∧ (en (upEnt 7 0)).ps < 31 ∧ (after (.sqMark 0) (upEnt 7 0)).fget (SCH_SIG_VALUE 0 (bankSig 0 0)) = 1 := by
  decide +kernel

-- O28: arrivals at the sequencer -------------------------------------------------------------------------------------------------------------------

def upJoin : State := ((((upEnt 6 0 |> poke 0x1040 8 9) |> poke 0x2020 8 7) |> poke 0x2028 8 9) |> poke 0x2030 2 1)

theorem test_joinRecordArrival : upJoin.bunt 0 = some ⟨7, 2, 0, 1, 1, 2, 0x2000, 0x3000⟩ ∧
    (upJoin.memGet 0 0x2020 32).map (fun r => (leAt r 0 8, leAt r 8 8, leAt r 0x10 2)) = some (7, 9, 1) ∧ leAt (upJoin.buntEnt 0 1) 0 8 = 9 ∧
    (after (.joinRecordArrival 0 1) upJoin).fget (SCH_SQ_STATUS_JOINED 0) = 1 := by decide +kernel

/-- A group of two members; slow or not. -/
def upGroup (fl : Nat) : State := (upReduce |> poke 0x5208 1 3) |> poke 0x5205 1 fl
def upRel (s : State) : State := s.setSqp 0 { s.sqp 0 with rel := [0] }
def redOk (s : State) : Bool := (s.arrivalGroup 0 0 0).any (fun x => x.1 == hd s && x.2.1 == bt s && (gMembers x.2.2).length == 2 && (gMembers x.2.2).getD 1 0 == 1)

theorem test_reduceSegmentArrival : redOk (upGroup 0) = true ∧ ((upGroup 0).red 0 0 0).summed = false ∧ (sins ((upGroup 0).red 0 0 0).conts 1).length = 1 ∧
    ((upGroup 0).sqp 0).rel = [] ∧ ((after (.reduceSegmentArrival 0 0 0 1) (upGroup 0)).red 0 0 0).conts = [1] := by decide +kernel

def upResult : State := (upRel (upGroup 0)).setRed 0 0 0 ⟨0, [0, 1], [0], true, [], []⟩

theorem test_reduceResultArrival : redOk upResult = true ∧ (upResult.sqp 0).rel = [0] ∧ (upResult.sqp 0).fin = [] ∧
    (sins (upResult.red 0 0 0).results 1).length = 2 ∧ ((after (.reduceResultArrival 0 0 0 1) upResult).sqp 0).fin = [0] := by decide +kernel

theorem test_slowRecordArrival : redOk (upGroup 1) = true ∧ ((upGroup 1).sqp 0).rel = [] ∧
    (mins ((upGroup 1).red 0 0 0).recsIn 1 [bytesAt [byteOf 5] 0 128]).length ≠ 2 ∧
    ((after (.slowRecordArrival 0 0 0 1 false [[byteOf 5]]) (upGroup 1)).red 0 0 0).recsIn.map (·.1) = [1] ∧
    ((after (.slowRecordArrival 0 0 0 1 true [[byteOf 5]]) (upGroup 1)).red 0 0 0).recsSum.map (·.1) = [1] := by decide +kernel

theorem test_frequencyReportArrival : (upEnt 6 0).bunt 0 = some ⟨7, 2, 0, 1, 1, 2, 0x2000, 0x3000⟩ ∧ ((upEnt 6 0).sqp 0).decided = false ∧
    ((upEnt 6 0).sqp 0).reports = [] ∧ ((upEnt 6 0).sqp 0).closes = [] ∧
    ((after (.closeRecordArrival 0 1 1) (upEnt 6 0)).sqp 0).closes = [129] ∧
    ((after (.frequencyReportArrival 0 0 1) ((upEnt 6 0).setSqp 0 { (upEnt 6 0).sqp 0 with reports := [0] })).sqp 0).decided = true := by decide +kernel

def upComb : State := upEnt 6 0 |> poke 0x3004 2 0xFFFF

theorem test_combinedRecordArrival : (upComb.sqp 0).combined = none ∧ upComb.fbit (SCH_SQ_STATUS_RUNNING 0) = true ∧
    (upComb.memGet 0 0x3000 (upComb.closeLen 0)).map (fun r => (leAt r 0 4, leAt r 4 2, (leAt r 6 2).testBit 0)) = some (0, 0xFFFF, false) ∧
    upComb.sqStep 0 = 0 ∧ upComb.fbit (SCH_NW_PCTRL_ENABLE 0) = false ∧ (upComb.lp 0).past 0 = false ∧ (upComb.lp 0).flag = none ∧
    (upComb.lp 0).upds = [] ∧ ((after (.combinedRecordArrival 0) upComb).lp 0).cur = some 0 := by decide +kernel

def upStepEnd : State := upRun.setSqp 0 { upRun.sqp 0 with fin := [0], combined := some false }

theorem test_stepEnd : upStepEnd.sqLive 0 = true ∧ upStepEnd.sqHdr 0 0 = some (hd upRun) ∧ upStepEnd.stepOver 0 (hd upRun) = true ∧
    (upStepEnd.sqp 0).agreed = none ∧ (after (.stepEnd 0) upStepEnd).fget (SCH_SQ_STEP_STEP 0) = 1 := by decide +kernel

/-- The table of slot 1 at 0x4800 serves epoch 2. -/
def upMig : State :=
  (((upRun.fsets [(SCH_SQ_TABLE_BASE 0 1, 0x4800 / 64), (SCH_SQ_STATUS_MIGRATING 0, 1), (SCH_SQ_NEXT_SLOT 0, 1), (SCH_SQ_NEXT_EPOCH 0, 2)]
    |> poke 0x4800 2 2) |> poke 0x4804 4 0x10001) |> poke 0x4808 4 1).setSqp 0 { upRun.sqp 0 with slowMig := true }

theorem test_migrationComplete : upMig.switchTo 0 = (1, 2) ∧ upMig.fbit (SCH_SQ_STATUS_MIGRATING 0) = true ∧ (upMig.sqp 0).missing = [] ∧ (upMig.sqp 0).toSend = [] ∧ (upMig.sqp 0).slowMig = true ∧ upMig.fbit (SCH_SQ_STATUS_HALTED 0) = false ∧ (upMig.sqHdrCheck 0 1 2).1 = 0 ∧
    upMig.fbit (PAL_CTRL_ENABLE 0) = false ∧ (after (.migrationComplete 0) upMig).fget (SCH_SQ_EPOCH_EPOCH 0) = 2 ∧
    (after (.migrationComplete 0) upMig).fget (SCH_SQ_STEP_STEP 0) = 1 := by decide +kernel

def upIdle : State := upRun |> poke 0x404C 4 5

theorem test_seqStall : upIdle.fbit (SCH_SQ_CTRL_ENABLE 0) = true ∧ upIdle.fbit (SCH_SQ_STATUS_RUNNING 0) = true ∧ upIdle.sqReleasable 0 = false ∧
    (upIdle.sp 0).tasks = [] ∧ (after (.seqStall 0) upIdle).fget (SCH_SQ_STATUS_STALLED 0) = 1 := by decide +kernel

-- O29: digests, repairs, verification ---------------------------------------------------------------------------------------------------------------

/-- SHAKE256 of 512 zero bytes, as its standard gives it: the hash of a line of zeros. -/
theorem test_lineHash : lineHash (List.replicate 512 0) = 112690733220352626862074694500112748851 := by decide +kernel

/-- The tensor of one line at 0x2000, a digest table at 0x8000 and an exchange area at 0xA000; two replicas, of which this is replica 0. -/
def upDig (x : PalP) : State :=
  (((({ upTen 0 with pal := [(0, x)] }.fsets
    [(PAL_DIGEST_BASE_BASE 0, 0x8000 / 64), (PAL_XCHG_BASE_BASE 0, 0xA000 / 512), (PAL_CTRL_ENABLE 0, 1), (SCH_SQ_BUNTING_BASE 0, 0x6000 / 32)]
    |> poke 0x6008 4 2) |> poke 0x600C 4 0x020101) |> poke 0xA208 4 1) |> poke 0xA230 1 3)
def ten0 : List Byte := entOf (upTen 0)

theorem test_sealComplete_here : ((upDig { PalP.init with sealing := true }).pp 0).takeover = false ∧
    ((upDig { PalP.init with sealing := true }).pp 0).thenReseed = false := by decide +kernel

theorem test_sealComplete : ((upDig { PalP.init with sealing := true }).tensors 0 ((upDig { PalP.init with sealing := true }).epochNow 0)) = [(0, ten0)] ∧
    teLines ten0 = 1 ∧ teSlow ten0 = false ∧ (upDig { PalP.init with sealing := true }).plain 0 (teState ten0) 512 0x2000 = true ∧
    (upDig { PalP.init with sealing := true }).plain 0 ((upDig { PalP.init with sealing := true }).digestAddr 0 0) 64 0x8000 = true ∧
    (linePieces ((upDig { PalP.init with sealing := true }).digestAddr 0 0)
      (64 * (((upDig { PalP.init with sealing := true }).tensorTable 0 ((upDig { PalP.init with sealing := true }).epochNow 0)).map (·.2)).getD 0)).all
      (fun pc => !(upDig { PalP.init with sealing := true }).poisoned ((upDig { PalP.init with sealing := true }).loc 0 (pc.1 / 512 * 512))) = true := by
  decide +kernel

/-- A verification of step 4 that has tensor 0 left. -/
def ver0 (d : Bool) (l : NSet) : PalV := ⟨4, d, l, 0, false, false, false, false, []⟩
def upVer (msgs : NMap (List (Nat × Nat))) : State := upDig { PalP.init with fast := some (ver0 false [0]), msgs := msgs }

theorem test_digestMessageArrival : (upVer []).bunt 0 = some ⟨0, 2, 0, 1, 1, 2, 0, 0⟩ ∧ ((⟨0, 2, 0, 1, 1, 2, 0, 0⟩ : Bunt).coord 0).2.1 = 0 ∧
    (upVer []).fbit (PAL_CTRL_ENABLE 0) = true ∧ ((upVer []).pp 0).msgs = [] ∧
    ((after (.digestMessageArrival 0 1 4 false) (upVer [])).pp 0).msgs = [(1, [(0, 3)])] := by decide +kernel

theorem test_digestMessageArrival_last : mfind (upVer [(msgKey false 4 0, [(0, 3)])] |>.digestItems 0 false 1) 0 = some 3 ∧
    (upVer []).plain 0 ((upVer []).digestAddr 0 0 + 0x30) 1 0x8030 = true ∧
    (after (.digestMessageArrival 0 1 4 false) (upVer [(msgKey false 4 0, [(0, 3)])])).memByte 0x8030 = 1 := by decide +kernel

theorem test_repairRequest : ((upDig PalP.init).tensorEnt 0 ((upDig PalP.init).epochNow 0) 0).map (·.2) = some ten0 ∧
    ((upDig { PalP.init with slots := [(0, { MSlot.init with moving := [(1, false, 2)] })] }).mslot 0 0).moving ≠ [] ∧
    ((after (.repairRequest 0 (some 0) 9 0 false) (upDig { PalP.init with slots := [(0, { MSlot.init with moving := [(1, false, 2)] })] })).mslot 0 0).waits =
      [(9, 0)] := by decide +kernel

/-- A record of KIND `k` of line 0 of tensor 0, whose line is zeros. -/
def rec0 (k seq : Nat) : List Byte := palRecord k false 0 seq 4 1 32 0 0 112690733220352626862074694500112748851 (List.replicate 400 0)

theorem test_zeroRecord (k q : Nat) (h : k = 6 ∧ q = 0 ∨ k = 1 ∧ q = 0 ∨ k = 7 ∧ q = 0) :
    lineHash (lineOf (bytesAt (rec0 k q) 48 400)) = leAt (rec0 k q) 0x20 16 := by
  have : lineOf (bytesAt (rec0 k q) 48 400) = List.replicate 512 0 ∧ leAt (rec0 k q) 0x20 16 = 112690733220352626862074694500112748851 := by
    obtain ⟨rfl, rfl⟩ | ⟨rfl, rfl⟩ | ⟨rfl, rfl⟩ := h <;> decide +kernel
  rw [this.1, this.2, test_lineHash]

def upFix : State := upDig { PalP.init with fix := [(0, ⟨0, false, [0], false⟩)] }
def upNoPal : State := (upDig PalP.init).fset (PAL_CTRL_ENABLE 0) 0

theorem test_repairRecord_entry : leAt (rec0 3 0) 0 1 = 3 ∧ (upFix.tensorEnt 0 (upFix.epochNow 0) (leAt (rec0 3 0) 0x10 4)) = some (0x1000, ten0) ∧
    (upFix.pp 0).fix = [(0, ⟨0, false, [0], false⟩)] ∧ upFix.plain 0 0x1054 28 0x1054 = true ∧
    ((after (.repairRecord 0 (rec0 3 0)) upFix).pp 0).fix = [(0, ⟨0, false, [0], true⟩)] := by decide +kernel

/-- The same record in a rebuild from the mirror, which is not behind. -/
def upFixM : State := upDig { PalP.init with fix := [(0, ⟨2, false, [0], false⟩)] }

theorem test_repairRecord_mirror : upFixM.mirrorBehind 0 (leAt (rec0 3 0) 8 4) false = false ∧ upFixM.plain 0 0x1054 28 0x1054 = true ∧
    ((after (.repairRecord 0 (rec0 3 0)) upFixM).pp 0).fix = [(0, ⟨2, false, [0], true⟩)] := by decide +kernel

theorem test_repairRecord_line : leAt (rec0 6 0) 0 1 = 6 ∧ (upNoPal.tensorEnt 0 (upNoPal.epochNow 0) (leAt (rec0 6 0) 0x10 4)) = some (0x1000, ten0) ∧
    teFirst ten0 = 0 ∧ leAt (rec0 6 0) 0x14 4 = 0 ∧ (upNoPal.pp 0).fix = [] ∧ upNoPal.fbit (PAL_CTRL_ENABLE 0) = false ∧
    upNoPal.plain 0 (teLineAddr ten0 0) 512 0x2000 = true := by decide +kernel

def upVerified : State := upDig { PalP.init with fast := some (ver0 true []) }

theorem test_stepVerified : upVerified.scrubDue 0 false (ver0 true []) = false ∧ upVerified.mirror 0 = 0 ∧ upVerified.tier 0 false = [(0, ten0)] ∧
    upVerified.plain 0 (upVerified.digestAddr 0 0) 64 0x8000 = true ∧
    (after (.stepVerified 0 false) upVerified).fget (PAL_VERIFIED_STEP 0) = 4 ∧ ((after (.stepVerified 0 false) upVerified).pp 0).fast = none := by
  decide +kernel

/-- Line 0 is dirty; connection 3 leads to a mirror. -/
def upDirty : State :=
  (upDig PalP.init).fsets [(PAL_CTRL_MIRROR 0, 2), (PAL_MIRROR_CONN_CONN 0, 3), (PAL_DIRTY_BASE_BASE 0, 0xC000 / 512)] |> poke 0xC000 1 1

theorem test_dirtyScanSend : upDirty.streamRoom 0 0 0 8 = true ∧ upDirty.shardLines 0 = 1 ∧ (upDirty.pp 0).next = 0 ∧ (upDirty.pp 0).late = [] ∧ (upDirty.pp 0).describe = [] ∧
    (upDirty.pp 0).sealing = false ∧ ahead 32 0 (upDirty.pp 0).applied < 2 ^ 31 ∧ upDirty.dirty 0 0 = true ∧
    upDirty.mirror 0 = 2 ∧ upDirty.fbit (PAL_CTRL_ENABLE 0) = true ∧
    upDirty.plain 0 (upDirty.fget (PAL_DIRTY_BASE_BASE 0) * 512) 1 0xC000 = true ∧
    (upDirty.setDirty 0 0 false).tensors 0 (upDirty.epochNow 0) = [(0, ten0)] ∧ upDirty.plain 0 (teState ten0) 512 0x2000 = true := by decide +kernel

-- O30: mirrors, migration, rebuilding, takeover -------------------------------------------------------------------------------------------------------

/-- Mirror slot 0 on connection 3: DESC at 0x8000, LOG of 8 slots at 0x9000, BASE of 4 lines at 0xA000. -/
def upMs (m : MSlot) : State :=
  { upTen 0 with pal := [(0, { PalP.init with slots := [(0, m)] })] }.fsets
    [(PAL_MS_CONN_CONN 0 0, 3), (PAL_MS_STATUS_STATE 0 0, 1), (PAL_MS_DESC_BASE 0 0, 0x8000 / 64), (PAL_MS_LOG_BASE 0 0, 0x9000 / 64),
     (PAL_MS_BASE_BASE 0 0, 0xA000 / 512), (PAL_MS_SIZE_LOG_SLOTS 0 0, 8), (PAL_MS_SIZE_BASE_LINES 0 0, 4)] |> poke 0x8004 4 1
def slotD : MSlot := { MSlot.init with lines := 1, desc := [0] }

theorem test_mirrorLine : (upMs slotD).msTakes 0 0 = true ∧
    ((upMs slotD).msLine 0 0 (leAt (rec0 1 0) 0x10 4) (leAt (rec0 1 0) 0x14 4)) = some 0xA000 ∧ leAt (rec0 1 0) 4 4 = 0 ∧
    (upMs slotD).fget (PAL_MS_LOG_BASE 0 0) * 64 = 0x9000 ∧ (upMs slotD).inSpace 0 0x9000 448 = true ∧
    (upMs slotD).plain 0 0x9000 448 0x9000 = true := by decide +kernel

theorem test_mirrorEntry : (upMs slotD).plain 0 0x9000 80 0x9000 = true ∧
    ((after (.mirrorEntry 0 0 (rec0 3 0)) (upMs slotD)).mslot 0 0).recs = [(0, 3, false)] := by decide +kernel

theorem test_mirrorDescribe : (upMs MSlot.init).fget (PAL_MS_CONN_CONN 0 0) ≠ 0xFFFFFFFF ∧ leAt (rec0 2 0) 4 4 = 0 ∧ leAt (rec0 2 0) 48 4 = 0 ∧
    (upMs MSlot.init).inSpace 0 ((upMs MSlot.init).msDesc 0 0 0) 64 = true ∧ (upMs MSlot.init).msOut 0 0 = none ∧
    ((after (.mirrorDescribe 0 0 (rec0 2 0)) (upMs MSlot.init)).mslot 0 0).desc = [0] := by decide +kernel

theorem test_mirrorCommit : (leAt (rec0 4 5) 1 1).testBit 0 = false ∧
    ((after (.mirrorCommit 0 0 (rec0 4 5)) (upMs slotD)).mslot 0 0).commit = some 5 ∧
    ((after (.mirrorCommit 0 0 (rec0 4 5)) (upMs slotD)).mslot 0 0).cstep = some 4 ∧
    ((after (.mirrorVerify 0 0 (rec0 5 6)) (upMs slotD)).mslot 0 0).moving = [(6, false, 4)] := by decide +kernel

def upMove (recs : List (Nat × Nat × Bool)) : State :=
  upMs { slotD with moving := [(6, false, 4)], recs := recs } |> poke 0x9030 1 7

theorem test_logMoveComplete : (upMove []).fget (PAL_MS_STATUS_STATE 0 0) = 1 ∧ (after (.logMoveComplete 0 0) (upMove [])).fget (PAL_MS_VSTEP_STEP 0 0) = 4 ∧
    0 < ahead 32 6 0 ∧ ahead 32 (0 + 1) ((upMove []).fget (PAL_MS_APPLIED_SEQ 0 0)) < 2 ^ 31 ∧ ahead 32 6 0 < 2 ^ 31 ∧ (upMove [(0, 1, false)]).plain 0 0x9000 448 0x9000 = true ∧
    (upMove [(0, 1, false)]).msLine 0 0 0 0 = some 0xA000 ∧ (upMove [(0, 1, false)]).plain 0 0xA000 512 0xA000 = true ∧
    (after (.logMoveComplete 0 0) (upMove [(0, 1, false)])).memByte 0xA000 = 7 ∧
    (after (.logMoveComplete 0 0) (upMove [(0, 1, false)])).fget (PAL_MS_APPLIED_SEQ 0 0) = 1 := by decide +kernel

def upMigr : State := (upTen 0).fset (SCH_SQ_NEXT_EPOCH 0) 1

theorem test_migrateRecord : (upMigr.switchTo 0).2 = 1 ∧ upMigr.fbit (PAL_CTRL_ENABLE 0) = false ∧ leAt (rec0 7 0) 0 1 = 7 ∧
    upMigr.shardLine 0 1 (leAt (rec0 7 0) 0x10 4) (leAt (rec0 7 0) 0x14 4) = some (0x2000, ten0) ∧ upMigr.plain 0 0x2000 512 0x2000 = true := by decide +kernel

/-- Line 0 of tensor 0 is lost, and connection 3 leads to its mirror. -/
def upLost : State :=
  { upTen 0 with poison := [0x2000 / 512] }.fsets [(PAL_CTRL_MIRROR 0, 2), (PAL_MIRROR_CONN_CONN 0, 3)]

theorem test_lineRebuild : upLost.loc 0 0x2000 = .mem 0 0x2000 0x2000 ∧ upLost.closed (.mem 0 0x2000 0x2000) = false ∧ upLost.lineBad 0 0x2000 0x2000 = true ∧
    upLost.bias 0 0x2000 = 0 ∧ upLost.scrubs 0 = false ∧ upLost.lineAt 0 0x2000 = some (0, ten0, leAt (rec0 1 0) 0x14 4) ∧ leAt (rec0 1 0) 0x10 4 = 0 ∧
    leAt (rec0 1 0) 8 4 = teStep ten0 ∧ upLost.mirrored 0 = true ∧ upLost.fbit (PAL_CTRL_ENABLE 0) = false := by decide +kernel

/-- A spare on standby that has the bunting's table. -/
def upSpare : State :=
  ((up.fsets [(PAL_CTRL_STANDBY 0, 1), (SCH_SQ_BUNTING_BASE 0, 0x6000 / 32)] |> poke 0x6008 4 0x30002) |> poke 0x600C 4 0x020101)
def notice : List Byte := leBytes 8 0 ++ leBytes 2 1 ++ leBytes 4 0 ++ leBytes 2 0xFFFF ++ List.replicate 16 0

theorem test_takeoverNotice : upSpare.bunt 0 = some ⟨0, 2, 3, 1, 1, 2, 0, 0⟩ ∧ upSpare.plain 0 (upSpare.buntBase 0 + 0xA) 2 0x600A = true ∧
    (upSpare.takeoverNotice 0 notice).bunt 0 = some ⟨0, 2, 1, 1, 1, 2, 0, 0⟩ ∧
    ((List.range 2).all (fun m => (upSpare.takeoverNotice 0 notice).memberConn 0 m == upSpare.memberConn 0 m)) = true ∧
    (after (.takeoverNotice 0 notice) upSpare).fget (PAL_STATUS_TAKEN_OVER 0) = 1 := by decide +kernel

def upTaken : State := (upTen 0).fset (PAL_STATUS_TAKEN_OVER 0) 1

theorem test_spareStateRequest : upTaken.tensors 0 (upTaken.epochNow 0) = [(0, ten0)] ∧
    ((after (.spareStateRequest 0 (some 3)) upTaken).pp 0).fix = [(0, ⟨2, false, [0], false⟩)] := by decide +kernel

-- O31: channels --------------------------------------------------------------------------------------------------------------------------------------

/-- Two channels of partition 0 in service, with the states `a` and `b`. -/
def upCh (a b : Nat) (job : Option Nat) (ues : List (Nat × Nat)) : State :=
  { up with hbm := { up.hbm with chan := [(0, ⟨a, 0, 0, 1⟩), (1, ⟨b, 0, 1, 1⟩)], own := [(0, ⟨[0, 1], [], 1, 2⟩)], mapJob := job, ues := [(0, ues)] } }

theorem test_channels : (upCh 0 0 none []).chanOk 0 = true ∧ (upCh 0 0 none []).fget HBM_CTRL_SCRUB_HOURS ≠ 0 ∧
    mget 0 (after (.patrolScrub 0 none) (upCh 0 0 none [])).hbm.scrub 0 = 1 ∧ mget 0 (after (.patrolScrub 0 (some 0)) (upCh 0 0 none [])).hbm.scrub 0 = 1 ∧
    ((after (.channelTrainingLoss 0) (upCh 0 0 none [])).chan 0).state = 4 ∧ ((after (.retrainResult 0 true) (upCh 4 0 none [])).chan 0).state = 0 ∧
    ((after (.retrainResult 0 false) (upCh 4 0 none [])).chan 0).state = 3 ∧ ((upCh 0 0 none []).owner 0).map (·.cur) = some 2 ∧
    (upCh 0 0 none []).tagOf 0 5 = 1 ∧ (after (.rekeyPage 0 5 []) (upCh 0 0 none [])).tagOf 0 5 = 2 := by decide +kernel

/-- The gate of stack 0 is off. -/
def upGate : State := (upCh 0 0 none []).fset (CLK_EN_EN 0) 0xFFFFFEFF

theorem test_channels_off : upGate.gateOn 8 = false ∧ (upCh 0 0 none []).gateOn 8 = true ∧ after (.patrolScrub 0 (some 0)) upGate = upGate ∧
    after (.channelTrainingLoss 0) upGate = upGate ∧ (upCh 0 0 none []).gateOn 6 = true ∧ (upCh 0 0 none []).asleep = false ∧
    ((upCh 0 0 none []).fset PWR_FURL_STATE 2).asleep = true ∧ ((upCh 0 0 none []).fset (CLK_EN_EN 0) 0xFFFFFFBF).gateOn 6 = false ∧
    after (.patrolScrub 0 (some 0)) ((upCh 0 0 none []).fset PWR_FURL_STATE 2) = (upCh 0 0 none []).fset PWR_FURL_STATE 2 := by decide +kernel

def ues0 : List (Nat × Nat) := (List.range 64).map (fun i => (i, 0))

theorem test_ueLimitReached : max 1 ((upCh 0 0 none ues0).fget HBM_CTRL_UE_LIMIT) ≤ 64 ∧ (ues0.foldl (fun a x => sins a x.1) []).length = 64 ∧
    ((after (.ueLimitReached 0) (upCh 0 0 none ues0)).chan 0).state = 3 := by decide +kernel

theorem test_channelMapOut : (upCh 3 0 none []).mapNext = some 0 ∧ ((upCh 3 0 none []).owner 0).map (fun w => w.live.length) = some 2 ∧
    (after (.channelMapOut 0) (upCh 3 0 none [])).hbm.mapJob = some 0 := by decide +kernel

theorem test_channelMapOut_refused : (up.setChan 0 ⟨3, 0, 0, 1⟩).mapNext = some 0 ∧ ((up.setChan 0 ⟨3, 0, 0, 1⟩).owner 0).map (fun w => w.live.length) = some 1 ∧
    ((after (.channelMapOut 0) (up.setChan 0 ⟨3, 0, 0, 1⟩)).chan 0).state = 2 := by decide +kernel

theorem test_mapOutSwitch : ((upCh 3 0 (some 0) []).sp 0).tasks = [] ∧ (upCh 3 0 (some 0) []).fbit (SCH_SQ_CTRL_ENABLE 0) = false ∧
    (upCh 3 0 (some 0) []).fbit (PAL_CTRL_ENABLE 0) = false ∧ (upCh 3 0 (some 0) []).fget (PAL_MS_CONN_CONN 0 3) = 0xFFFFFFFF ∧
    ((after .mapOutSwitch (upCh 3 0 (some 0) [])).owner 0).map (·.lost) = some [0] := by decide +kernel

-- O32: Ethernet frames --------------------------------------------------------------------------------------------------------------------------------

/-- Port 0 in one sub-port with its link up; filter entry 0 steers to queue 3. -/
def upEth : State :=
  up.fsets [(ETH_STATUS_MODE 0, 1), (ETH_LINK_UP 0 0, 1), (ETH_FILTER_VALID 0 0, 1), (ETH_FILTER_SUBPORTS 0 0, 1), (ETH_FILTER_QUEUE 0 0, 3),
    (ETH_Q_CFG_ENABLE 0 3, 1), (ETH_Q_CFG_SUBPORT 0 3, 0), (ETH_Q_CFG_CONSUMER 0 3, 0), (ETH_TX_CFG_ENABLE 0 0, 0)]
def upCons : State := upEth.fsets [(ETH_Q_CFG_CONSUMER 0 3, 1), (ETH_FLOW_MODE 0, 0)]
def frame0 : List Byte := List.replicate 6 255 ++ List.replicate 6 0 ++ [0x88, 0xB5] ++ List.replicate 46 7

theorem test_rxFrame : upEth.subThere 0 0 = true ∧ upEth.linkUp 0 0 = true ∧ 60 ≤ frame0.length ∧
    frame0.length + 4 ≤ clamp 1522 16320 (upEth.fget (ETH_CTRL_MAXFRAME 0)) ∧ beAt frame0 12 2 ≠ 0x8808 ∧ beAt frame0 0 6 / 16 ≠ 0x0180C200000 ∧
    upEth.portOff 0 = false ∧ beAt frame0 0 6 = 0xFFFFFFFFFFFF ∧ upEth.subHolder 0 0 = some 0 ∧ upEth.fget (FAB_PART_STATE_P 0) = 1 ∧
    upEth.steer 0 0 (frameInfo frame0) = some (some (0, 3)) ∧ upEth.fget PWR_FURL_STATE = 0 ∧ (frameInfo frame0).tag = none ∧
    upEth.admits 0 0 (upEth.fget (ETH_CTRL_UNTAGGED_PRIO 0)) (ceilDiv (frame0.length + 4) 256) = true ∧
    upEth.fbit (ETH_Q_CFG_EVENT 0 3) = false ∧ upEth.fget (ETH_Q_PTR_HEAD 0 3) = 0 ∧ upEth.fget (ETH_Q_PTR_TAIL 0 3) = 0 ∧
    upEth.fget (ETH_Q_BASE_BASE 0 3) = 0 ∧ upEth.plain 0 0 (64 + frame0.length) 0 = true ∧ upEth.portStop 0 0 0 (64 + frame0.length) = none ∧
    (after (.rxFrame 0 0 frame0 [some 2] false false) upEth).fget (ETH_Q_PTR_HEAD 0 3) = 1 ∧
    (after (.rxFrame 0 0 frame0 [some 2] false false) upEth).memByte 64 = 255 := by decide +kernel

theorem test_rxFrame_zheris : upCons.steer 0 0 (frameInfo frame0) = some (some (0, 3)) ∧
    (after (.rxFrame 0 0 frame0 [some 2] false false) upCons).eth.buf.length = 1 ∧
    (after (.rxFrame 0 0 frame0 [] true false) upCons).fget (ETH_STICKY_FCS_ERR 0) = 1 ∧
    (after (.rxFrame 0 0 frame0 [some 2, none] true false) upCons).fget (ETH_STICKY_FEC_UNCORR 0) = 1 ∧
    mget 0 (after (.rxFrame 0 0 frame0 [some 2, none] true false) upCons).led.fec 2 = 1 := by decide +kernel

/-- Flow control by pause frames, with 9 cells in use against an XOFF of 4. -/
def upPause : State := { upEth with eth := { upEth.eth with buf := [⟨0, 0, 0, 9⟩], xoff := [0] } }.fsets
  [(ETH_FLOW_MODE 0, 1), (ETH_WM_XOFF 0 0 0, 4), (ETH_WM_XON 0 0 0, 2)]

theorem test_pauses : (upPause.flowCounts 0 0).find? (fun e => e.1 == 0) = some (0, 9) ∧ upPause.xonAt 0 0 0 < 9 ∧ upPause.zt.ctx = [] ∧
    (upPause.fget (ETH_STATUS_LPI_TX 0)).testBit 0 = false ∧ upPause.txNow 0 0 = none ∧
    (after (.pauseRefresh 0 0 0) upPause).out.length = 1 ∧ (after (.pauseRefresh 0 0 0) (upPause.fset (ETH_STATUS_LPI_TX 0) 1)).out.length = 0 ∧
    (mget [] (after (.pauseRefresh 0 0 0) (upPause.fset (ETH_STATUS_LPI_TX 0) 1)).eth.wait 0).length = 1 ∧
    (after (.pauseFrameReceived 0 0 false [(0, 5)]) upPause).eth.paused.contains 7 = true ∧
    (after (.pauseExpiry 0 0 7) (after (.pauseFrameReceived 0 0 false [(0, 5)]) upPause)).eth.paused.contains 7 = false := by decide +kernel

theorem test_lldp : mget [] (after (.lldpduReceived 0 0 [byteOf 4] (some 9) (some 3) 120) upEth).eth.lldp 0 = [byteOf 4] ∧
    (after (.lldpduReceived 0 0 [byteOf 4] (some 9) (some 3) 120) upEth).fget (ETH_LINK_PARTNER_EEE 0 0) = 1 ∧
    mget 0 (after (.lldpduReceived 0 0 [byteOf 4] (some 9) (some 3) 120) upEth).eth.frag 0 = 3 ∧
    (after (.lldpTtlExpiry 0 0) (after (.lldpduReceived 0 0 [byteOf 4] (some 9) (some 3) 120) upEth)).eth.lldp = [] ∧
    (after (.lldpTransmit 0 0) upEth).out.length = 1 := by decide +kernel

def upVer1 (n : Nat) : State :=
  { upEth with eth := { upEth.eth with tries := [(0, n)] } }.fsets
    [(ETH_LINK_VERIFY 0 0, 1), (ETH_PREEMPT_ENABLE 0, 1), (ETH_LINK_PARTNER_PREEMPT 0 0, 1), (ETH_PREEMPT_VERIFY_DISABLE 0, 0)]

/-- Port 0 administratively disabled: neither a verify frame nor its answer leaves it (R442). -/
def upPortOff : State := (upVer1 1).fset EVT_ADMIN_UNIT_PORT_DISABLE 1

theorem test_verify_off : upPortOff.portOff 0 = true ∧ (upVer1 1).portOff 0 = false ∧ upPortOff.linkUp 0 0 = true ∧
    after (.verifyFrameReceived 0 0 false) upPortOff = upPortOff := by decide +kernel

theorem test_verify : (after (.verifyFrameReceived 0 0 true) (upVer1 1)).fget (ETH_LINK_VERIFY 0 0) = 2 ∧
    (after (.verifyFrameReceived 0 0 false) (upVer1 1)).out.length = 1 ∧ mget 0 (after (.preemptVerifyTimeout 0 0) (upVer1 1)).eth.tries 0 = 2 ∧
    (after (.preemptVerifyTimeout 0 0) (upVer1 3)).fget (ETH_LINK_VERIFY 0 0) = 3 := by decide +kernel

/-- A raw frame of 20 bytes at HEAD of the transmit ring of sub-port 0. -/
def upTx : State := upEth.fsets [(ETH_TX_CFG_ENABLE 0 0, 1), (ETH_TX_PTR_TAIL 0 0, 1)] |> poke 0 2 20

theorem test_txFrameSent : upTx.subHolder 0 0 = some 0 ∧ upTx.txQueued 0 0 = true ∧ upTx.plain 0 0 2 0 = true ∧
    leNat ((List.range 2).map (fun i => upTx.memByte i)) = 20 ∧ upTx.plain 0 0x40 20 0x40 = true ∧ upTx.inSpace 0 0 2 = true ∧
    upTx.inSpace 0 0x40 20 = true ∧ upTx.canSend 0 0 (upTx.fget (ETH_CTRL_UNTAGGED_PRIO 0)) = true ∧
    mget [] upTx.eth.wait 0 = [] ∧ upTx.txNow 0 0 = none ∧ upTx.portStop 0 0 0 2 = none ∧ upTx.portStop 0 0 0x40 20 = none ∧
    (after (.txFrameSent 0 0) upTx).fget (ETH_TX_PTR_HEAD 0 0) = 1 := by decide +kernel

/-- A raw frame in progress, whole or after one fragment of 64 bytes. -/
def upTxNow (n : Nat) : State := { upTx with eth := { upTx.eth with now := [(0, ⟨List.replicate 200 7, 64 * n, n⟩)] } }.fset (ETH_TX_PTR_TAIL 0 0) 1

theorem test_txFrameSent_rest : (upTxNow 1).txNow 0 0 = some ⟨List.replicate 200 7, 64, 1⟩ ∧
    (after (.txFrameSent 0 0) (upTxNow 1)).out = [.fragment 0 0 1 true (List.replicate 136 7)] ∧
    (after (.txFrameSent 0 0) (upTxNow 0)).out = [.frame 0 0 (List.replicate 200 7)] := by decide +kernel

-- O33: links -------------------------------------------------------------------------------------------------------------------------------------------

def upNoLink : State := upEth.fset (ETH_LINK_UP 0 0) 0

theorem test_linkUp : upNoLink.subThere 0 0 = true ∧ upNoLink.linkUp 0 0 = false ∧ upNoLink.fbit (ETH_CABLE_MODULE_HELD 0) = false ∧
    upNoLink.gen.readyMs.isSome = true ∧ upNoLink.fget PWR_FURL_STATE = 0 ∧ upNoLink.zt.ctx = [] ∧
    (after (.linkUp 0 0 true none) upNoLink).fget (ETH_LINK_UP 0 0) = 1 ∧
    (after (.linkUp 0 0 false none) (upNoLink.fset (ETH_CABLE_MEDIUM 0) 1)).fget (ETH_LINK_UP 0 0) = 0 ∧ (after (.linkDown 0 0) upEth).fget (ETH_LINK_UP 0 0) = 0 := by decide +kernel

/-- A trained link with a cable of its own record, on a port without a module: copper is shown, a medium that needs a module is not (R462). -/
theorem test_linkUp_cable : upNoLink.gen.prsnt.testBit 0 = false ∧ (upNoLink.cableOf 0).fbit (ETH_CABLE_MODULE_HELD 0) = false ∧
    (after (.linkUp 0 0 true (some (1, 30))) upNoLink).fget (ETH_CABLE_MEDIUM 0) = 1 ∧
    (after (.linkUp 0 0 true (some (2, 30))) upNoLink).fget (ETH_CABLE_MEDIUM 0) = 0 ∧
    (after (.linkUp 0 0 true (some (2, 30))) (after (.moduleInsertion 0 2 30 9) upNoLink)).fget (ETH_CABLE_MEDIUM 0) = 2 ∧
    (after (.moduleInsertion 0 0 0 0) (after (.moduleInsertion 0 2 30 9) upNoLink)).fget (ETH_CABLE_MEDIUM 0) = 0 ∧
    (after (.moduleInsertion 0 0 0 0) (after (.moduleInsertion 0 2 30 9) upNoLink)).gen.prsnt.testBit 0 = false := by decide +kernel

theorem test_lpi : (upEth.fset (ETH_LINK_TW_US 0 0) 4).txQueued 0 0 = false ∧ upEth.txNow 0 0 = none ∧ mget [] upEth.eth.wait 0 = [] ∧ upEth.zt.ctx = [] ∧
    (after (.lpiEntry 0 0) (upEth.fset (ETH_LINK_TW_US 0 0) 4)).fget (ETH_STATUS_LPI_TX 0) = 1 ∧
    (after (.lpiExit 0 0) (upEth.fset (ETH_STATUS_LPI_TX 0) 3)).fget (ETH_STATUS_LPI_TX 0) = 2 ∧ upEth.portThere 15 = true ∧
    (after (.moduleInsertion 15 2 30 101) upEth).fget (ETH_CABLE_MODULE_HELD 15) = 1 := by decide +kernel

def upFurl : State := up.fset PWR_FURL_STATE 1

theorem test_furlComplete : upFurl.pwr.prev = [] ∧ upFurl.pwr.wake = false ∧ (∀ j < 16, ∀ k < 4, upFurl.linkUp j k = false) ∧
    (after .furlComplete upFurl).fget PWR_FURL_STATE = 2 := by decide +kernel

-- O34 and O35: Zheris --------------------------------------------------------------------------------------------------------------------------------------

def withConn (c : Conn) : State := { upZ with zt := { upZ.zt with ctx := [(0, c)] } }
def req0 : ZReq := zMsg 0 0 1 (some 0x8000) none [1, 2, 3]
def upReq : State := { withConn (conn0 3) with zt := { upZ.zt with ctx := [(0, conn0 3)], int := [req0] } }

theorem test_ztxSendRequest : upReq.zOn = true ∧ upReq.partConn 0 0 = some (0, conn0 3) ∧ upReq.fatal = false ∧ (conn0 3).resident = true ∧
    (conn0 3).quiet = true ∧ (conn0 3).away = false ∧ ahead 32 (conn0 3).nextSeq (conn0 3).peerDone < 16 ∧ (conn0 3).nextPn < 2 ^ 48 - 1 ∧
    upReq.mayGo 0 (conn0 3) = true ∧ req0.client ≠ 5 ∧ upReq.stopped = false ∧ upReq.zt.int.find? (fun r => r.part == 0 && r.client == 5) = none ∧
    (after (.ztxSendRequest 0 true) upReq).zt.int = [] ∧ (after (.ztxSendRequest 0 true) upReq).out.length = 1 := by decide +kernel

def upNop : State := upZ.fset (ZTX_P_SQ_TAIL_TAIL 0) 1

theorem test_ztxSendRequest_nop : upNop.stopped = false ∧ upNop.fget (ZTX_P_SQ_HEAD_HEAD 0) = 0 ∧ upNop.fget (ZTX_P_SQ_TAIL_TAIL 0) = 1 ∧
    upNop.inSpace 0 0 64 = true ∧ upNop.plain 0 0 64 0 = true ∧ upNop.memByte 0 = 0 ∧
    (after (.ztxSendRequest 0 false) upNop).fget (ZTX_P_SQ_HEAD_HEAD 0) = 1 := by decide +kernel

/-- A packet of type `t` for connection 0, with packet number `pn` and the plain body `body`. -/
def pkt (t pn : Nat) (body : List Byte) : ZPkt := ⟨0, 0, false, leBytes 4 (16 + t) ++ leBytes 4 0 ++ leBytes 6 pn ++ leBytes 2 0, body⟩

/-- It as the peer of connection `c` seals it (R314). -/
def wire (c : Conn) (k : ZPkt) : ZPkt := { k with body := gcmSeal (c.dirKey false).1 (zIv (c.dirKey false).2 (leAt k.header 8 6)) k.header k.body }
def rcd0 : ZRec := ⟨0x1004, 0, 0x4000, 0, 0, 0, false, false, []⟩
def connR : Conn := { conn0 3 with recs := [(0, rcd0)] }
def dat0 : ZPkt := pkt 1 1 (leBytes 4 0 ++ leBytes 4 0x1000 ++ leBytes 4 0x1004 ++ leBytes 4 0 ++ leBytes 8 0x4000 ++ leBytes 8 0 ++ List.replicate 4 9)

theorem test_dataPacket : (withConn connR).arrives (wire connR dat0) dat0.body 1 3 0 connR = true ∧ (withConn connR).alone 0 connR = true ∧
    connR.quiet = true ∧ leAt dat0.header 8 6 ≤ connR.largest + 1 ∧
    (leAt dat0.header 1 1).testBit 0 = false ∧ connR.unacked + 1 < max 1 ((withConn connR).fget ZTX_ACK_CFG_ACK_PKTS) ∧
    (parseData dat0.body).ok connR dat0.body = true ∧ rcd0.agrees (parseData dat0.body) = true ∧ (parseData dat0.body).off / 2 ^ connR.seg = 1 ∧
    segCount connR.seg rcd0.len = 2 ∧ (withConn connR).plain 0 0x5000 4 0x5000 = true ∧ (withConn connR).portStop 0 0 0x5000 4 = none ∧
    (after (.dataPacket (wire connR dat0)) (withConn connR)).memByte 0x5003 = 9 := by decide +kernel

/-- One request of one segment, sent under packet number 1. -/
def connA : Conn :=
  { conn0 3 with reqs := [⟨req0, 1, [0], false, false, false⟩], msgs := [(0, ⟨0, 3, req0, true, [0]⟩)], flight := [(1, (0, 0))], nextSeq := 1, nextPn := 2 }
def ack0 : ZPkt := pkt 2 1 (leBytes 4 1 ++ leBytes 4 1 ++ leBytes 8 0 ++ leBytes 8 1 ++ leBytes 8 1 ++ leBytes 8 0)

theorem test_ackPacket : (withConn connA).arrives (wire connA ack0) ack0.body 2 3 0 connA = true ∧ (withConn connA).alone 0 connA = true ∧
    connA.parts req0 = 1 ∧ connA.late = [] ∧ leAt ack0.body 0x18 1 = 1 ∧ 0x28 ≤ ack0.body.length ∧
    zeroAt ack0.body 0x1A 2 = true ∧ leAt ack0.body 0x19 1 = 0 ∧ leAt ack0.body 0x10 6 = 1 ∧ leAt ack0.body 0x20 4 = 0 ∧
    (mfind (after (.ackPacket (wire connA ack0) 0) (withConn connA)).zt.ctx 0).map (fun c => (c.reqs, c.peerDone)) = some ([], 1) := by decide +kernel

def probe0 : ZPkt := wire (conn0 3) (pkt 3 1 (leBytes 8 0))

theorem test_probePacket : (upC 3).arrives probe0 (leBytes 8 0) 3 3 0 (conn0 3) = true ∧ (conn0 3).tell = [] ∧ (upC 3).mayGo 0 (conn0 3) = true ∧
    (after (.probePacket probe0) (upC 3)).out.length = 1 := by decide +kernel

/-- The same packet with its last byte changed. -/
theorem test_badTag : (conn0 3).opened 1 probe0.header (probe0.body.dropLast ++ [0]) = none ∧
    (after (.probePacket { probe0 with body := probe0.body.dropLast ++ [0] }) (upC 3)).fget ZTX_AUTH_FAIL_COUNT = 1 := by decide +kernel

def close0 : ZPkt := wire (conn0 3) (pkt 4 1 (leBytes 8 1))

theorem test_closePacket : (upC 3).arrives close0 (leBytes 8 1) 4 3 0 (conn0 3) = true ∧ (upC 3).alone 0 (conn0 3) = true ∧ (conn0 3).reqs = [] ∧
    zeroAt (leBytes 8 1) 1 7 = true ∧ (mfind (after (.closePacket close0) (upC 3)).zt.ctx 0).map (·.state) = some 5 := by decide +kernel

/-- A HELLO and a HELLO_ACK of the peer, signed. -/
def hello0 : List Byte := leBytes 4 0 ++ [0, 12, 0, 0] ++ leBytes 8 0x42 ++ List.replicate 32 1
def hello8 : ZPkt := pkt 8 0 (hello0 ++ leBytes 114
  13874415211497680324625382825595332457681427756567754178962770266132596880739636483405748953535580927001654428336574756463995813453441567184157349121605254385837406949273629199373747871210256683275100409584659376685202774376937763840992575300617923579171913888501592558659)
def hello9 : ZPkt := pkt 9 0 (hello0 ++ List.replicate 32 1 ++ leBytes 114
  26960008488078826159210761496633465506062317376283714642768195416344427204397782369450865089440292789552947967336003737844298939136994390282671545257892288204901645758442941844590641780044789672275499583185735794863043125272709702857234225213445159890333661538660792600819)

theorem test_helloPacket : (upC 1).comes hello8 8 1 0 (conn0 1) = true ∧ (upC 1).helloOk (conn0 1) hello8 0x30 = true ∧
    zeroAt hello8.body 6 2 = true ∧ (conn0 1).role ≠ 0 ∧ (conn0 1).quiet = true ∧ (upC 1).fatal = false ∧ (upC 1).fbit SEC_STATUS_RNG_FAULT = false ∧ (upC 1).mayGo 0 (conn0 1) = true := by
  decide +kernel

theorem test_helloAckPacket : (upC 2).comes hello9 9 2 0 (conn0 2) = true ∧ (upC 2).helloOk (conn0 2) hello9 0x50 = true ∧
    (upC 2).alone 0 (conn0 2) = true ∧ bytesAt hello9.body 0x30 32 = (conn0 2).nonceI := by decide +kernel

def connI : Conn := { conn0 2 with desc := patch (conn0 2).desc 0 [0] }

theorem test_setup : (withConn connI).findConn 0 = some (0, connI) ∧ connI.role = 0 ∧ (withConn connI).mayGo 0 connI = true ∧
    (withConn connI).fbit (ZTX_P_FAULT_VALID 0) = false ∧ (after (.helloRepeat 0) (withConn connI)).out.length = 1 ∧
    (after (.setupTimeout 0) (withConn connI)).fget (ZTX_P_FAULT_CODE 0) = 4 := by decide +kernel

theorem test_closeRepeat : (upC 5).findConn 0 = some (0, conn0 5) ∧ (conn0 5).closeTries < 3 ∧ (conn0 5).keys ≠ [] ∧
    (upC 5).mayGo 0 (conn0 5) = true ∧ (after (.closeRepeat 0) (upC 5)).out.length = 1 := by decide +kernel

def upPaused : State := { withConn connA with eth := { upZ.eth with paused := List.range 8 } }

theorem test_rtoExpiry : upPaused.zOn = true ∧ upPaused.zCanSend connA = false ∧ upPaused.alone 0 connA = true ∧
    (mfind (after (.rtoExpiry 0 1 false) upPaused).zt.ctx 0).map (fun c => (c.flight, c.resend)) = some ([], [(0, 0)]) := by decide +kernel

def connU : Conn := { conn0 3 with unacked := 1, pns := [(1, 1)], largest := 1 }

theorem test_ackDelayExpiry : (withConn connU).mayGo 0 connU = true ∧ (after (.ackDelayExpiry 0) (withConn connU)).out.length = 1 := by decide +kernel

theorem test_rates : connA.reqs ≠ [] ∧ (mfind (after (.ratePeriod 0) (withConn connA)).zt.ctx 0).map (·.goodN) = some 1 ∧
    (mfind (after (.rateIdleReset 0) (withConn connA)).zt.ctx 0).map (·.cong) = some ⟨0, 1⟩ := by decide +kernel

theorem test_keepaliveExpiry : (conn0 3).peerId = 0x42 ∧ (upC 3).connsOf 0 = [(0, conn0 3)] ∧ ((upC 3).bunt 0).map (·.n) = some 0 ∧ (upC 3).mayGo 0 (conn0 3) = true ∧
    (after (.keepaliveExpiry 0 0x42) (upC 3)).out.length = 1 ∧
    (mfind (after (.peerUnreachable 0 0x42) (upC 3)).zt.ctx 0).map (·.state) = some 4 := by decide +kernel

def connF : Conn := { conn0 3 with resident := false }
def upFetch : State := { withConn connF with zt := { upZ.zt with ctx := [(0, connF)], fetch := [0] } }.fset (HIF_P_STATUS_HOST_LOST 0) 0

theorem test_contextFetchComplete : upFetch.zOn = true ∧ upFetch.hostLost 0 = false ∧ connF.quiet = true ∧ upFetch.alone 0 connF = true ∧ upFetch.onchip 0 = 16 ∧ upFetch.zt.miss = [] ∧
    (mfind (after (.contextFetchComplete 0 true []) upFetch).zt.ctx 0).map (·.resident) = some true ∧
    upFetch.fbit (ZTX_P_FAULT_VALID 0) = false ∧ (after (.contextFetchComplete 0 false []) upFetch).fget (ZTX_P_FAULT_CODE 0) = 3 := by decide +kernel

-- O36 to O42: the queue, the units, reset ---------------------------------------------------------------------------------------------------------------

/-- An ill-formed command for each check of WellFormed: a unit past the last that a device has. -/
def illFormed : List Instr :=
  [.registerWrite (.host 17) 0 4 0, .registerWrite (.sess 8) 0 4 0, .clockEnableWrite .fw 2 0, .clockDisableEffect 40, .imageLoad ⟨8, 0, false, true⟩ true [] [],
   .partitionDrainEnd 16, .tileFailure 152, .tileRingEnable .fw 0 4 true, .blotterOpen 0 65536, .normExchangeArrival 16 0 0 0,
   .modelLoadComplete 0 8 [], .signalCounterWrite .fw 0 256 0 0, .joinRecordArrival 16 0, .reduceSegmentArrival 16 0 0 0,
   .digestMessageArrival 16 0 0 false, .repairRequest 0 (some 4) 0 0 false, .mirrorLine 0 4 [], .patrolScrub 256 none, .rekeyPage 0 1024 [],
   .rxFrame 16 0 [] [] false false, .rxFrame 0 4 [] [] false false, .pauseRefresh 0 0 8, .moduleInsertion 16 0 0 0, .filterWord0Write .fw 0 64 0,
   .rxQueueEnable .fw 0 32 0, .dataPacket ⟨16, 0, false, [], []⟩, .dataPacket ⟨0, 4, false, [], []⟩, .crDoorbell .fw 0 8 0,
   .bar2IoRead 17 0 4, .missingEdge 2, .makerGrantExpiry 8, .adminDisableWrite .fw 6 0, .railFault 24, .moverNop 0 2]

def refused (i : Instr) (s : State) : Bool := match exec i s with | .fault .noSuchUnit => true | _ => false

theorem test_wellFormed_refuses : illFormed.all (fun i => !wellFormed i) = true := by decide +kernel

theorem test_illFormed_stops : illFormed.all (fun i => refused i up) = true := by decide +kernel

theorem test_wellFormed_accepts : wellFormed (.registerWrite (.host 16) 0x1FFFFFF 8 0) = true ∧ wellFormed (.tileFailure 151) = true ∧
    wellFormed (.rxFrame 15 3 [] [] false false) = true ∧ wellFormed (.signalCounterWrite (.sess 7) 15 255 0 0) = true := by decide +kernel

/-- Two commands wait. -/
def upQueue : State := { up with pending := [.clockDisableEffect 39, .sqMark 0] }

theorem test_step : (match step upQueue with | .next t => decide (t.pending = [.sqMark 0]) | _ => false) = true ∧ upQueue.wf = true ∧
    (match step up with | .next t => decide (t = up) | _ => false) = true := by decide +kernel

theorem test_atReset : State.reset.fget HBM_CTRL_SCRUB_HOURS = 24 ∧ HBM_CTRL_SCRUB_HOURS.src = .stored 24 ∧ State.reset.wf = true := by decide +kernel

-- O44 and O45: offsets without a register, bus errors ---------------------------------------------------------------------------------------------------

theorem test_hole : up.ready (.sess 0) 0x7F0 = true ∧ up.busCause 0x7F0 8 = 0 ∧
    (List.range 8).all (fun i => (regAt (0x7F0 + i)).isNone && (within (0x7F0 + i) 0xA08000 0x100 16).isNone) = true ∧
    up.ready (.host 0) 0x7FC = true ∧ (after (.registerWrite (.sess 0) 0x7F0 8 5) up).fields = up.fields := by decide +kernel

theorem test_busError : up.reaches (.sess 0) 0x60000 = true ∧ up.busCause 0x60000 4 = 3 ∧ up.fget GEN_BUSERR_STATUS_VALID = 0 ∧
    (after (.registerRead (.sess 0) 0x60000 4) up).fget GEN_BUSERR_STATUS_VALID = 1 ∧
    (after (.registerWrite (.sess 0) 0x60000 4 0) (after (.registerRead (.sess 0) 0x60000 4) up)).fget GEN_BUSERR_STATUS_COUNT = 2 := by decide +kernel

-- O46: watermarks ---------------------------------------------------------------------------------------------------------------------------------------

theorem test_watermarks : upEth.share 0 = 16384 ∧ (upEth.fset (ETH_WM_XOFF 0 0 0) 0).xoffAt 0 0 0 = 1 ∧
    (upEth.fset (ETH_WM_XOFF 0 0 0) 16384).xoffAt 0 0 0 = 16384 ∧ (upEth.fset (ETH_WM_XOFF 0 0 0) 32767).xoffAt 0 0 0 = 16384 ∧
    (upEth.fsets [(ETH_WM_XOFF 0 0 0, 5), (ETH_WM_XON 0 0 0, 5)]).xonAt 0 0 0 = 4 ∧
    (upEth.fsets [(ETH_WM_XOFF 0 0 0, 5), (ETH_WM_XON 0 0 0, 4)]).xonAt 0 0 0 = 4 := by decide +kernel

-- O47: event rings ----------------------------------------------------------------------------------------------------------------------------------------

def upRingFull (on : Nat) : State := (up.partEv 0x05 2 0 1 0).fsets [(EVT_P_CFG_ENABLE 0, on), (EVT_P_CFG_SIZE_LOG2 0, 4), (EVT_P_PTR_HEAD 0, 16)]

theorem test_fullRing : (upRingFull 1).evt.pend.map (fun e => (e.parts, e.nmi, e.pennant, e.typ)) = [([(0, 0)], false, false, 5)] ∧
    (after .eventDelivery (upRingFull 1)).fget (EVT_P_LOST_COUNT 0) = 1 ∧ (upRingFull 0).fbit (EVT_P_CFG_ENABLE 0) = false ∧
    (after .eventDelivery (upRingFull 0)).fields = (upRingFull 0).fields := by decide +kernel

-- O48: failed checks ----------------------------------------------------------------------------------------------------------------------------------------

def upBadOps : State := ((upTile |> pokeInk 0x1000 1 9) |> pokeInk 0x2000 1 0x6F) |> pokeInk 0x3000 1 7

theorem test_failedChecks : upBadOps.canFetch 0 .mx = true ∧ upBadOps.slotOut 0 .mx = false ∧ upBadOps.tooFar 0 .mx = false ∧
    (upBadOps.tile 0).shadow = none ∧ (upBadOps.mxSlot 0).op = 9 ∧
    (upBadOps.mxSlot 0).check (upBadOps.tile 0).mxEt5 = 1 ∧ upBadOps.canFetch 0 .nb = true ∧ 10 < (upBadOps.nbSlot 0).d.op ∧ (upBadOps.nbSlot 0).check = 1 ∧
    upBadOps.canFetch 0 (.sm 0) = true ∧ upBadOps.slotLocked 0 (.sm 0) = false ∧ (upBadOps.smSlot 0 0).op = 7 ∧ (upBadOps.smSlot 0 0).check 0 = 1 ∧
    (after (.mxLoad 0) upBadOps).halted 0 .mx = true ∧ (after (.nibMap 0) upBadOps).halted 0 .nb = true ∧
    (after (.moverCopy 0 0 []) upBadOps).halted 0 (.sm 0) = true ∧ (after (.moverCopy 0 0 []) upBadOps).fget ((TU.sm 0).valid 0) = 1 := by decide +kernel

/-- HEAD and TAIL as after a RESUME that left TAIL more than the ring size ahead. -/
def upFar : State := upTile.fset (TU.mx.tail 0) (upTile.slots 0 .mx + 1)

theorem test_tailTooFar : upFar.canFetch 0 .mx = true ∧ upFar.tooFar 0 .mx = true ∧ (after (.mxNop 0) upFar).halted 0 .mx = true ∧
    (after (.mxNop 0) upFar).fget (TU.mx.codeF 0) = 0xB := by decide +kernel

/-- The same with an operation code that fails its own check: the lower code is recorded. -/
def upFarBad : State := upFar |> pokeInk 0x1000 1 9

theorem test_lowestCode : upFarBad.canFetch 0 .mx = true ∧ upFarBad.tooFar 0 .mx = true ∧ (after (.mxNop 0) upFarBad).halted 0 .mx = true ∧
    (after (.mxNop 0) upFarBad).fget (TU.mx.codeF 0) = 1 := by decide +kernel

/-- A ring that ends at the top of the space that a ring may use: its slot at HEAD would reach the save area. -/
def upSlotOut : State := upTile.fset (TU.mx.base 0) (saveBase / TU.mx.slot)

theorem test_slotOut : upSlotOut.canFetch 0 .mx = true ∧ upSlotOut.slotOut 0 .mx = true ∧ (after (.mxNop 0) upSlotOut).halted 0 .mx = true ∧
    (after (.mxNop 0) upSlotOut).fget (TU.mx.codeF 0) = 4 := by decide +kernel

-- O49: other partitions --------------------------------------------------------------------------------------------------------------------------------------

theorem test_otherPartition : up.ready (.host 0) (ZTX_P_OP_ARG 1).off = true ∧ placeOf (ZTX_P_OP_ARG 1).off = .part 1 ∧ up.fnPart 0 = some 0 ∧
    regAt (ZTX_P_OP_ARG 1).off = some (ZTX_P_OP_ARG 1) ∧ (up.splitOf (.host 0)).latch = none := by decide +kernel

-- O50: roles ------------------------------------------------------------------------------------------------------------------------------------------------

/-- Session 0 with an operator's credential. -/
def upOper : State := { up with nv := { up.nv with creds := [(0, ⟨List.replicate 57 1, 1, []⟩)] } }
def loggedOnly (t : State) (op : Nat) : Bool :=
  decide (t = { upOper with out := [.jex 0 op 2 9 []], nv := { upOper.nv with logSeq := upOper.nv.logSeq + 1 },
                            sec := { upOper.sec with openRec := none, held := t.sec.held } })

theorem test_installerRows : upOper.jexServed = true ∧ mfind upOper.sec.sess 0 = some u0 ∧ upOper.sessRole u0 < 2 ∧ upOper.gen.resetAfter = false ∧
    upOper.fbit SEC_STATUS_RECOVERY = false ∧ loggedOnly (after (.fwBegin x0 9) upOper) 0x11 = true ∧
    loggedOnly (after (.fwChunk x0 9 []) upOper) 0x12 = true ∧ loggedOnly (after (.fwCommit x0) upOper) 0x14 = true ∧
    loggedOnly (after (.credAdd x0 [] 2 []) upOper) 0x17 = true ∧ loggedOnly (after (.netConfig x0 []) upOper) 0x19 = true ∧
    loggedOnly (after (.reset x0) upOper) 0x1C = true ∧ loggedOnly (after (.makerUnlock x0 []) upOper) 0x21 = true ∧
    loggedOnly (after (.makerFn x0 1 0) upOper) 0x22 = true := by decide +kernel

-- O51 and O52: packets that change nothing -----------------------------------------------------------------------------------------------------------------

/-- A PROBE whose tag is 16 zeros. -/
def bad0 : ZPkt := pkt 3 1 (leBytes 8 0 ++ List.replicate 16 0)

theorem test_unauthenticated : (upC 3).zOn = true ∧ headerOk bad0.header = true ∧ leAt bad0.header 0 1 % 16 = 3 ∧
    (upC 3).findConn (leAt bad0.header 4 4) = some (0, conn0 3) ∧ (upC 3).subHolder 0 0 = some 0 ∧ (upC 3).fget (FAB_PART_STATE_P 0) = 1 ∧
    (conn0 3).opened 1 bad0.header bad0.body = none ∧ (after (.probePacket bad0) (upC 3)).fget ZTX_AUTH_FAIL_COUNT = 1 := by decide +kernel

/-- Message 1 of 4 bytes arrives while message 0 is outstanding, and no region admits it; the sub-port is paused. -/
def out0 : ZPkt := pkt 1 1 (leBytes 4 1 ++ leBytes 4 0 ++ leBytes 4 4 ++ leBytes 4 0 ++ leBytes 8 0x4000 ++ leBytes 8 0 ++ List.replicate 4 9)
def upOut : State := { upC 3 with eth := { upZ.eth with paused := List.range 8 } }

/-- A packet for a CLOSED connection whose tag fails counts too (R314). -/
theorem test_unauthenticated_closed : (conn0 5).opened 1 bad0.header bad0.body = none ∧
    (after (.probePacket bad0) (upC 5)).fget ZTX_AUTH_FAIL_COUNT = 1 := by decide +kernel

theorem test_outsideRegions : upOut.arrives (wire (conn0 3) out0) out0.body 1 3 0 (conn0 3) = true ∧ upOut.alone 0 (conn0 3) = true ∧ (conn0 3).quiet = true ∧ (conn0 3).recs = [] ∧ upOut.recsOf 0 < upOut.recQuota 0 ∧
    upOut.recsAll < 16384 ∧ upOut.zCanSend (conn0 3) = false ∧ (parseData out0.body).ok (conn0 3) out0.body = true ∧ (parseData out0.body).seq = 1 ∧
    (conn0 3).rcvDone = 0 ∧ ahead 32 0 1 = 2 ^ 32 - 1 ∧ upOut.regionOk 0 (conn0 3).group 0x4000 4 = false ∧
    (after (.dataPacket (wire (conn0 3) out0)) upOut).mem = upOut.mem ∧ (after (.dataPacket (wire (conn0 3) out0)) upOut).fget (ZTX_P_FAULT_CODE 0) = 2 ∧
    (after (.dataPacket (wire (conn0 3) out0)) upOut).fget FAB_VIOLATION_STATUS_KIND = 5 := by decide +kernel

-- O53 to O56: frames ------------------------------------------------------------------------------------------------------------------------------------------

theorem test_frames : ran (.nibNop 0) (upNib 0 0 0 0) = true ∧ ran (.nibMap 0) upMap = true ∧ mget 0 (after (.nibMap 0) upMap).ink 0x8103 = 0x40 ∧
    keepsTiles (.moverNop 0 0) = true ∧ ran (.moverNop 0 0) upTile = true ∧ keepsMemory (.nibMap 0) = true ∧
    ran (.keyslotEnroll x0 0 []) up = true ∧ ran (.fwCommit x0) up = true := by decide +kernel

-- O57 and O58: encodings ---------------------------------------------------------------------------------------------------------------------------------------

theorem test_conversions : (decodeNum .fp16 0x7BFF).isFin = true ∧ toFmt .fp16 false false (decodeNum .fp16 0x7BFF) = (0x7BFF, .normal) ∧
    (decodeNum .e4m3 0x7E).isFin = true ∧ toFmt .e4m3 true true (decodeNum .e4m3 1) = (1, .normal) ∧ Fmt.e2m1.bits = 4 ∧
    bitsAt (rne48 (fp32 0x40490FDB)) 37 10 ≠ 0 ∧ rne48 (acc48 (2 ^ 47)) = 2 ^ 47 := by decide +kernel

theorem test_packedRow : packRow 6 [63, 1, 32] = [0x7F, 0x00, 0x02] ∧ packedGet 6 (packRow 6 [63, 1, 32]) 2 = 32 ∧ ceilDiv (3 * 6) 8 = 3 := by decide +kernel

-- O59: the layout -----------------------------------------------------------------------------------------------------------------------------------------------

def owner3 : Owner := ⟨[4, 0, 9], [1], 0, 0⟩

theorem test_layout : owner3.chs.Nodup ∧ owner3.lost.Pairwise (· < ·) ∧ (∀ k ∈ owner3.lost, k < owner3.chs.length) ∧ owner3.lost.length < owner3.chs.length ∧
    owner3.size = 2 ^ 32 ∧ (owner3.toDpa (2 ^ 32 - 1)).bind owner3.ofDpa = some (2 ^ 32 - 1) := by decide +kernel

-- O60: DIGEST -----------------------------------------------------------------------------------------------------------------------------------------------------

/-- The digest entry of tensor 0 is sealed, and the dirty bitmap lies outside the partition's space. -/
def upSealed : State := (upDig PalP.init).fset (PAL_DIRTY_BASE_BASE 0) (2 ^ 41 / 512) |> poke 0x8030 1 1

theorem test_digest : upSealed.tensorEnt 0 (upSealed.epochNow 0) (leAt (rec0 6 0) 0x10 4) = some (0x1000, ten0) ∧ (upSealed.pp 0).fix = [] ∧
    upSealed.fbit (PAL_CTRL_ENABLE 0) = true ∧ upSealed.plain 0 (teLineAddr ten0 0) 512 0x2000 = true ∧
    upSealed.plain 0 (upSealed.digestAddr 0 0) 64 0x8000 = true ∧ upSealed.memByte 0x8030 = 1 ∧ upSealed.fget (PAL_DIRTY_BASE_BASE 0) * 512 = 2 ^ 41 := by
  decide +kernel

theorem test_digest_noShared : upSealed.fab.image.map (fun i => i.dev.shared) = some [] := by decide +kernel

theorem test_digest_dirtyOutside (x : Nat) : upSealed.toDpa 0 (2 ^ 41 + x) = none := by
  have h : ∀ r, upSealed.shared r = none := fun r => by
    have e := test_digest_noShared
    unfold State.shared
    revert e
    cases upSealed.fab.image with
    | none => intro e; exact absurd e (by simp)
    | some i => intro e; simp only [Option.map_some, Option.some.injEq] at e; simp [e]
  have h1 : ¬ 2 ^ 41 + x < pagedBase := by unfold pagedBase; omega
  have h2 : ¬ 2 ^ 41 + x < sharedBase := by unfold sharedBase; omega
  unfold State.toDpa State.loc
  rw [if_neg h1, if_neg h2]
  simp only [h]

end Sys2Proof.Tests
end

section
/-!
PROOF. Offsets that hold no register (R26): neither the plan of a write nor the value of a read depends on anything there, so an access that gets no
bus error leaves all but the source's read latch and held write as it is.
-/
namespace Sys2Proof.Machine

-- Accesses that get no bus error, of either width ----------------------------------------------------------------------------------------------------

theorem State.accessNow_write {s : State} {src : Src} {a w v : Nat} {dirty : HostStores} (h : s.busCause a w = 0) :
    s.accessNow ⟨src, a, w, v, true, dirty⟩ = s.writeGo src a w v dirty := by
  simp [State.accessNow, State.access, h]

theorem State.accessNow_read {s : State} {src : Src} {a w v : Nat} {dirty : HostStores} (h : s.busCause a w = 0) :
    s.accessNow ⟨src, a, w, v, false, dirty⟩ = (s.readGo src a w).2.emit (.readData src (s.readGo src a w).1) := by
  simp [State.accessNow, State.access, h]

theorem exec_registerWrite_ready {s : State} {src : Src} {a w : Nat} (v : Nat) (h : s.ready src a = true) (hc : s.busCause a w = 0) :
    exec (.registerWrite src a w v) s = .next (s.writeGo src a w v []) := by
  change onUnit (srcOk src) (s.busOp ⟨src, a, w, v, true, []⟩) = _
  rw [State.busOp_ready (b := ⟨src, a, w, v, true, []⟩) h, State.accessNow_write hc, onUnit, if_pos (State.ready_src h)]

theorem exec_registerRead_ready {s : State} {src : Src} {a w : Nat} (h : s.ready src a = true) (hc : s.busCause a w = 0) :
    exec (.registerRead src a w) s = .next ((s.readGo src a w).2.emit (.readData src (s.readGo src a w).1)) := by
  change onUnit (srcOk src) (s.busOp ⟨src, a, w, 0, false, []⟩) = _
  rw [State.busOp_ready (b := ⟨src, a, w, 0, false, []⟩) h, State.accessNow_read hc, onUnit, if_pos (State.ready_src h)]

-- Offsets that hold neither a register nor a resume record --------------------------------------------------------------------------------------------

/-- Offset `a` holds no register, and no byte of a partition's resume record (0xA0_8000). -/
def Vacant (a : Nat) : Prop := regAt a = none ∧ within a 0xA08000 0x100 16 = none

theorem Vacant.wideAt {a : Nat} (h : Vacant a) : wideAt a = none := by
  simp [Machine.wideAt, h.1]

theorem State.wordAt_vacant {a : Nat} (h : Vacant a) (s : State) (src : Src) : s.wordAt src a = 0 := by
  obtain ⟨hreg, hrec⟩ := h
  unfold State.wordAt
  split
  · rfl
  · rw [hrec, hreg]

theorem State.read32_vacant {a : Nat} (h : Vacant a) (s : State) (src : Src) (x : Split) : s.read32 src x a = (0, { x with latch := none }) := by
  rw [State.read32, h.wideAt, State.wordAt_vacant h]

theorem State.plan32_vacant {a : Nat} (h : Vacant a) (s : State) (x : Split) (v : Nat) : s.plan32 x a v = ({ x with held := none }, []) := by
  rw [State.plan32, h.wideAt, h.1]

/-- An access of 4 bytes touches the word at its offset, one of 8 bytes that at the offset 4 above as well (R25). -/
theorem State.readGo_vacant {a w : Nat} (h : Vacant a) (h' : w ≠ 4 → Vacant (a + 4)) (s : State) (src : Src) :
    s.readGo src a w = (0, s.setSplit src { s.splitOf src with latch := none }) := by
  by_cases hw : w = 4
  · simp [State.readGo, hw, State.read32_vacant h]
  · simp [State.readGo, hw, h.wideAt, State.read32_vacant h, State.read32_vacant (h' hw)]

theorem State.writeGo_vacant {a w : Nat} (h : Vacant a) (h' : w ≠ 4 → Vacant (a + 4)) (s : State) (src : Src) (v : Nat) (dirty : HostStores) :
    s.writeGo src a w v dirty = s.setSplit src { s.splitOf src with held := none } := by
  by_cases hw : w = 4
  · simp [State.writeGo, State.plan, hw, State.plan32_vacant h]
  · simp [State.writeGo, State.plan, hw, h.wideAt, State.plan32_vacant h, State.plan32_vacant (h' hw)]

/-- Settles O44: an access at a vacant offset changes nothing but the source's latch (a read) or held write (a write), and a read answers 0. -/
theorem offsetsWithoutARegister : Obligations.OffsetsWithoutARegister := by
  intro s src off w v hready hwidth hcause hvacant
  have hlo : Vacant off := hvacant off (by omega) (by omega)
  have hhi : w ≠ 4 → Vacant (off + 4) := fun hw => hvacant (off + 4) (by omega) (by omega)
  constructor
  · refine ⟨_, exec_registerRead_ready hready hcause, ?_⟩
    rw [State.readGo_vacant hlo hhi]
    rfl
  · refine ⟨_, exec_registerWrite_ready v hready hcause, ?_⟩
    rw [State.writeGo_vacant hlo hhi]
    rfl

end Sys2Proof.Machine
end

section
/-!
PROOF. Watermarks in effect (R310): the XOFF is the field clamped to 1 up to the sub-port's share, the XON the field held below that XOFF.
-/
namespace Sys2Proof.Machine

theorem clamp_of_lt {lo hi v : Nat} (h : v < lo) : clamp lo hi v = lo := if_pos h

theorem clamp_of_gt {lo hi v : Nat} (hlo : lo ≤ v) (hhi : hi < v) : clamp lo hi v = hi := by
  rw [clamp, if_neg (Nat.not_lt.mpr hlo), if_pos hhi]

theorem clamp_of_mem {lo hi v : Nat} (hlo : lo ≤ v) (hhi : v ≤ hi) : clamp lo hi v = v := by
  rw [clamp, if_neg (Nat.not_lt.mpr hlo), if_neg (Nat.not_lt.mpr hhi)]

/-- Settles O46: the XOFF by the three ranges of `clamp`, the XON by which side of the minimum is the smaller. -/
theorem watermarksActInTheirRange : Obligations.WatermarksActInTheirRange := by
  intro s j k q xoff xon
  refine ⟨fun hzero => ?zero, fun habove => ?above, fun hpos hshare => ?inRange, fun hle => ?xonHigh, fun hlt => ?xonLow⟩
  case zero => exact clamp_of_lt (Nat.lt_one_iff.mpr hzero)
  case above => exact clamp_of_gt (Nat.one_le_of_lt habove) habove
  case inRange => exact clamp_of_mem hpos hshare
  case xonHigh => exact Nat.min_eq_right (Nat.le_trans (Nat.sub_le _ 1) hle)
  case xonLow => exact Nat.min_eq_left (Nat.le_sub_one_of_lt hlt)

end Sys2Proof.Machine
end

section
/-!
PROOF. A fault record beside a failed ledger write (R443, log entry 210): while the write waits for its retry, the delivery of an event of severity 2 or
more sets LDG_STATUS.WRITE_FAULT, whatever the partition's ring does with its own record.
-/
namespace Sys2Proof.Machine

-- One event's delivery to a disabled ring ---------------------------------------------------------------------------------------------------------------

theorem State.deliver_single {s : State} {e : Ev} (h : s.evt.pend = [e]) :
    s.deliver = { s with evt := { s.evt with pend := [] } }.deliverEv e := by
  have hnext : ([e].find? (·.pennant)).getD e = e := by cases hp : e.pennant <;> simp [hp]
  simp only [State.deliver, h, hnext, List.erase_cons_head]

theorem State.pennantSend_of_not_pennant {e : Ev} (h : e.pennant = false) (s : State) (p d : Nat) : s.pennantSend p e d = s := by
  simp [State.pennantSend, h]

/-- A disabled ring receives nothing, and nothing is counted (R439). -/
theorem State.evtPart_disabled {s : State} {e : Ev} {p : Nat} (hnmi : e.nmi = false) (hpennant : e.pennant = false)
    (hoff : s.fbit (EVT_P_CFG_ENABLE p) = false) (d : Nat) : s.evtPart e (p, d) = s := by
  simp [State.evtPart, State.pennantSend_of_not_pennant hpennant, hoff, hnmi]

theorem State.evtMgmt_gen (s : State) (e : Ev) (mask : Nat) : (s.evtMgmt e mask).gen = s.gen :=
  List.foldlRecOn (motive := fun t : State => t.gen = s.gen) _ _ rfl fun t ht x _ => by
    split
    · exact ht
    · exact ht

-- The fault record ---------------------------------------------------------------------------------------------------------------------------------------

theorem State.faultRecord_sets_writeFault {s : State} (h : s.gen.flashBad = true) (r : List Byte) :
    (s.faultRecord r).fget LDG_STATUS_WRITE_FAULT = 1 := by
  rw [State.faultRecord, if_pos h]
  exact State.fget_fset_same _ _ _ 0 rfl

theorem State.deliverEv_disabled_sets_writeFault {s : State} {e : Ev} {p d : Nat} (hparts : e.parts = [(p, d)]) (hnmi : e.nmi = false)
    (hpennant : e.pennant = false) (hoff : s.fbit (EVT_P_CFG_ENABLE p) = false) (hsev : 2 ≤ e.sev) (hbad : s.gen.flashBad = true) :
    (s.deliverEv e).fget LDG_STATUS_WRITE_FAULT = 1 := by
  have hring : (if e.nmi then s.evtNmi e else e.parts.foldl (State.evtPart e) s) = s := by
    simp [hnmi, hparts, State.evtPart_disabled hnmi hpennant hoff]
  rw [State.deliverEv, hring, ite_self, if_pos (.inl hsev)]
  exact State.faultRecord_sets_writeFault ((congrArg GenS.flashBad (State.evtMgmt_gen ..)).trans hbad) _

-- The counterexample -------------------------------------------------------------------------------------------------------------------------------------

/-- A ledger write failed and waits for its retry, and management has cleared LDG_STATUS.WRITE_FAULT (it is W1C) since. -/
def retryDue : State := { State.reset with gen := { State.reset.gen with flashBad := true } }

/-- The spare-exhausted event of partition 0 (R54), as `State.noteEv` raises it in `retryDue`. -/
def spareExhausted : Ev := { mkEv 0x05 3 (some 0) true (Config.evCode 0x05).toNat 0 with time := retryDue.now }

/-- That event waits for delivery; the ring of partition 0 is disabled. -/
def retryDueSpareExhausted : State := retryDue.noteEv 0x05 3 0 0

theorem retryDueSpareExhausted_pend : retryDueSpareExhausted.evt.pend = [spareExhausted] := rfl

theorem retryDueSpareExhausted_disabled : retryDueSpareExhausted.fbit (EVT_P_CFG_ENABLE 0) = false := by decide +kernel

theorem retryDueSpareExhausted_writeFault : retryDueSpareExhausted.fget LDG_STATUS_WRITE_FAULT = 0 := by decide +kernel

/-- Refutes O47: no premise excludes a ledger write that waits for its retry, and then the fault record of the event, of severity 3, sets
LDG_STATUS.WRITE_FAULT although the ring of its partition is disabled (R443, log entry 210). -/
theorem not_fullEventRingsLoseTheRecord : ¬ Obligations.FullEventRingsLoseTheRecord := by
  intro h
  obtain ⟨t, hexec, -, hfields, -⟩ := (h retryDueSpareExhausted spareExhausted 0 0 (by decide) retryDueSpareExhausted_pend rfl rfl rfl
    (by decide)).2 retryDueSpareExhausted_disabled
  have ht : retryDueSpareExhausted.deliver = t := Host.Outcome.next.inj hexec
  have hset : t.fget LDG_STATUS_WRITE_FAULT = 1 := by
    rw [← ht, State.deliver_single retryDueSpareExhausted_pend]
    exact State.deliverEv_disabled_sets_writeFault rfl rfl rfl retryDueSpareExhausted_disabled (by decide) rfl
  have hkept : t.fget LDG_STATUS_WRITE_FAULT = 0 :=
    (State.fget_congr hfields LDG_STATUS_WRITE_FAULT 0 rfl).trans retryDueSpareExhausted_writeFault
  exact absurd (hset.symm.trans hkept) Nat.one_ne_zero

end Sys2Proof.Machine
end
